-- ==== Sys2Proof/Word.lean ====
section
/-! DEFINITION. Word types of the T9600 model: bytes, 32-bit registers and 64-bit words (R7, R23, R40). -/

namespace Sys2Proof

/-- A byte of memory, of a structure laid out in bytes, or of a frame. -/
abbrev Byte := BitVec 8

/-- A register of a register window (R23): 32 bits. -/
abbrev W32 := BitVec 32

/-- A Bexob general or special register, an instruction word, or a configuration value (R40, R72, R97). -/
abbrev Word := BitVec 64

/-- A list of bytes, lowest offset first. -/
abbrev Bytes := List Byte

end Sys2Proof
end

