-- ==== Sys2Proof/Syntax/Types.lean ====
section
/-! DEFINITION. Operand types of the commands: what a row of the opcode table carries beside its name. -/

namespace Sys2Proof

/-- A Bexob core: 0 the Fold, 1 to 8 Shepherd 0 to 7, 9 to 40 Drover 0 to 31. -/
abbrev CoreId := Fin 41
/-- A flash channel. -/
abbrev Chan := Fin 128
/-- A die ID: channel × 32 + chip enable × 8 + LUN. -/
abbrev DieId := BitVec 12
/-- A controller, as CNTLID − 1 = port × 64 + function. -/
abbrev Ctrl := Fin 128
/-- A pen. -/
abbrev Pen := Fin 16384
/-- A paddock. -/
abbrev Paddock := Fin 230

/-- The operand fields of a Bexob instruction word (R37, Table 3-1). -/
structure Fields where
  rd : BitVec 5
  rs1 : BitVec 5
  rs2 : BitVec 5
  imm : BitVec 41
  deriving DecidableEq, Repr

/-- How many Tally slots fail their read-back in one append: 0 none, 1 the first, 2 both, so that the append fails (R398). -/
abbrev TallyFails := Fin 3

/-- The fields of a runtime Tally entry (Table 15-8). -/
structure Entry where
  etype : Nat
  detail : Nat
  cntlid : Nat
  cid : Nat
  secver : Nat
  inst : Nat
  ref : Nat
  digest : Bytes
  kids : Bytes
  data : Bytes
  eflags : Nat
  deriving DecidableEq, Repr

/-- How a lifecycle request or a debug token reaches the Fold (R374, R504). -/
inductive LcSource where
  /-- A Security Send of protocol 0xF0 in an admin pen. -/
  | pen (p : Pen)
  /-- The JTAG mailbox data register. -/
  | jtag
  /-- A tunnelled Security Send over an out-of-band path while the boot is halted. -/
  | mgmt
  deriving DecidableEq, Repr

/-- Who sends a management or SPDM message: an endpoint on the Walk ring or on I3C/SMBus, or a controller by Security Send. -/
inductive Via where
  | walk (eid : BitVec 8)
  | i3c (eid : BitVec 8)
  | host (p : Pen)
  deriving DecidableEq, Repr

/-- How the writes of a slot to the store end (R449): done, failed, or cut by a power loss or reset after the old content is gone. -/
inductive StoreEnd where
  | done
  | failed
  | cut
  deriving DecidableEq, Repr

/-- A TCG method after its packet has been taken apart (R423 to R425). Authorities: 1 to 4 Admin1 to Admin4, 5 to 12 User1 to User8, 13 the PSID. -/
inductive TcgMethod where
  /-- StartSession to a security provider (0 Admin SP, 1 Locking SP), proving an authority. -/
  | startSession (sp : Fin 2) (auth : BitVec 4) (pin : Bytes)
  | endSession
  | authenticate (auth : BitVec 4) (pin : Bytes)
  | setPin (auth : BitVec 4) (pin : Bytes)
  | enableAuthority (auth : BitVec 4) (on : Bool)
  | activate
  /-- The configuration of a namespace's range; bits of `resets`: 0 Power Cycle, 1 Hardware, 2 HotPlug. -/
  | setRange (nsid : BitVec 11) (readLockEnabled writeLockEnabled : Bool) (resets : BitVec 3)
  /-- Locks or unlocks a namespace's range. -/
  | setLock (nsid : BitVec 11) (readLocked writeLocked : Bool)
  | genKey (nsid : BitVec 11)
  | revert
  | revertSp
  | psidRevert (psid : Bytes)
  /-- Key Per I/O: puts a namespace in MODE 0x02. -/
  | keyPerIo (nsid : BitVec 11)
  /-- Key Per I/O: installs a KEK, 32 bytes, in KEK slot 16,368 + i. -/
  | installKek (i : Fin 16) (kek : Bytes)
  /-- Key Per I/O: injects a media key, 72 bytes, under a KEK. -/
  | injectKey (nsid : BitVec 11) (i : Fin 16) (wrapped : Bytes)
  /-- Key Per I/O: clears the namespace key. -/
  | clearKey (nsid : BitVec 11)
  deriving DecidableEq, Repr

/-- Where an MCTP packet comes from: the oldest captured Walk frame, or the I3C target. -/
inductive MctpIn where
  | walk
  | i3c (packet : Bytes)
  deriving DecidableEq, Repr

/-- What a read of a DRAM or SRAM unit finds (R320, R323, R334). -/
inductive MemFault where
  /-- The unit is correct. -/
  | clean
  /-- An error is corrected: the DRAM device it is attributed to, and for SRAM whether the second read needs correction too. -/
  | corrected (device : BitVec 5) (hard : Bool)
  /-- The unit is uncorrectable. -/
  | uncorrectable
  deriving DecidableEq, Repr

/-- What a graze read reads (R335, R336). -/
inductive GrazeTarget where
  /-- A DRAM or SRAM unit at an internal address. -/
  | memory (address : BitVec 48) (fault : MemFault)
  /-- An 8-byte word of a map cache line. -/
  | mapLine (line : BitVec 31) (word : Fin 20) (fault : MemFault)
  /-- A codeword of a die. -/
  | nand (die : BitVec 12) (slot : BitVec 26)
  deriving DecidableEq, Repr

/-- How a die operation ends (Table 3-6): with success, after retry steps, or failing; for a read the failing data units are given. -/
inductive DieOutcome where
  | ok
  | retried (steps : BitVec 4)
  | failed (units : BitVec 48)
  deriving DecidableEq, Repr

/-- What channel bring-up finds on one LUN (R180, R184 to R186). -/
structure DieInfo where
  /-- The die's index on its channel, chip enable × 8 + LUN. -/
  index : Fin 32
  /-- It returned ready within 10 ms of reset. -/
  ready : Bool
  /-- Its parameter page reports the geometry of R180. -/
  supported : Bool
  ident : BitVec 32
  wordLines : BitVec 16
  blocks : BitVec 16
  /-- Highest ONFI rate it supports (Table 7-2). -/
  onfi : Fin 8
  /-- Extended rates it advertises (Table 7-3, RATES). -/
  ext : BitVec 2
  deriving DecidableEq, Repr

/-- One SGL descriptor as the movers read it: its type and sub type, and its length. -/
structure SglDesc where
  kind : BitVec 4
  sub : BitVec 4
  length : W32
  deriving DecidableEq, Repr

/-- How the host side of a MOVE ends (R156): it is served, or after the retries it is refused or has timed out. -/
inductive HostEnd where
  | ok
  | refused
  | timeout
  deriving DecidableEq, Repr

/-- What the data-pointer walk of a command reads from host memory. -/
inductive WalkData where
  /-- PRP entries in order, each as a host address. -/
  | prp (entries : List (BitVec 64))
  /-- SGL segments in order, and the metadata descriptors. -/
  | sgl (segments : List (List SglDesc)) (metadata : List SglDesc)
  deriving DecidableEq, Repr

end Sys2Proof
end

