-- ==== Sys2Proof/Syntax.lean ====
section
/-! DEFINITION. The commands of the T9600: one constructor per row of the opcode table, in its order, with the row's operands. -/

namespace Sys2Proof

/-- A command from outside the block, or an internal event of the block, as the rows of the opcode table list them. -/
inductive Instr where
  /-- ADD: Adds rs1 and rs2 modulo 2^64 into rd (R77). -/
  | add (c : CoreId) (f : Fields)
  /-- SUB: Subtracts rs2 from rs1 modulo 2^64 into rd (R77). -/
  | sub (c : CoreId) (f : Fields)
  /-- AND: Bitwise AND of rs1 and rs2 into rd (R77). -/
  | and (c : CoreId) (f : Fields)
  /-- OR: Bitwise OR of rs1 and rs2 into rd (R77). -/
  | or (c : CoreId) (f : Fields)
  /-- XOR: Bitwise XOR of rs1 and rs2 into rd (R77). -/
  | xor (c : CoreId) (f : Fields)
  /-- SLL: Shifts rs1 left by rs2[5:0] into rd (R77). -/
  | sll (c : CoreId) (f : Fields)
  /-- SRL: Shifts rs1 logically right by rs2[5:0] into rd (R77). -/
  | srl (c : CoreId) (f : Fields)
  /-- SRA: Shifts rs1 arithmetically right by rs2[5:0] into rd (R77). -/
  | sra (c : CoreId) (f : Fields)
  /-- SLT: Writes 1 to rd when rs1 is less than rs2 as signed values, else 0 (R77). -/
  | slt (c : CoreId) (f : Fields)
  /-- SLTU: Writes 1 to rd when rs1 is less than rs2 as unsigned values, else 0 (R77). -/
  | sltu (c : CoreId) (f : Fields)
  /-- MIN: Writes the signed smaller of rs1 and rs2 to rd (R77). -/
  | min (c : CoreId) (f : Fields)
  /-- MAX: Writes the signed larger of rs1 and rs2 to rd (R77). -/
  | max (c : CoreId) (f : Fields)
  /-- MINU: Writes the unsigned smaller of rs1 and rs2 to rd (R77). -/
  | minu (c : CoreId) (f : Fields)
  /-- MAXU: Writes the unsigned larger of rs1 and rs2 to rd (R77). -/
  | maxu (c : CoreId) (f : Fields)
  /-- MUL: Writes the low 64 bits of the product to rd (R77). -/
  | mul (c : CoreId) (f : Fields)
  /-- MULH: Writes the high 64 bits of the signed 128-bit product to rd (R77). -/
  | mulh (c : CoreId) (f : Fields)
  /-- MULHU: Writes the high 64 bits of the unsigned 128-bit product to rd (R77). -/
  | mulhu (c : CoreId) (f : Fields)
  /-- DIV: Signed division rounded toward zero, with defined results for zero divisor and overflow (R77). -/
  | div (c : CoreId) (f : Fields)
  /-- DIVU: Unsigned division, all ones for a zero divisor (R77). -/
  | divu (c : CoreId) (f : Fields)
  /-- REM: Signed remainder with the sign of rs1, with defined special cases (R77). -/
  | rem (c : CoreId) (f : Fields)
  /-- REMU: Unsigned remainder, rs1 for a zero divisor (R77). -/
  | remu (c : CoreId) (f : Fields)
  /-- CLZ: Counts leading zero bits of rs1 into rd (R77). -/
  | clz (c : CoreId) (f : Fields)
  /-- CTZ: Counts trailing zero bits of rs1 into rd (R77). -/
  | ctz (c : CoreId) (f : Fields)
  /-- POPC: Counts one bits of rs1 into rd (R77). -/
  | popc (c : CoreId) (f : Fields)
  /-- BSWAP: Reverses the byte order of rs1 into rd (R77). -/
  | bswap (c : CoreId) (f : Fields)
  /-- ADDI: Adds sign-extended imm41 to rs1 into rd (R77). -/
  | addi (c : CoreId) (f : Fields)
  /-- ANDI: ANDs rs1 with zero-extended imm41 into rd (R77). -/
  | andi (c : CoreId) (f : Fields)
  /-- ORI: ORs rs1 with zero-extended imm41 into rd (R77). -/
  | ori (c : CoreId) (f : Fields)
  /-- XORI: XORs rs1 with zero-extended imm41 into rd (R77). -/
  | xori (c : CoreId) (f : Fields)
  /-- SLLI: Shifts rs1 left by imm41[5:0] into rd (R77). -/
  | slli (c : CoreId) (f : Fields)
  /-- SRLI: Shifts rs1 logically right by imm41[5:0] into rd (R77). -/
  | srli (c : CoreId) (f : Fields)
  /-- SRAI: Shifts rs1 arithmetically right by imm41[5:0] into rd (R77). -/
  | srai (c : CoreId) (f : Fields)
  /-- SLTI: Signed compare of rs1 with sign-extended imm41 into rd (R77). -/
  | slti (c : CoreId) (f : Fields)
  /-- SLTIU: Unsigned compare of rs1 with sign-extended imm41 into rd (R77). -/
  | sltiu (c : CoreId) (f : Fields)
  /-- LUI: Writes imm41 shifted left by 23 into rd (R77). -/
  | lui (c : CoreId) (f : Fields)
  /-- AUIPC: Writes pc plus sign-extended imm41 into rd (R77). -/
  | auipc (c : CoreId) (f : Fields)
  /-- BEQ: Branches by imm41 words when rs1 equals rs2 (R78). -/
  | beq (c : CoreId) (f : Fields)
  /-- BNE: Branches by imm41 words when rs1 differs from rs2 (R78). -/
  | bne (c : CoreId) (f : Fields)
  /-- BLT: Branches when rs1 is signed-less than rs2 (R78). -/
  | blt (c : CoreId) (f : Fields)
  /-- BGE: Branches when rs1 is signed-greater-or-equal to rs2 (R78). -/
  | bge (c : CoreId) (f : Fields)
  /-- BLTU: Branches when rs1 is unsigned-less than rs2 (R78). -/
  | bltu (c : CoreId) (f : Fields)
  /-- BGEU: Branches when rs1 is unsigned-greater-or-equal to rs2 (R78). -/
  | bgeu (c : CoreId) (f : Fields)
  /-- JAL: Writes pc+8 to rd and jumps by imm41 words (R78). -/
  | jal (c : CoreId) (f : Fields)
  /-- JALR: Writes pc+8 to rd and jumps to rs1 plus imm41, trapping on misalignment (R78). -/
  | jalr (c : CoreId) (f : Fields)
  /-- LD: Loads 8 bytes from rs1 plus imm41 into rd (R79). -/
  | ld (c : CoreId) (f : Fields)
  /-- LW: Loads 4 bytes sign-extended (R79). -/
  | lw (c : CoreId) (f : Fields)
  /-- LWU: Loads 4 bytes zero-extended (R79). -/
  | lwu (c : CoreId) (f : Fields)
  /-- LH: Loads 2 bytes sign-extended (R79). -/
  | lh (c : CoreId) (f : Fields)
  /-- LHU: Loads 2 bytes zero-extended (R79). -/
  | lhu (c : CoreId) (f : Fields)
  /-- LB: Loads 1 byte sign-extended (R79). -/
  | lb (c : CoreId) (f : Fields)
  /-- LBU: Loads 1 byte zero-extended (R79). -/
  | lbu (c : CoreId) (f : Fields)
  /-- SD: Stores 8 bytes of rs2, clearing the raddle mark of an aligned word (R80). -/
  | sd (c : CoreId) (f : Fields)
  /-- SW: Stores the low 4 bytes of rs2 (R79). -/
  | sw (c : CoreId) (f : Fields)
  /-- SH: Stores the low 2 bytes of rs2 (R79). -/
  | sh (c : CoreId) (f : Fields)
  /-- SB: Stores the low byte of rs2 (R79). -/
  | sb (c : CoreId) (f : Fields)
  /-- AMOADD: Atomically adds rs2 to memory and returns the old value (R81). -/
  | amoadd (c : CoreId) (f : Fields)
  /-- AMOAND: Atomically ANDs rs2 into memory and returns the old value (R81). -/
  | amoand (c : CoreId) (f : Fields)
  /-- AMOOR: Atomically ORs rs2 into memory and returns the old value (R81). -/
  | amoor (c : CoreId) (f : Fields)
  /-- AMOXOR: Atomically XORs rs2 into memory and returns the old value (R81). -/
  | amoxor (c : CoreId) (f : Fields)
  /-- AMOSWAP: Atomically swaps rs2 with memory (R81). -/
  | amoswap (c : CoreId) (f : Fields)
  /-- AMOMAXU: Atomically writes the unsigned maximum of memory and rs2 (R81). -/
  | amomaxu (c : CoreId) (f : Fields)
  /-- AMOMINU: Atomically writes the unsigned minimum of memory and rs2 (R81). -/
  | amominu (c : CoreId) (f : Fields)
  /-- CAS: Atomically compares memory with rd and writes rs2 on equality, returning the old value (R81). -/
  | cas (c : CoreId) (f : Fields)
  /-- WAITEV: Completes at once or stalls until an input of the mask is asserted (R48). -/
  | waitev (c : CoreId) (f : Fields)
  /-- WAITEV_WAKE: A stalled WAITEV completes when an input in its mask is asserted (R48). -/
  | waitevWake (c : CoreId)
  /-- MSGSEND: Sends a 32-bit message to another core's inbound queue and reports the outcome (R82). -/
  | msgsend (c : CoreId) (f : Fields)
  /-- MSGRECV: Removes the oldest inbound message into rd, or writes 0 (R82). -/
  | msgrecv (c : CoreId) (f : Fields)
  /-- YIELD: Stops the core clock for imm41[5:0]+1 cycles (R85). -/
  | yield (c : CoreId) (f : Fields)
  /-- YIELD_RESUME: The yield cycle count expires and the core continues (R85). -/
  | yieldResume (c : CoreId)
  /-- FENCE: Orders memory accesses and optionally waits for MOVE and parity completions (R84). -/
  | fence (c : CoreId) (f : Fields)
  /-- TRAP: Raises the service-call trap with detail imm41[7:0] (R86). -/
  | trap (c : CoreId) (f : Fields)
  /-- ERET: Returns from a trap to the level and IE saved in ESTAT (R53). -/
  | eret (c : CoreId) (f : Fields)
  /-- SPGET: Reads a special register into rd under the rights of R41 (R86). -/
  | spget (c : CoreId) (f : Fields)
  /-- SPSET: Writes a special register under the rights of R41 (R86). -/
  | spset (c : CoreId) (f : Fields)
  /-- REST: Enters the low-power state selected by PWRMODE (R43). -/
  | rest (c : CoreId) (f : Fields)
  /-- REST_WAKE: A core in REST wakes on e11 or an EVTRAP-selected input and clears ARM (R465). -/
  | restWake (c : CoreId)
  /-- FOP_READ: Queues a die read with hard decode and decryption (R90). -/
  | fopRead (c : CoreId) (f : Fields)
  /-- FOP_PROGRAM_TLC: Queues a four-plane TLC one-shot program (R90). -/
  | fopProgramTlc (c : CoreId) (f : Fields)
  /-- FOP_PROGRAM_SLC: Queues an SLC program (R90). -/
  | fopProgramSlc (c : CoreId) (f : Fields)
  /-- FOP_ERASE: Queues an erase of the block on the selected planes (R90). -/
  | fopErase (c : CoreId) (f : Fields)
  /-- FOP_RESET_DIE: Queues a die reset (R90). -/
  | fopResetDie (c : CoreId) (f : Fields)
  /-- FOP_GET_FEATURES: Queues a get-features of 4 bytes to the buffer (R90). -/
  | fopGetFeatures (c : CoreId) (f : Fields)
  /-- FOP_SET_FEATURES: Queues a set-features of 4 bytes from the buffer (R90). -/
  | fopSetFeatures (c : CoreId) (f : Fields)
  /-- FOP_READ_PARAMETER_PAGE: Queues a raw parameter page read (R90). -/
  | fopReadParameterPage (c : CoreId) (f : Fields)
  /-- FOP_SOFT_READ: Queues a soft read with multi-level sensing and soft decode (R200). -/
  | fopSoftRead (c : CoreId) (f : Fields)
  /-- FOPC: Collects the oldest die-operation completion record into rd (R91). -/
  | fopc (c : CoreId) (f : Fields)
  /-- FOPQ: Returns the number of queued operations of a die (R92). -/
  | fopq (c : CoreId) (f : Fields)
  /-- MOVE: Queues a mover transfer described by a descriptor and reports issue status (R94). -/
  | move (c : CoreId) (f : Fields)
  /-- MOVEC: Collects the oldest MOVE completion record and frees its slot (R94). -/
  | movec (c : CoreId) (f : Fields)
  /-- PACC: Queues accumulation of a source into P and Q buffers (R96). -/
  | pacc (c : CoreId) (f : Fields)
  /-- PREC: Queues reconstruction of an IU from its drove's other members (R96). -/
  | prec (c : CoreId) (f : Fields)
  /-- PVER: Queues a parity verification of a drove row (R96). -/
  | pver (c : CoreId) (f : Fields)
  /-- PZERO: Queues zeroing of a staging range (R96). -/
  | pzero (c : CoreId) (f : Fields)
  /-- PCOL: Collects the oldest parity completion record (R96). -/
  | pcol (c : CoreId) (f : Fields)
  /-- CGET: Reads a configuration field, staged or committed (R97). -/
  | cget (c : CoreId) (f : Fields)
  /-- CSET: Stages a configuration value into the current transaction (R98). -/
  | cset (c : CoreId) (f : Fields)
  /-- CVER: Reads a configuration field's version (R97). -/
  | cver (c : CoreId) (f : Fields)
  /-- TXB: Opens a transaction with a drain budget and returns a handle (R99). -/
  | txb (c : CoreId) (f : Fields)
  /-- TXC: Commits the transaction, stalling until its outcome is known (R115). -/
  | txc (c : CoreId) (f : Fields)
  /-- TXA: Abandons the transaction and discards its staged values (R100). -/
  | txa (c : CoreId) (f : Fields)
  /-- MEAS: Posts a measurement request to the Fold at V, or hashes memory directly at F (R103). -/
  | meas (c : CoreId) (f : Fields)
  /-- EVENT_TRAP: An EVTRAP-selected input asserted with IE set causes a trap at the next boundary (R50). -/
  | eventTrap (c : CoreId)
  /-- CORE_TIMER: TIME reaches TIMERCMP and e8 is asserted (R41). -/
  | coreTimer (c : CoreId)
  /-- SERVICE_EXIT: Service 0x00 ends an O module with a status and completes Run Module (R59). -/
  | serviceExit (c : CoreId)
  /-- SERVICE_APPEND_RESULT: Service 0x01 appends bytes to the Run Module result buffer (R59). -/
  | serviceAppendResult (c : CoreId)
  /-- SERVICE_RUN_LIMIT_QUERY: Service 0x02 returns the remaining run limit (R59). -/
  | serviceRunLimitQuery (c : CoreId)
  /-- SERVICE_YIELD: Service 0x03 yields the core to V policy work for a time (R59). -/
  | serviceYield (c : CoreId) (us : W32)
  /-- RUN_LIMIT_EXPIRY: The module's run limit is reached and the run-limit trap ends it (R121). -/
  | runLimitExpiry (c : CoreId)
  /-- MOVE_COMPLETE: A mover transfer ends and posts its completion record (R94). -/
  | moveComplete (c : CoreId) (n : Fin 16) (he : HostEnd) (data : Bytes)
  /-- PARITY_OPERATION_COMPLETE: A parity instruction's operation ends and posts its record (R96). -/
  | parityOperationComplete (c : CoreId) (n : Fin 8) (bad : List (BitVec 38))
  /-- MEAS_ANSWER: The Fold answers a V measurement request with a message (R103). -/
  | measAnswer (fails : TallyFails)
  /-- COMMIT_WAIT_END: A commit waiting for a sharing commit proceeds to its checks (R115). -/
  | commitWaitEnd (h : BitVec 16)
  /-- BLOCK_SAFE_POINT: A block reaches a safe point and applies pending live fields (R109). -/
  | blockSafePoint (b : BitVec 12)
  /-- DRAIN_COMPLETE: A quiescent block finishes its begun work for a commit (R111). -/
  | drainComplete (b : BitVec 12)
  /-- DRAIN_BUDGET_EXPIRED: The drain budget expires and the transaction rolls back (R115). -/
  | drainBudgetExpired (h : BitVec 16)
  /-- PERSISTENT_RECORD_COMMITTED: A configuration record's read-back and Tally entry complete and COMMIT is programmed (R445). -/
  | persistentRecordCommitted (h : BitVec 16) (ok : Bool) (fails : TallyFails)
  /-- COMMIT_COMPLETE: Every block has applied and TXC writes 0x00 (R115). -/
  | commitComplete (h : BitVec 16)
  /-- RUN_MODULE: Admin command that transfers, checks and queues an owner module (R119). -/
  | runModule (p : Pen) (data : Bytes) (fails : TallyFails)
  /-- MODULE_START: A free Shepherd core measures, records and starts a waiting module (R120). -/
  | moduleStart (c : CoreId) (failsLoad failsCounter : TallyFails)
  /-- CROOK_QUERY: Returns the Crook holder and remaining lease (R124). -/
  | crookQuery (p : Pen)
  /-- CROOK_ACQUIRE: Grants a free Crook or reports the holder (R124). -/
  | crookAcquire (p : Pen)
  /-- CROOK_RENEW: Sets the holder's remaining lease (R124). -/
  | crookRenew (p : Pen)
  /-- CROOK_RELEASE: Frees the Crook when requested by the holder (R124). -/
  | crookRelease (p : Pen)
  /-- CROOK_LEASE_EXPIRY: The lease reaches zero and the Crook becomes free (R126). -/
  | crookLeaseExpiry
  /-- UCIE_MODULE_TRAINING: A die-link module is trained or retrained (R16). -/
  | ucieModuleTraining (m : Fin 12) (ok : Bool)
  /-- UCIE_MODULE_FAIL: A module fails in service, sets DEGRADED and is retried (R16). -/
  | ucieModuleFail (m : Fin 12)
  /-- DOORBELL_WRITE: A submission or completion queue doorbell write is processed (R142). -/
  | doorbellWrite (k : Ctrl) (q : BitVec 16) (cq : Bool) (v : W32)
  /-- COMMAND_FETCH: The front end fetches a submission entry into a pen with a fetch number (R143). -/
  | commandFetch (k : Ctrl) (q : BitVec 16) (cdw : List W32) (ranges : Bytes)
  /-- DATA_POINTER_WALK_END: The PRP or SGL walk ends, successfully or with a pointer status (R170). -/
  | dataPointerWalkEnd (p : Pen) (w : WalkData)
  /-- HURDLE_HELD: BLOCKERS reaches 0 after the walk and the command enters Held (R165). -/
  | hurdleHeld (p : Pen)
  /-- HURDLE_LONG_WAIT: A wait exceeds WAIT_EVENT_US and an informational record is posted (R164). -/
  | hurdleLongWait (p : Pen)
  /-- HOST_DATA_ARRIVAL: A write's data is in staging and checked, and its IUs are placed (R151). -/
  | hostDataArrival (p : Pen) (data md : Bytes) (bad : List (BitVec 38))
  /-- HOST_READ_FAILURE: A host read request fails or times out and is retried or stops the transfer (R156). -/
  | hostReadFailure (p : Pen) (timeout : Bool)
  /-- PLACEMENT_WAIT_END: A host write waiting at the floor is placed once free space recovers (R277). -/
  | placementWaitEnd (p : Pen)
  /-- TOMBSTONE_WAIT_END: A deallocate held at TOMB_LIMIT proceeds once records are dropped (R232). -/
  | tombstoneWaitEnd (p : Pen)
  /-- READ_DISPATCH: Looked-up IUs are served from staging, as zeros, or as read work items (R30). -/
  | readDispatch (p : Pen) (iu : BitVec 13)
  /-- RECONSTRUCTION_REQUEST: An uncorrectable IU is rebuilt from its drove or marked (R31). -/
  | reconstructionRequest (p : Pen) (iu : BitVec 13)
  /-- RECONSTRUCTION_COMPLETE: A reconstruction ends with the IU in staging or raddle-marked (R250). -/
  | reconstructionComplete (bad : List (BitVec 38))
  /-- DELETE_IO_SUBMISSION_QUEUE: Deletes an SQ, aborting its Waiting commands (R175). -/
  | deleteIoSubmissionQueue (p : Pen)
  /-- CREATE_IO_SUBMISSION_QUEUE: Creates an I/O submission queue (R137). -/
  | createIoSubmissionQueue (p : Pen)
  /-- DELETE_IO_COMPLETION_QUEUE: Deletes an I/O completion queue (R137). -/
  | deleteIoCompletionQueue (p : Pen)
  /-- CREATE_IO_COMPLETION_QUEUE: Creates a contiguous I/O completion queue (R137). -/
  | createIoCompletionQueue (p : Pen)
  /-- GET_LOG_PAGE: Returns a standard log page (R138). -/
  | getLogPage (p : Pen)
  /-- GET_LOG_RUN_MODULE_RESULT: Returns a held Run Module result by instance (R140). -/
  | getLogRunModuleResult (p : Pen)
  /-- GET_LOG_TALLY: Returns the Tally head or a ring slot (R409). -/
  | getLogTally (p : Pen)
  /-- GET_LOG_EVENT_RECORDS: Returns a source's FIFO and history records (R515). -/
  | getLogEventRecords (p : Pen)
  /-- IDENTIFY: Returns Identify data structures (R137). -/
  | identify (p : Pen)
  /-- ABORT: Aborts a command only if its hurdle is Waiting (R174). -/
  | abort (p : Pen)
  /-- SET_FEATURES: Sets a supported feature (R139). -/
  | setFeatures (p : Pen) (data : Bytes)
  /-- SET_FEATURES_POWER_MANAGEMENT: Sets the controller's requested power state and enters or leaves states (R460). -/
  | setFeaturesPowerManagement (p : Pen)
  /-- SET_FEATURES_NUMBER_OF_QUEUES: Grants I/O queues from the device pool (R141). -/
  | setFeaturesNumberOfQueues (p : Pen)
  /-- GET_FEATURES: Returns a supported feature (R139). -/
  | getFeatures (p : Pen)
  /-- ASYNCHRONOUS_EVENT_REQUEST: Queues an asynchronous event request (R137). -/
  | asynchronousEventRequest (p : Pen)
  /-- NAMESPACE_MANAGEMENT: Creates or deletes a namespace by commit (R215). -/
  | namespaceManagement (p : Pen) (data : Bytes) (fails : TallyFails)
  /-- NAMESPACE_ATTACHMENT: Changes a namespace's attachment set by commit (R136). -/
  | namespaceAttachment (p : Pen) (data : Bytes) (fails : TallyFails)
  /-- FIRMWARE_IMAGE_DOWNLOAD: Writes bytes into the download buffer (R450). -/
  | firmwareImageDownload (p : Pen) (data : Bytes)
  /-- FIRMWARE_COMMIT_REPLACE: CA 000 checks the package and writes images to slots (R450). -/
  | firmwareCommitReplace (p : Pen) (how : StoreEnd) (fails : TallyFails)
  /-- FIRMWARE_COMMIT_REPLACE_ACTIVATE: CA 001 writes images and a pointer record naming the slot (R450). -/
  | firmwareCommitReplaceActivate (p : Pen) (how : StoreEnd) (fails : TallyFails)
  /-- FIRMWARE_COMMIT_ACTIVATE_RESET: CA 010 writes pointer records for passing slots (R450). -/
  | firmwareCommitActivateReset (p : Pen)
  /-- FIRMWARE_COMMIT_ACTIVATE_LIVE: CA 011 live-activates components core by core (R451). -/
  | firmwareCommitActivateLive (p : Pen)
  /-- CORE_ACTIVATION: One core is quiesced, reloaded from its slot and released (R451). -/
  | coreActivation (fails : TallyFails)
  /-- VIRTUALIZATION_MANAGEMENT: Brings a VF online or offline (R137). -/
  | virtualizationManagement (p : Pen)
  /-- NVME_MI_SEND: In-band NVMe-MI send (R501). -/
  | nvmeMiSend (p : Pen)
  /-- NVME_MI_RECEIVE: In-band NVMe-MI receive (R501). -/
  | nvmeMiReceive (p : Pen)
  /-- FORMAT_NVM: Formats namespaces, placing records and possibly adopting IU and drove widths (R214). -/
  | formatNvm (p : Pen) (bad : List (DieId × BitVec 12))
  /-- SANITIZE: Block Erase or Crypto Erase of namespaces (R417). -/
  | sanitize (p : Pen)
  /-- SECURITY_SEND: Carries TCG, SPDM or security protocol data to the device (R422). -/
  | securitySend (p : Pen) (data : Bytes) (fails : TallyFails)
  /-- SECURITY_RECEIVE: Returns TCG, SPDM or security protocol data (R422). -/
  | securityReceive (p : Pen)
  /-- LIFECYCLE_CHALLENGE: Draws a new nonce and returns the challenge (R376). -/
  | lifecycleChallenge (src : LcSource)
  /-- LIFECYCLE_RESULT: Returns the status of the last lifecycle request (R374). -/
  | lifecycleResult (src : LcSource)
  /-- EOTIN_IDENTITY_CHAIN: Returns the Eotin identity certificate chain (R374). -/
  | eotinIdentityChain (p : Pen)
  /-- EOTIN_HSS_CERTIFICATE: Returns the Eotin HSS certificate (R374). -/
  | eotinHssCertificate (p : Pen)
  /-- OWNER_ENDORSEMENT_CHAIN: Returns the owner endorsement chain (R374). -/
  | ownerEndorsementChain (p : Pen)
  /-- ENROL: Request 0x01 enrols the first owner (R377). -/
  | enrol (src : LcSource) (b : Bytes) (storeOk : Bool) (fails : TallyFails)
  /-- TRANSFER: Request 0x02 transfers ownership to new keys (R372). -/
  | transfer (src : LcSource) (b : Bytes) (storeOk : Bool) (fails : TallyFails)
  /-- RELEASE: Request 0x03 releases ownership with crypto erase (R371). -/
  | release (src : LcSource) (b : Bytes) (storeOk : Bool) (fails : TallyFails)
  /-- SET_POLICY: Request 0x04 writes a new owner POLICY (R371). -/
  | setPolicy (src : LcSource) (b : Bytes) (storeOk : Bool) (fails : TallyFails)
  /-- DECOMMISSION: Request 0x05 burns DECOM and destroys keys (R373). -/
  | decommission (src : LcSource) (b : Bytes) (storeOk : Bool) (fails : TallyFails)
  /-- OPEN_DEBUG: Request 0x06 records and opens a debug scope (R380). -/
  | openDebug (src : LcSource) (b : Bytes) (storeOk : Bool) (fails : TallyFails)
  /-- CLOSE_DEBUG: Request 0x07 closes debug (R381). -/
  | closeDebug (src : LcSource) (b : Bytes) (storeOk : Bool) (fails : TallyFails)
  /-- INSTALL_ENDORSEMENT: Request 0x08 installs an owner endorsement chain (R369). -/
  | installEndorsement (src : LcSource) (b : Bytes) (storeOk : Bool) (fails : TallyFails)
  /-- NONCE_EXPIRY: The challenge nonce expires after 300 s (R376). -/
  | nonceExpiry
  /-- PROVISIONING: JTAG provisioning moves a Blank device to Vendor-Provisioned (R371). -/
  | provisioning (serial keys helper chain cert : Bytes) (image : List (Nat × Bytes))
  /-- TAP_ACCESS: A debug TAP access is served or refused as a tamper (R381). -/
  | tapAccess (tap : Fin 4) (b : Bytes) (fails : TallyFails)
  /-- TCG_METHOD: A TCG Opal or Key Per I/O method is executed (R425). -/
  | tcgMethod (p : Pen) (m : TcgMethod)
  /-- FLUSH: Completes when no older overlapping write remains (R167). -/
  | flush (p : Pen)
  /-- WRITE: Writes logical blocks (R28). -/
  | write (p : Pen)
  /-- READ: Reads logical blocks (R166). -/
  | read (p : Pen)
  /-- COMPARE: Compares logical blocks with host data (R172). -/
  | compare (p : Pen)
  /-- WRITE_ZEROES: Writes zeros or deallocates a range (R168). -/
  | writeZeroes (p : Pen) (bad : List (BitVec 38))
  /-- DATASET_MANAGEMENT: Deallocates ranges with tombstone records (R229). -/
  | datasetManagement (p : Pen)
  /-- VERIFY: Reads and checks logical blocks without transfer (R137). -/
  | verify (p : Pen)
  /-- RESERVATION_REGISTER: Registers a reservation key (R171). -/
  | reservationRegister (p : Pen) (b : Bytes)
  /-- RESERVATION_REPORT: Reports reservation status (R137). -/
  | reservationReport (p : Pen)
  /-- RESERVATION_ACQUIRE: Acquires or preempts a reservation (R175). -/
  | reservationAcquire (p : Pen) (b : Bytes)
  /-- RESERVATION_RELEASE: Releases a reservation (R171). -/
  | reservationRelease (p : Pen) (b : Bytes)
  /-- CONTROLLER_ENABLE: CC.EN set; RDY follows after rebuild (R133). -/
  | controllerEnable (k : Ctrl) (cc aqa : W32) (asq acq : Word)
  /-- CONTROLLER_RESET: CC.EN cleared resets the controller's queues, pens and hurdles (R519). -/
  | controllerReset (k : Ctrl)
  /-- SHUTDOWN_NOTIFICATION: CC.SHN completes once pens are released (R519). -/
  | shutdownNotification (k : Ctrl) (shn : BitVec 2)
  /-- NVM_SUBSYSTEM_RESET: NSSR write triggers a warm device reset (R519). -/
  | nvmSubsystemReset (v : W32)
  /-- FUNCTION_LEVEL_RESET: FLR abandons a function's transfers and commands (R157). -/
  | functionLevelReset (k : Ctrl)
  /-- BUS_MASTER_ENABLE_CHANGE: Clearing or setting BME halts or resumes a function's movers (R157). -/
  | busMasterEnableChange (k : Ctrl) (on : Bool)
  /-- D3HOT_ENTRY: A function in D3hot halts its movers (R157). -/
  | d3hotEntry (k : Ctrl)
  /-- PERST_N: PERST_N resets one link's functions and frees the Crook if held there (R519). -/
  | perstN (l : Fin 4) (asserted : Bool)
  /-- LINK_DOWN: A link goes down and its functions' transfers are abandoned (R157). -/
  | linkDown (l : Fin 4)
  /-- LINK_TRAINED: A port trains at a width and rate, setting DEGRADED if reduced (R127). -/
  | linkTrained (l : Fin 4) (rate : BitVec 3) (width : BitVec 5)
  /-- CHANNEL_BRING_UP: A Drover core resets, identifies and trains its channel (R184). -/
  | channelBringUp (ch : Chan) (dies : List DieInfo) (fails : BitVec 5)
  /-- DQS_CHECK: The 100 ms DQS check finds a channel fault and retrains (R212). -/
  | dqsCheck (ch : Chan) (lost : Bool) (fails : BitVec 5)
  /-- ARRAY_OPERATION_START: A die starts its next queued operation (R191). -/
  | arrayOperationStart (die : DieId)
  /-- PROGRAM_DATA_TRANSFERRED: A program's data is in the die and its TAG goes to the release FIFO (R193). -/
  | programDataTransferred (die : DieId)
  /-- DIE_OPERATION_COMPLETE: A die operation ends and posts its completion record (R91). -/
  | dieOperationComplete (die : DieId) (x : DieOutcome)
  /-- PROGRAM_SUSPEND: A suspendable program or erase is suspended for queued reads (R194). -/
  | programSuspend (die : DieId)
  /-- SUSPEND_ACKNOWLEDGED: The die reports the suspended state and reads run (R196). -/
  | suspendAcknowledged (die : DieId)
  /-- SUSPEND_TIMEOUT: No suspended report within 100 µs; the operation continues (R196). -/
  | suspendTimeout (die : DieId)
  /-- PROGRAM_RESUME: The channel resumes a suspended program or erase (R194). -/
  | programResume (die : DieId)
  /-- DIE_BUSY_TIMEOUT: A die operation times out; the die is reset and its queue cancelled (R210). -/
  | dieBusyTimeout (die : DieId)
  /-- CHN_RELEASE_READ: Reading CHN.RELEASE removes the oldest released TAG (R193). -/
  | chnReleaseRead (core : CoreId) (ch : Chan)
  /-- WORK_ITEM: A Drover core consumes a work item and issues its die operation (R209). -/
  | workItem (v : Fin 32)
  /-- RESULT_POST: A Drover core posts a result and the drove engine consumes it (R209). -/
  | resultPost (ticket : W32)
  /-- DROVE_FORM: A stream needing a drove selects members and writes its header (R245). -/
  | droveForm (stream : Fin 64) (use : Fin 3)
  /-- DROVE_HEADER_PROGRAMMED: The header is on flash and the drove opens (R256). -/
  | droveHeaderProgrammed (serial : W32)
  /-- ROW_COMPLETE: A row completes; P, Q and lamb slot are programmed (R251). -/
  | rowComplete (serial : W32)
  /-- SUMMARY_ROWS_PROGRAMMED: Summary rows and parity are on flash and verify starts (R256). -/
  | summaryRowsProgrammed (serial : W32)
  /-- VERIFY_RESULT: Close-time verify passes or fails and the drove closes (R257). -/
  | verifyResult (serial fails : W32)
  /-- MEMBER_PROGRAM_FAIL: A member program fails and the drove narrows (R258). -/
  | memberProgramFail (serial : W32)
  /-- LAMB_BLOCK_ERASE: A lamb block with all slots released is erased after header rewrite (R253). -/
  | lambBlockErase (n : BitVec 12)
  /-- PWRFAIL_ASSERT: PWRFAIL_N asserts and the power-fail sequence begins (R34). -/
  | pwrfailAssert (units : BitVec 8)
  /-- JOURNAL_COPIES_PROGRAMMED: Both journal copies report status and the dump descriptor is programmed (R265). -/
  | journalCopiesProgrammed (failA failB : Bool)
  /-- PWRFAIL_DEASSERT: PWRFAIL_N deasserts during the dump, which completes before a power-on reset (R35). -/
  | pwrfailDeassert
  /-- JOURNAL_REPLAY: The newest unconsumed dump is read, restored and re-placed (R267). -/
  | journalReplay (badA badB : List (BitVec 16)) (bad : List (BitVec 38))
  /-- REPLAY_CONSUMED: Re-placed units succeed and descriptors are marked consumed (R267). -/
  | replayConsumed
  /-- MAP_REBUILD: Shepherd cores rebuild the map from summaries, scans and tombstones (R235). -/
  | mapRebuild (bad : List (BitVec 38)) (ms : W32)
  /-- MAPC_LOOKUP: Looks up a map entry (R352). -/
  | mapcLookup (diu : BitVec 36)
  /-- MAPC_UPDATE: Updates a map entry (R352). -/
  | mapcUpdate (diu : BitVec 36) (entry : BitVec 40)
  /-- MAPC_CONDITIONAL_UPDATE: Updates a map entry only if it still names the source slot (R32). -/
  | mapcConditionalUpdate (diu : BitVec 36) (entry : BitVec 40) (source : BitVec 38)
  /-- MAP_CACHE_FILL_RETURN: Fill data returns and queued requests are served (R355). -/
  | mapCacheFillReturn (line : BitVec 31)
  /-- MAP_CACHE_WRITEBACK_ACCEPTED: An eviction write-back is accepted and the waiting fill is issued (R355). -/
  | mapCacheWritebackAccepted (line : BitVec 31)
  /-- MAPC_ENABLE_CLEAR: Clearing ENABLE starts a flush of the map cache (R357). -/
  | mapcEnableClear
  /-- MAPC_ENABLE_SET: Setting ENABLE while Disabled enables the cache (R357). -/
  | mapcEnableSet
  /-- MAPC_FLUSH_DONE: The last write-back is accepted; STATE Disabled, FLUSHDONE set (R357). -/
  | mapcFlushDone
  /-- CLEAN: Writes back every dirty line and sets CLEANDONE (R358). -/
  | clean
  /-- REPAIR_RELEASE: Frees a repair slot and releases its DIUs (R356). -/
  | repairRelease (slot : Fin 4)
  /-- MAP_REPAIR: A Shepherd core rebuilds marked map entries from media (R330). -/
  | mapRepair (k : Fin 4) (bad : List (BitVec 38))
  /-- GC_CYCLE_START: A group chooses a victim drove and opens its copy list (R280). -/
  | gcCycleStart (grp : Fin 8)
  /-- COPY_BATCH: Copies a batch of valid IUs and tombstones from the victim (R282). -/
  | copyBatch (serial : W32) (bad : List (BitVec 38))
  /-- GC_DESTINATIONS_CLOSED: Every destination drove is Closed and the cycle records the read epoch (R281). -/
  | gcDestinationsClosed (serial : W32)
  /-- READ_EPOCH_ADVANCE: The read epoch advances every EPOCH_US unless held back (R285). -/
  | readEpochAdvance
  /-- READ_EPOCH_DRAINED: The victim's epoch counts reach zero and BEGIN records are written (R285). -/
  | readEpochDrained (serial : W32)
  /-- ERASE_LOG_PAGE_PROGRAM: Pending records are programmed as a log page in both copies (R289). -/
  | eraseLogPageProgram
  /-- ERASE_LOG_PERIOD_EXPIRY: ELOG_PERIOD_US passes since the oldest pending record (R289). -/
  | eraseLogPeriodExpiry
  /-- BLOCK_ERASE: Member blocks are erased after their BEGIN records succeed (R281). -/
  | blockErase (die : DieId) (g : BitVec 12)
  /-- DROVE_RELEASE: END records and erase counts written and the drove header Released (R281). -/
  | droveRelease (serial : W32)
  /-- RETIRE: A RETIRE record takes a block out of use (R293). -/
  | retire (die : DieId) (g : BitVec 12) (bad : List (BitVec 38))
  /-- WEAR_LEVELLING: The wear spread exceeds WEAR_SPREAD and a wear victim is chosen (R291). -/
  | wearLevelling (grp : Fin 8)
  /-- AUTO_DECLARE: The rebuild policy commits a die or channel failure (R301). -/
  | autoDeclare (ch : Chan) (fails : TallyFails)
  /-- DECLARE_RETRY: A declaration waiting for the Crook is retried (R302). -/
  | declareRetry (fails : TallyFails)
  /-- DECLARATION_APPLY: Members on declared dies take MSTATE 0x04 (R303). -/
  | declarationApply (ch : Chan)
  /-- MEMBER_REBUILD_PASS: A failed member is reconstructed onto a spare block (R311). -/
  | memberRebuildPass (serial : W32) (bad : List (BitVec 38)) (fails : W32)
  /-- MEMBER_SWITCH: The header names the spare and map entries are updated (R311). -/
  | memberSwitch (serial : W32)
  /-- EVACUATION: A drove beyond its levels is evacuated into GC droves (R316). -/
  | evacuation (serial : W32) (bad : List (BitVec 38))
  /-- QUIESCE_REQUEST: A Drover core's channels stop qualifying and droves fill or close (R318). -/
  | quiesceRequest (v : Fin 32)
  /-- QUIESCE_CLOSE_TIMEOUT: QUIESCE_CLOSE_MS passes and remaining droves close early (R318). -/
  | quiesceCloseTimeout (v : Fin 32)
  /-- INITIALISATION_FILL: Hardware fills SRAM and DRAM with valid check bits after power-on (R331). -/
  | initialisationFill (pprFails : List (BitVec 8))
  /-- GRAZE_READ: A patrol scrub read of DRAM, SRAM or NAND (R335). -/
  | grazeRead (t : GrazeTarget)
  /-- NAND_GRAZE_LATE: A NAND pass overruns GRAZE_NAND_DAYS (R336). -/
  | nandGrazeLate
  /-- DRAM_REFRESH: A channel issues an all-bank refresh every tREFI (R347). -/
  | dramRefresh (n : Fin 4)
  /-- MR4_POLL: MR4 poll every 32 ms sets the refresh rate (R347). -/
  | mr4Poll (need : Fin 3) (n : Fin 4)
  /-- DRAM_TRAINING: A DRAM channel is trained, stepping down on failure (R348). -/
  | dramTraining (n : Fin 4) (fails : Fin 7) (ppr : BitVec 16)
  /-- ZQ_CALIBRATION: ZQ calibration every 128 ms (R349). -/
  | zqCalibration (n : Fin 4)
  /-- DRIFT_CHECK: Every TRAIN_CHECK_MS the DQS oscillators are read (R349). -/
  | driftCheck (n : Fin 4) (beyond : Bool)
  /-- RETRAIN_START: Writing START begins a channel retrain (R349). -/
  | retrainStart (n : Fin 4)
  /-- TRAIN_DEFER_EXPIRY: Hardware starts a due retrain after TRAIN_DEFER_MS (R349). -/
  | trainDeferExpiry (n : Fin 4)
  /-- DRAM_REQUEST: A port request is accepted and scheduled (R345). -/
  | dramRequest (port : Fin 8) (a : BitVec 48) (lat : BitVec 16) (f : MemFault)
  /-- BOOT_SEQUENCE: The Fold runs boot from ROM to the boot record (R390). -/
  | bootSequence (fails : TallyFails)
  /-- CORE_RELEASE: Shepherd and Drover cores are released after the fill (R390). -/
  | coreRelease
  /-- CONTROLLER_READY: First RDY advances anti-rollback counters (R396). -/
  | controllerReady (fails : TallyFails)
  /-- TALLY_APPEND: The Fold builds, signs, programs and reads back a record (R398). -/
  | tallyAppend (e : Entry) (fails : TallyFails)
  /-- BOTTOM_TREE_BUILD: The next LMS bottom tree is built in the background (R407). -/
  | bottomTreeBuild
  /-- KEY_CLEAR: KEY.CMD clear moves a slot to Clearing (R383). -/
  | keyClear (slot : Fin 16384)
  /-- ZEROIZE: KEY.CMD zeroize clears every slot (R386). -/
  | zeroize
  /-- SLOT_IN_USE_ZERO: A Clearing slot's in-use count reaches 0 and it becomes Empty (R383). -/
  | slotInUseZero (slot : Fin 16384)
  /-- KEY_BUS_REQUEST: An engine cache miss loads a slot over the private key bus (R384). -/
  | keyBusRequest (ch : Chan) (eng : Fin 8) (slot : Fin 16384)
  /-- UNWRAP_GENERATE: Generates a key into a slot and writes its blob (R420). -/
  | unwrapGenerate (off : BitVec 24)
  /-- UNWRAP_LOAD: Checks and unwraps a blob into a slot (R420). -/
  | unwrapLoad (off : BitVec 24)
  /-- UNWRAP_INJECT: Unwraps a host key under a KEK into a slot (R420). -/
  | unwrapInject (off : BitVec 24)
  /-- UNWRAP_LOAD_KEK: Loads a KEK from staging into a KEK slot (R420). -/
  | unwrapLoadKek (off : BitVec 24)
  /-- UNWRAP_COMPLETE: An unwrap operation ends with its status (R421). -/
  | unwrapComplete
  /-- GENERATION_RELEASE: A retired generation with no blocks is released (R418). -/
  | generationRelease (n : BitVec 11) (j : Fin 4)
  /-- DRBG_RESEED: The Fold DRBG reseeds every 1 s or 2^20 requests (R387). -/
  | drbgReseed
  /-- HEALTH_TEST_FAIL: An entropy health test fails and output stops (R388). -/
  | healthTestFail (rct : Bool)
  /-- ENTROPY_RECOVERY_TIMEOUT: No recovery within 100 ms raises an entropy tamper (R388). -/
  | entropyRecoveryTimeout
  /-- DIE_DRBG_RESEED: A channel-die DRBG reseeds or retries (R413). -/
  | dieDrbgReseed (k : Fin 4) (katOk : Bool)
  /-- DIE_DRBG_STARVED: No reseed for 60 s halts new data units (R413). -/
  | dieDrbgStarved (k : Fin 4)
  /-- TAMPER_EVENT: A tamper source trips and its response runs (R389). -/
  | tamperEvent (b : Fin 8) (fails : TallyFails)
  /-- DIG_ALLOC: Reading DIG.ALLOC allocates a digest slot or sets BUSY (R427). -/
  | digAlloc (core : CoreId)
  /-- DIG_START: CTL.START opens a digest context (R428). -/
  | digStart (core : CoreId) (slot : Fin 64) (ctl : BitVec 20)
  /-- DIG_RELEASE: CTL.RELEASE frees and zeroes a slot (R427). -/
  | digRelease (core : CoreId) (slot : Fin 64)
  /-- DIG_DATA_PUSH: Writing DATAHI pushes a message word (R428). -/
  | digDataPush (core : CoreId) (slot : Fin 64) (lo hi : W32)
  /-- DIG_LAST: Writing LASTHI ends the message (R428). -/
  | digLast (core : CoreId) (slot : Fin 64) (count : BitVec 4) (lo hi : W32)
  /-- DIG_FINISH: The last block is processed and the slot becomes Done (R432). -/
  | digFinish (slot : Fin 64)
  /-- DIG_RESULT_READ: Reading RESULT returns the digest or moves the slot to Error (R429). -/
  | digResultRead (core : CoreId) (slot : Fin 64) (n : Fin 16)
  /-- DIG_COMPARE: CMP.START compares the result with EXPECT (R430). -/
  | digCompare (core : CoreId) (slot : Fin 64) (fails : TallyFails)
  /-- ECDSA_VERIFY: PKA op 0x01 verifies an ECDSA signature (R431). -/
  | ecdsaVerify (off : BitVec 24)
  /-- ECDSA_SIGN: PKA op 0x02 signs a digest (R431). -/
  | ecdsaSign (off : BitVec 24)
  /-- HSS_VERIFY: PKA op 0x03 verifies an HSS signature (R431). -/
  | hssVerify (off : BitVec 24)
  /-- LMOTS_SIGN: PKA op 0x04 makes an LM-OTS signature (R431). -/
  | lmotsSign (off : BitVec 24)
  /-- LMS_LEAF: PKA op 0x05 computes an LMS leaf value (R431). -/
  | lmsLeaf (off : BitVec 24)
  /-- ECDSA_PUBLIC_KEY: PKA op 0x06 derives a public key (R431). -/
  | ecdsaPublicKey (off : BitVec 24)
  /-- PKA_COMPLETE: A public-key operation ends with its result (R431). -/
  | pkaComplete (ec : Bool)
  /-- ILU_KEY_WRITE: Unlock key write to an Iluell port, breaking sequences on error (R437). -/
  | iluKeyWrite (p : Fin 3) (core : Fin 41) (v : W32)
  /-- ILU_PROGRAM: Programs store units from a source (R438). -/
  | iluProgram (p : Fin 3) (core : Fin 41) (units : BitVec 8) (addr : BitVec 27) (data : W32)
  /-- ILU_ERASE: Erases a store sector (R438). -/
  | iluErase (p : Fin 3) (core : Fin 41) (addr : BitVec 27) (data : W32)
  /-- ILU_SUSPEND: Suspends the port's running erase (R441). -/
  | iluSuspend (p : Fin 3) (core : Fin 41) (addr : BitVec 27) (data : W32)
  /-- ILU_RESUME: Resumes the port's suspended erase (R441). -/
  | iluResume (p : Fin 3) (core : Fin 41) (addr : BitVec 27) (data : W32)
  /-- ILU_FLAG_PROGRAM: Programs a flag word to zero (R440). -/
  | iluFlagProgram (p : Fin 3) (core : Fin 41) (addr : BitVec 27) (data : W32)
  /-- ILU_COMMAND_COMPLETE: An Iluell program or erase ends with its status (R438). -/
  | iluCommandComplete (ok : Bool)
  /-- ILU_AUTO_SUSPEND: A running erase is suspended for a waiting program after ERASE_MIN_RUN_US (R441). -/
  | iluAutoSuspend
  /-- WEAR_WINDOW_MOVE: Every ROTATE_ERASES erases the gap moves one step (R444). -/
  | wearWindowMove
  /-- SECTOR_REERASE: An Erase-Interrupted managed sector is re-erased at low priority (R435). -/
  | sectorReerase (ok : Bool)
  /-- POWER_STATE_ENTRY: The sequencer steps paddocks into a target power state (R462). -/
  | powerStateEntry
  /-- ENTRY_SUSPEND: An I/O fetch suspends entry and returns paddocks On (R464). -/
  | entrySuspend
  /-- ENTRY_RESUME: Entry resumes when no pen holds an I/O command (R464). -/
  | entryResume
  /-- POWER_STATE_EXIT: Paddocks return On in reverse order and e11 is asserted (R464). -/
  | powerStateExit
  /-- PADDOCK_ACCESS_WAKE: An access to a paddock not On returns it to On (R457). -/
  | paddockAccessWake (p : Paddock)
  /-- APST_TRANSITION: An autonomous power state transition after idle time (R460). -/
  | apstTransition (k : Ctrl)
  /-- NOPPME_WORK: Due rebuild or graze runs up to 100 ms in a non-operational state (R461). -/
  | noppmeWork (start : Bool)
  /-- L12_EXIT: CLKREQ# assertion wakes the device from PS2 to PS4 (R466). -/
  | l12Exit (l : Fin 4)
  /-- WAKE_PATTERN: A lane-0 wake pattern wakes the device (R466). -/
  | wakePattern (port : Fin 2) (us : List (BitVec 12))
  /-- MANAGEMENT_WAKE: A Walk or I3C address match wakes the management path (R466). -/
  | managementWake (i3c : Bool)
  /-- STANDBY: Vendor command 0xC0 enters Standby (R502). -/
  | standby
  /-- STANDBY_EXIT: A wake in Standby performs a power-on reset (R467). -/
  | standbyExit
  /-- ROOT_SELECT: CLK.SWITCH op 0x1 switches the root PLL (R473). -/
  | rootSelect (t : BitVec 2)
  /-- PLL_REFERENCE: CLK.SWITCH op 0x2 changes a standby PLL's reference (R473). -/
  | pllReference (t r : BitVec 2)
  /-- AON_SELECT: CLK.SWITCH op 0x3 switches paddock 0's clock (R473). -/
  | aonSelect (t : BitVec 2)
  /-- SOURCE_ENABLE: CLK.SWITCH op 0x4 enables a clock source (R473). -/
  | sourceEnable (t : BitVec 2)
  /-- SOURCE_DISABLE: CLK.SWITCH op 0x5 disables a clock source (R473). -/
  | sourceDisable (t : BitVec 2)
  /-- PLL_LOCK: A PLL locks to its reference and becomes ready (R473). -/
  | pllLock (p : Fin 2)
  /-- CLOCK_POWER_ON_SEQUENCE: Paddock 0 starts oscillators and locks PLLs before reset release (R471). -/
  | clockPowerOnSequence (x0 x1 : Bool)
  /-- REFERENCE_LOSS: The monitor finds the root reference lost and falls back to FIO (R476). -/
  | referenceLoss
  /-- FIO_READY: FIO becomes ready during a hold and the fallback completes (R477). -/
  | fioReady
  /-- FIO_CHECK: FIO is compared against SIO every 1 ms (R475). -/
  | fioCheck (bad : Bool)
  /-- GATE: CLK.GATE gate request starts draining a block (R479). -/
  | gate (n : BitVec 9)
  /-- UNGATE: CLK.GATE ungate request wakes a gated block (R479). -/
  | ungate (n : BitVec 9)
  /-- AUTOGATE_EXPIRY: A block idle for AUTOGATE_US is gated (R480). -/
  | autogateExpiry (n : Fin 266)
  /-- GATE_ACKNOWLEDGE: A draining block acknowledges and its clock stops (R479). -/
  | gateAcknowledge (n : Fin 266)
  /-- GATE_TIMEOUT: No acknowledgement within 10 µs; the gate is not applied (R479). -/
  | gateTimeout (n : Fin 266)
  /-- GATED_TRANSACTION: A transaction to a gated block restarts its clock (R479). -/
  | gatedTransaction (n : Fin 266)
  /-- WAKING_END: 20 ns after waking the port reopens (R479). -/
  | wakingEnd (n : Fin 266)
  /-- TEMPERATURE_SAMPLE: A die sensor sample is taken and filtered (R481). -/
  | temperatureSample (sn : Fin 7) (v : BitVec 16)
  /-- SENSOR_SELF_CHECK: The 100 ms converter self-check may ignore a sensor (R482). -/
  | sensorSelfCheck (sn : Fin 7) (ok : Bool)
  /-- NAND_TEMPERATURE_READ: The calibration policy reads die temperatures and limits hot channels (R483). -/
  | nandTemperatureRead (die : DieId) (v : BitVec 8)
  /-- TRIM_LOAD: THM.TRIMCTL.LOAD applies the trim window at the next sample (R484). -/
  | trimLoad
  /-- THERMAL_EVALUATION: Every 10 ms the throttle level is set from the composite (R485). -/
  | thermalEvaluation
  /-- THERMAL_TRIP: 125 °C in 3 samples runs the power-fail sequence and holds Off (R487). -/
  | thermalTrip (units : BitVec 8)
  /-- THERMAL_TRIP_COOLDOWN: Sensors below 95 °C for 1 s cause a power-on reset (R487). -/
  | thermalTripCooldown
  /-- WALK_FRAME_RECEIVE: A frame is received, checked and captured or discarded (R491). -/
  | walkFrameReceive (cs : List (BitVec 10)) (broken : Bool)
  /-- WALK_FRAME_REMOVE: A frame addressed to or from the station is cut with ABORT (R493). -/
  | walkFrameRemove (cs : List (BitVec 10)) (broken : Bool)
  /-- WALK_TRANSMIT: The station sends a frame of its own (R494). -/
  | walkTransmit (arriving : BitVec 7)
  /-- RING_CHECK_PROBE: A probe is sent every RINGCHECK_MS (R497). -/
  | ringCheckProbe
  /-- PROBE_TIMEOUT: No probe returns within 5 ms and RINGFAIL is set (R497). -/
  | probeTimeout
  /-- PASS_SWITCH_CHANGE: The pass switch closes or opens the ring bypass (R496). -/
  | passSwitchChange (opens : Bool)
  /-- MCTP_PACKET: An MCTP packet is reassembled into a message (R498). -/
  | mctpPacket (x : MctpIn)
  /-- SET_ENDPOINT_ID: MCTP control message assigning the endpoint ID (R498). -/
  | setEndpointId
  /-- GET_ENDPOINT_ID: MCTP control message returning the endpoint ID (R498). -/
  | getEndpointId
  /-- GET_ENDPOINT_UUID: MCTP control message returning the UUID (R498). -/
  | getEndpointUuid
  /-- GET_MCTP_VERSION_SUPPORT: MCTP control message returning versions (R498). -/
  | getMctpVersionSupport
  /-- GET_MESSAGE_TYPE_SUPPORT: MCTP control message returning message types (R498). -/
  | getMessageTypeSupport
  /-- I3C_ADDRESS_ASSIGNMENT: SETDASA or ENTDAA moves the target to I3C mode (R499). -/
  | i3cAddressAssignment (a : BitVec 7)
  /-- RSTDAA: RSTDAA or bus reset returns the target to SMBus mode (R499). -/
  | rstdaa
  /-- READ_NVME_MI_DATA_STRUCTURE: NVMe-MI data structure read (R501). -/
  | readNvmeMiDataStructure
  /-- HEALTH_STATUS_POLL: NVMe-MI subsystem and controller health status poll (R501). -/
  | healthStatusPoll
  /-- CONFIGURATION_GET: NVMe-MI Configuration Get (R501). -/
  | configurationGet
  /-- CONFIGURATION_SET: NVMe-MI Configuration Set, out-of-band only (R501). -/
  | configurationSet
  /-- VPD_READ: NVMe-MI VPD Read (R501). -/
  | vpdRead
  /-- TUNNELLED_ADMIN: Tunnelled Identify, Get Features or Get Log Page (R501). -/
  | tunnelledAdmin
  /-- READ_DEVICE_STATE: Vendor 0xC1 returns 20 bytes of device state (R503). -/
  | readDeviceState
  /-- GET_VERSION: SPDM GET_VERSION (R410). -/
  | getVersion (v : Via) (m : Bytes)
  /-- GET_CAPABILITIES: SPDM GET_CAPABILITIES (R410). -/
  | getCapabilities (v : Via) (m : Bytes)
  /-- NEGOTIATE_ALGORITHMS: SPDM NEGOTIATE_ALGORITHMS (R410). -/
  | negotiateAlgorithms (v : Via) (m : Bytes)
  /-- GET_DIGESTS: SPDM GET_DIGESTS (R410). -/
  | getDigests (v : Via) (m : Bytes)
  /-- GET_CERTIFICATE: SPDM GET_CERTIFICATE (R410). -/
  | getCertificate (v : Via) (m : Bytes)
  /-- CHALLENGE: SPDM CHALLENGE answered by Alias 2 (R410). -/
  | challenge (v : Via) (m : Bytes)
  /-- GET_MEASUREMENTS: SPDM GET_MEASUREMENTS of Tally blocks (R410). -/
  | getMeasurements (v : Via) (m : Bytes)
  /-- CHUNK_GET: SPDM CHUNK_GET (R410). -/
  | chunkGet (v : Via) (m : Bytes)
  /-- CHUNK_SEND: SPDM CHUNK_SEND (R410). -/
  | chunkSend (v : Via) (m : Bytes)
  /-- TAKE: EVT.CTL.TAKE copies the FIFO head and sets HANDLING (R510). -/
  | take (core : CoreId) (src : BitVec 9)
  /-- DONE: EVT.CTL.DONE moves the head to history and clears HANDLING (R510). -/
  | done (core : CoreId) (src : BitVec 9)
  /-- DECLARE: EVT.FATAL.DECLARE enters device fatal (R513). -/
  | declare (core : CoreId)
  /-- CLASS3_NOT_TAKEN: A class 3 record untaken for 1,000 ms enters device fatal (R513). -/
  | class3NotTaken (src : BitVec 9)
  /-- PET: Writing 0xC011 to PET restarts the Collie period (R516). -/
  | pet (v : BitVec 16)
  /-- COLLIE_PRE_EXPIRY: Three quarters of the period passes and e12 is asserted (R516). -/
  | colliePreExpiry
  /-- COLLIE_EXPIRY: The Collie expires and the warm-reset sequence begins (R517). -/
  | collieExpiry
  /-- ILU_BOUNDARY_REPORT: The Iluell controller reports its operation boundary, ending the hold (R443). -/
  | iluBoundaryReport
  /-- RESET_HOLD_TIMEOUT: The hold ends at 400 ms without a boundary report (R517). -/
  | resetHoldTimeout
  /-- WARM_RESET: Keeps staging and DRAM, reboots and replays the journal in place (R520). -/
  | warmReset
  /-- FOLD_INITIATED_RESET: Resets all but paddock 0 after dumping the journal (R519). -/
  | foldInitiatedReset (failA failB : Bool)
  /-- FOLD_DOUBLE_TRAP: A Fold double trap triggers a Fold-initiated reset (R511). -/
  | foldDoubleTrap
  /-- POWER_ON_RESET: Resets everything; power-on boot follows (R519). -/
  | powerOnReset
  /-- PWROK_RISE: PWROK rises, straps are sampled and the clock sequence starts (R529). -/
  | pwrokRise (bifur : BitVec 2) (dramCfg : BitVec 3) (walkAddr : BitVec 8) (mgmtAddr : BitVec 2)
  /-- RAIL_FAULT: A rail out of tolerance or PWROK falling acts as PWRFAIL_N (R530). -/
  | railFault (pwrokFalls : Bool) (units : BitVec 8)
  /-- READ_CLEAR_COUNTER: A read of an RC field returns and clears it (R5). -/
  | readClearCounter (core : CoreId) (a : BitVec 48)
  /-- REGISTER_WRITE: A write to a register without a row of its own, W1C included (R5). -/
  | registerWrite (core : CoreId) (a : BitVec 48) (v : W32)
  /-- L12_ENTRY: A port's link enters L1.2 and, in PS2 to PS4, its port paddock enters Retention (R458). -/
  | l12Entry (l : Fin 4)
  /-- D3HOT_EXIT: A function leaves D3hot for D0, its movers may resume and it again takes part in the device power state (R157). -/
  | d3hotExit (k : Ctrl)
  /-- BASIC_MANAGEMENT_COMMAND: In SMBus mode the target answers the NVMe-MI Basic Management Command at address 0x6A (R499). -/
  | basicManagementCommand (code : BitVec 8)
  /-- CRYSTAL_READY: A started crystal reaches ready after its start time and sets XTALn_RDY, making it a valid switch target (R473). -/
  | crystalReady (x : Fin 2)
  /-- HEALTH_TEST_RECOVERY: After a health-test failure the entropy source passes both tests again within 100 ms, the DRBG is reseeded and output resumes (R388). -/
  | healthTestRecovery
  /-- MALFORMED_TLP: A malformed, poisoned or out-of-BAR0 TLP is handled as the PCIe specification defines, with no NVMe state change (R130). -/
  | malformedTlp (k : Ctrl) (outside : Bool)
  /-- INTERRUPT_COALESCING_TIME: The Interrupt Coalescing aggregation time, in 100 µs units, expires and the held interrupt is sent (R139). -/
  | interruptCoalescingTime (k : Ctrl) (q : BitVec 16)
  deriving DecidableEq, Repr

end Sys2Proof
end

