-- ==== Sys2Proof/Decode.lean ====
section
/-! DEFINITION. The opcode table gives no row bits, so no word of bits spells a command: commands reach the block as operands of their own
(a register write, a bus frame, an event), and a Bexob instruction's word comes with its command. -/

namespace Sys2Proof

/-- The command that a word spells by the table's bits: none, for every word, since no row has bits. -/
def decodeTableWord (_nbits _w : Nat) : Option Instr := none

end Sys2Proof
end

