-- ==== Sys2Proof/Config.lean ====
section
/-! DEFINITION. What the model leaves open: opaque functions for the cryptographic primitives and the free values that the manual does
not state. None has a body a proof could use. -/

namespace Sys2Proof.Config

/-- A byte the manual leaves undefined, applied to the counter of free values. -/
opaque freeByte : Nat → Nat → Byte
/-- A number the manual leaves undefined, applied to the counter of free values. -/
opaque freeNat : Nat → Nat
/-- A choice the manual leaves open, applied to the counter of free values. -/
opaque freeBool : Nat → Bool
/-- Bytes drawn from the Fold DRBG (R387), applied to the counter of free values and a position. -/
opaque drbgByte : Nat → Nat → Byte

/-- Message digests by DIG.CTL.ALG (Table 16-11): algorithm, output bytes asked for, message. -/
opaque digest : Nat → Nat → Bytes → Bytes
/-- HMAC by algorithm: key, message. -/
opaque hmac : Nat → Bytes → Bytes → Bytes
/-- The key derivation of R365: key, label, length. -/
opaque kdf : Bytes → Bytes → Nat → Bytes
/-- AES-KW wrap (SP 800-38F): key and plain bytes. -/
opaque aesKwWrap : Bytes → Bytes → Bytes
/-- AES-KW unwrap: the plain bytes, or none when the integrity value fails. -/
opaque aesKwUnwrap : Bytes → Bytes → Option Bytes
/-- ECDSA P-384 signature of a digest under a private key; the last argument is the per-signature value's counter. -/
opaque ecdsaSign : Bytes → Bytes → Nat → Bytes
/-- ECDSA P-384 verification: public key, digest, signature. -/
opaque ecdsaVerify : Bytes → Bytes → Bytes → Bool
/-- The public key is a point on P-384. -/
opaque ecdsaPointOk : Bytes → Bool
/-- ECDSA public key of a private key. -/
opaque ecdsaPublic : Bytes → Bytes
/-- HSS signature at a leaf. -/
opaque hssSign : Bytes → Nat → Bytes → Bytes
/-- HSS verification: public key, message, signature. -/
opaque hssVerify : Bytes → Bytes → Bytes → Bool
/-- LM-OTS signature: seed, I, q, message (PKA op 0x04). -/
opaque lmotsSign : Bytes → Bytes → Bytes
/-- LMS leaf value (PKA op 0x05). -/
opaque lmsLeaf : Bytes → Bytes
/-- A module's or request's signature set verifies under the keys its key IDs name: key ID pair, signed bytes, signature bytes. -/
opaque setEcdsaOk : Bytes → Bytes → Bytes → Bool
/-- The same for the HSS signature of the set. -/
opaque setHssOk : Bytes → Bytes → Bytes → Bool
/-- DER encoding of an alias certificate (R367): subject key, issuer key, layer measurement, SECVER. -/
opaque aliasCert : Bytes → Bytes → Bytes → Nat → Bytes
/-- What a ciphertext read with a wrong key or tweak decrypts to: key, tweak, position, true byte (R203). -/
opaque wrongKeyByte : Nat → Nat → Nat → Byte → Byte
/-- The endpoint UUID (R498), by byte. -/
opaque mctpUuid : Nat → Byte
/-- The MCTP version bytes reported for a message type (R498). -/
opaque mctpVersion : Nat → Nat → Byte
/-- Vital product data and its length (R501 gives neither). -/
opaque vpdByte : Nat → Byte
opaque vpdSize : Nat
/-- The PSID printed on the device, and the PIN an authority has before one is set (R423 gives neither). -/
opaque psid : Bytes
opaque defaultPin : Bytes
/-- Address of the exit stub in the V half of a Shepherd scratch (R58 gives none). -/
opaque exitStub : BitVec 64
/-- Entries of the Fold request ring beyond its first (R103 gives no number). -/
opaque measMore : Nat
/-- Entries of the Fold request ring: at least one. -/
def measRing : Nat := measMore + 1
/-- The PUF response of this part (R364). -/
opaque pufKey : Bytes

end Sys2Proof.Config
end

