-- ==== Sys2Proof/Machine/Bits.lean ====
section
/-! DEFINITION. Byte order and bit-field helpers (R7, R74, R543): little-endian integers of a byte list, and fields of words. -/

namespace Sys2Proof.Machine

/-- The unsigned value of bits [hi:lo] of a number (R7: bit 0 the least significant). -/
def bitsOf (v hi lo : Nat) : Nat := (v >>> lo) % 2 ^ (hi + 1 - lo)

/-- Bit i of a number. -/
def bitOf (v i : Nat) : Bool := (v >>> i) % 2 == 1

/-- `v` with bits [hi:lo] replaced by `x`. -/
def setBits (v hi lo x : Nat) : Nat :=
  v - (bitsOf v hi lo) * 2 ^ lo + (x % 2 ^ (hi + 1 - lo)) * 2 ^ lo

/-- 1 for true, 0 for false. -/
def bit (b : Bool) : Nat := if b then 1 else 0

/-- The little-endian bytes of a number, `n` of them (R543). -/
def leBytes : Nat → Nat → Bytes
  | 0, _ => []
  | n + 1, v => BitVec.ofNat 8 v :: leBytes n (v / 256)

/-- The number whose little-endian bytes are given (R543). -/
def ofLe : Bytes → Nat
  | [] => 0
  | b :: bs => b.toNat + 256 * ofLe bs

/-- The big-endian bytes of a number, `n` of them (R543's named exceptions). -/
def beBytes (n v : Nat) : Bytes := (leBytes n v).reverse

/-- The little-endian integer of `n` bytes at offset `off` of a byte list; bytes beyond the end count as zero. -/
def leAt (bs : Bytes) (off n : Nat) : Nat := ofLe ((bs.drop off).take n)

/-- The `n` bytes at offset `off` of a byte list. -/
def sliceOf (bs : Bytes) (off n : Nat) : Bytes := (bs.drop off).take n

/-- All bytes of the list are zero. -/
def allZero (bs : Bytes) : Bool := bs.all (· == 0)

/-- `n` zero bytes. -/
def zeros (n : Nat) : Bytes := List.replicate n 0

/-- A byte list cut or zero-padded to exactly `n` bytes. -/
def padTo (n : Nat) (bs : Bytes) : Bytes := bs.take n ++ zeros (n - bs.length)

/-- `v` rounded up to a multiple of `m` (m > 0). -/
def roundUp (v m : Nat) : Nat := (v + m - 1) / m * m

/-- imm41 sign-extended to 64 bits (R74). -/
def sext41 (i : BitVec 41) : Word := i.signExtend 64

/-- imm41 zero-extended to 64 bits (R74). -/
def zext41 (i : BitVec 41) : Word := i.zeroExtend 64

/-- The larger of two numbers in the order of now and a deadline. -/
def laterOf (a b : Nat) : Nat := if a < b then b else a

/-- A list with one element appended at the end unless the list already holds it. -/
def addOnce {α : Type} [DecidableEq α] (x : α) (l : List α) : List α :=
  if l.contains x then l else l ++ [x]

/-- A list with every copy of an element removed. -/
def dropAll {α : Type} [DecidableEq α] (x : α) (l : List α) : List α := l.filter (· != x)

/-- Inserts an element into a list sorted by `f`. -/
def insertOn {α : Type} (f : α → Nat) (x : α) : List α → List α
  | [] => [x]
  | y :: t => if f x ≤ f y then x :: y :: t else y :: insertOn f x t

/-- A list sorted by `f`, equal elements in their order. -/
def sortOn {α : Type} (f : α → Nat) (l : List α) : List α := l.foldr (insertOn f) []

/-- The number of bits of `v` below bit `n` that are 1. -/
def countOnes : Nat → Nat → Nat
  | 0, _ => 0
  | n + 1, v => v % 2 + countOnes n (v / 2)

end Sys2Proof.Machine
end

