-- ==== Sys2Proof/Machine/Crc.lean ====
section
/-! DEFINITION. The check codes the manual names: CRC-32C (R222, R445 and others) and the CRC-16 of Walk frames (Table 20-2). -/

namespace Sys2Proof.Machine

/-- One bit of a reflected CRC with polynomial `poly`. -/
def crcBitR (poly c : Nat) : Nat := if c % 2 = 1 then (c / 2) ^^^ poly else c / 2

/-- `n` bits of a reflected CRC. -/
def crcBitsR (poly : Nat) : Nat → Nat → Nat
  | 0, c => c
  | n + 1, c => crcBitsR poly n (crcBitR poly c)

/-- CRC-32C of a byte list (PRESUMED: the published Castagnoli code, initial value and final inversion all ones). -/
def crc32c (b : Bytes) : Nat :=
  (b.foldl (fun c x => crcBitsR 0x82F63B78 8 (c ^^^ x.toNat)) 0xFFFFFFFF) ^^^ 0xFFFFFFFF

/-- `n` bits of the 16-bit CRC with polynomial 0x1021, most significant bit first. -/
def crc16Bits : Nat → Nat → Nat
  | 0, c => c
  | n + 1, c => crc16Bits n (if 0x8000 ≤ c then ((c * 2) % 0x10000) ^^^ 0x1021 else (c * 2) % 0x10000)

/-- CRC-16, polynomial 0x1021, initial value 0xFFFF (Table 20-2). -/
def crc16 (b : Bytes) : Nat := b.foldl (fun c x => crc16Bits 8 (c ^^^ (x.toNat * 256))) 0xFFFF

end Sys2Proof.Machine
end

