-- ==== Sys2Proof/Machine/Fields.lean ====
section
/-! DEFINITION. The configuration fields: width, access, class, reset value and limits of every configuration ID
(R106, R107; Tables 5-11, 6-12, 7-17, 8-17, 9-9, 10-13, 10-14, 11-7, 12-14, 13-19, 17-20, 18-11, 19-16, 20-7, 21-16). -/

namespace Sys2Proof.Machine

/-- Field classes (R5, R109 to R111): live, quiescent, or read-only. -/
inductive FClass where
  | lv | qs | ro
  deriving DecidableEq, Repr

/-- One configuration field. -/
structure FieldInfo where
  width : Nat
  cls : FClass
  ps : Bool
  reset : Nat
  lo : Nat
  hi : Nat
  deriving DecidableEq, Repr

/-- A live field. -/
def fLv (width reset lo hi : Nat) : Option FieldInfo := some ⟨width, .lv, false, reset, lo, hi⟩
/-- A live persistent field. -/
def fLvPs (width reset lo hi : Nat) : Option FieldInfo := some ⟨width, .lv, true, reset, lo, hi⟩
/-- A quiescent persistent field. -/
def fQsPs (width reset lo hi : Nat) : Option FieldInfo := some ⟨width, .qs, true, reset, lo, hi⟩
/-- A read-only field. -/
def fRo (width reset : Nat) : Option FieldInfo := some ⟨width, .ro, false, reset, 0, 2 ^ width - 1⟩

/-- All ones in 64 bits. -/
def ones64 : Nat := 2 ^ 64 - 1

/-- Channel fields (Table 7-17). -/
def chanField (f : Nat) : Option FieldInfo :=
  match f with
  | 0x1 => fQsPs 4 9 3 9
  | 0x2 => fQsPs 1 1 0 1
  | 0x3 => fLvPs 32 0 0 0xFFFFFFFF
  | 0x4 => fLv 4 15 0 15
  | 0x5 => fLv 4 4 1 15
  | 0x6 => fLv 8 64 1 255
  | 0x7 => fLv 16 200 50 10000
  | 0x8 => fLv 16 1000 100 20000
  | 0x9 => fLv 6 4 0 63
  | 0xA => fLv 6 16 0 63
  | 0xB => fLv 7 8 1 64
  | 0xC => fLv 16 1000 200 10000
  | 0xD => fLv 16 5000 1000 50000
  | 0xE => fLv 32 25000 10000 200000
  | 0xF => fLv 4 3 1 15
  | _ => none

/-- Namespace fields (Tables 5-11 and 8-17). -/
def nsField (f : Nat) : Option FieldInfo :=
  match f with
  | 0x1 => fLvPs 64 0 0 ones64
  | 0x2 => fLvPs 64 0 0 ones64
  | 0x10 => fRo 36 0
  | 0x11 => fRo 36 0
  | _ => none

/-- Controller fields (Table 5-11); `pf` marks a physical function (R147). -/
def ctrlField (pf : Bool) (f : Nat) : Option FieldInfo :=
  match f with
  | 0x1 => fLvPs 15 16320 1 16320
  | 0x2 => fLvPs 15 0 0 16320
  | 0x3 => if pf then fLvPs 10 512 0 512 else fLvPs 10 64 0 64
  | _ => none

/-- Drove fields (Table 9-9, and ELOG_PERIOD_US of Table 10-13). -/
def droveField (f : Nat) : Option FieldInfo :=
  match f with
  | 0x1 => fLvPs 1 1 0 1
  | 0x2 => fRo 1 1
  | 0x3 => fLvPs 5 30 8 30
  | 0x4 => fRo 5 30
  | 0x5 => fQsPs 16 384 256 4096
  | 0x6 => fLv 4 2 0 15
  | 0x7 => fLv 4 2 0 15
  | 0x10 => fQsPs 64 0x000000FF000000FF 0 ones64
  | 0x11 => fQsPs 64 0 0 ones64
  | 0x12 => fQsPs 64 0 0 ones64
  | 0x13 => fQsPs 64 0x000000FF000000FF 0 ones64
  | 0x30 => fLv 32 20000 1000 200000
  | _ =>
    if 0x20 ≤ f ∧ f ≤ 0x2F then fQsPs 64 (if f < 0x22 then ones64 else 0) 0 ones64 else none

/-- DRAM fields (Table 13-19); the latency targets take the defaults of Table 13-3. -/
def dramField (f : Nat) : Option FieldInfo :=
  match f with
  | 0x1 => fLvPs 2 0 0 3
  | 0x2 => fRo 2 0
  | 0x10 => fLv 16 300 100 65000
  | 0x11 => fLv 16 1000 100 65000
  | 0x12 => fLv 16 500 100 65000
  | 0x13 => fLv 16 1000 100 65000
  | 0x14 => fLv 16 2000 100 65000
  | 0x15 => fLv 16 2000 100 65000
  | 0x16 => fLv 16 20000 100 65000
  | 0x17 => fLv 16 10000 100 65000
  | 0x20 => fLv 6 48 16 63
  | 0x21 => fLv 10 16 1 1000
  | 0x22 => fLv 14 100 1 10000
  | _ => none

/-- Garbage-collection fields (Table 10-13). -/
def gcField (f : Nat) : Option FieldInfo :=
  match f with
  | 0x10 => fLvPs 10 50 10 500
  | 0x11 => fLvPs 10 20 5 500
  | 0x12 => fLvPs 10 10 2 500
  | 0x13 => fLv 10 900 100 990
  | 0x14 => fLv 16 100 1 60000
  | 0x15 => fLvPs 10 70 40 1000
  | 0x16 => fLvPs 7 10 1 99
  | 0x40 => fLv 9 0 0 500
  | 0x51 => fQsPs 6 4 0 32
  | 0x52 => fLv 16 1000 100 50000
  | _ => none

/-- Rebuild policy fields (Table 11-7). -/
def rebuildField (f : Nat) : Option FieldInfo :=
  match f with
  | 0x1 => fLvPs 1 1 0 1
  | 0x2 => fLvPs 8 16 1 255
  | 0x20 => fLv 16 200 10 4000
  | 0x21 => fLv 3 1 1 4
  | 0x22 => fLv 4 2 1 8
  | 0x30 => fLv 16 2000 100 60000
  | _ =>
    if 0x10 ≤ f ∧ f ≤ 0x17 then fLvPs 1 1 0 1
    else if 0x100 ≤ f ∧ f ≤ 0x17F then fLvPs 32 0 0 0xFFFFFFFF
    else none

/-- Fields of the blocks below 0x100. -/
def lowField (blk f : Nat) : Option FieldInfo :=
  match blk with
  | 0x003 => if f = 1 then fLv 32 10000 100 10000000 else none
  | 0x006 =>
    if f = 1 ∨ f = 2 then fLv 32 50000 1000 1000000
    else if f = 3 then fLv 3 2 0 7 else none
  | 0x007 => droveField f
  | 0x008 =>
    if f = 1 then fLv 1 1 0 1
    else if f = 0x10 then fLvPs 1 0 0 1
    else if f = 0x11 then fRo 1 0
    else if f = 0x12 then fLvPs 32 16777216 1048576 16777216 else none
  | 0x009 => dramField f
  | 0x00A =>
    if f = 1 then fLvPs 3 2 1 7
    else if f = 2 then fLvPs 3 4 0 4
    else if f = 3 then fLvPs 1 1 0 1
    else if f = 4 then fLvPs 2 3 0 3 else none
  | 0x00B =>
    if f = 1 then fLvPs 1 0 0 1
    else if f = 2 then fLvPs 1 1 0 1
    else if f = 3 then fLv 16 100 0 60000 else none
  | 0x00D =>
    if f = 1 then fLvPs 1 1 0 1
    else if f = 2 then fLv 16 1000 100 60000 else none
  | 0x00E => if f = 1 then fLvPs 16 2000 100 10000 else none
  | 0x00F =>
    if f = 1 then fLv 10 500 100 1000
    else if f = 2 then fLvPs 8 16 4 255 else none
  | 0x010 => if 0x10 ≤ f ∧ f ≤ 0x4F then fLvPs 3 0 0 7 else none
  | 0x011 =>
    if f = 1 then fLvPs 16 500 50 10000
    else if f = 2 then fLv 10 50 0 500
    else if f = 3 then fLvPs 20 3000 100 1000000 else none
  | 0x012 => gcField f
  | 0x013 =>
    if f = 1 then fLvPs 8 95 60 110
    else if f = 2 then fLvPs 8 100 61 112
    else if f = 3 then fLvPs 8 105 62 115
    else if f = 4 then fLv 4 3 1 10
    else if f = 5 then fLvPs 8 80 50 100 else none
  | 0x014 => rebuildField f
  | 0x016 =>
    if f = 1 then fLvPs 8 7 1 60
    else if f = 2 then fLv 8 24 1 168
    else if f = 3 then fLv 16 60 10 3600
    else if f = 4 then fLv 4 4 1 15
    else if f = 5 then fLvPs 8 2 1 255
    else if f = 6 then fLvPs 16 16 1 65535 else none
  | _ => none

/-- A configuration ID from block and field number (R9). -/
def cfgId (blk f : Nat) : Nat := blk * 0x100000 + f

/-- Block number of a configuration ID. -/
def cfgBlock (id : Nat) : Nat := id / 0x100000

/-- Function `fn` of port `p` is a physical function under the straps (R128, R147). -/
def isPhysical (bifur fn : Nat) : Bool := fn % 64 == 0 || (bitOf bifur (fn / 64) && fn % 64 == 32)

/-- The field a configuration ID names; none where it names none (R106). `bifur` is the pair of BIFUR straps. -/
def fieldInfo (bifur id : Nat) : Option FieldInfo :=
  let blk := cfgBlock id
  let f := id % 0x100000
  if 2 ^ 32 ≤ id then none
  else if 0x100 ≤ blk ∧ blk ≤ 0x17F then chanField f
  else if 0x200 ≤ blk ∧ blk ≤ 0x5FF then nsField f
  else if 0x600 ≤ blk ∧ blk ≤ 0x67F then ctrlField (isPhysical bifur (blk - 0x600)) f
  else if blk < 0x100 then lowField blk f
  else none

end Sys2Proof.Machine
end

