-- ==== Sys2Proof/Machine/Tab.lean ====
section
/-! DEFINITION. Sparse tables: a finite map from numbers to values kept as a list sorted by key, with no key twice. -/

namespace Sys2Proof.Machine

/-- A table of values by number; a number not listed reads as a default the reader gives. -/
abbrev Tab (α : Type) := List (Nat × α)

/-- The value at key `k`, or the default `d`. -/
def Tab.get {α : Type} (d : α) : Tab α → Nat → α
  | [], _ => d
  | (k', v) :: t, k => if k' = k then v else Tab.get d t k

/-- The value at key `k`, if the table lists one. -/
def Tab.get? {α : Type} : Tab α → Nat → Option α
  | [], _ => none
  | (k', v) :: t, k => if k' = k then some v else Tab.get? t k

/-- Sets the value at key `k`, keeping the list sorted. -/
def Tab.set {α : Type} (k : Nat) (v : α) : Tab α → Tab α
  | [] => [(k, v)]
  | (k', v') :: t =>
    if k < k' then (k, v) :: (k', v') :: t
    else if k = k' then (k, v) :: t
    else (k', v') :: Tab.set k v t

/-- Removes key `k`. -/
def Tab.erase {α : Type} (k : Nat) (t : Tab α) : Tab α := t.filter (fun e => e.1 != k)

/-- Applies `f` to the value at key `k` (the default where none is listed). -/
def Tab.modify {α : Type} (d : α) (k : Nat) (f : α → α) (t : Tab α) : Tab α :=
  Tab.set k (f (Tab.get d t k)) t

/-- Applies `f` to every listed value. -/
def Tab.mapVals {α : Type} (f : Nat → α → α) (t : Tab α) : Tab α := List.map (fun e => (e.1, f e.1 e.2)) t

/-- The keys listed. -/
def Tab.keys {α : Type} (t : Tab α) : List Nat := List.map (fun e => e.1) t

/-- The least number below `n` whose entry satisfies `p`, searching upward from 0. -/
def Tab.firstIdx {α : Type} (d : α) (p : α → Bool) (t : Tab α) (n : Nat) : Option Nat :=
  (List.range n).find? (fun k => p (Tab.get d t k))

/-- The table's form: keys strictly rising. -/
def Tab.wf {α : Type} : Tab α → Bool
  | [] => true
  | [_] => true
  | (k, _) :: (k', v') :: t => (k < k') && Tab.wf ((k', v') :: t)

end Sys2Proof.Machine
end

