-- ==== Sys2Proof/Machine/PartsCfg.lean ====
section
/-! DEFINITION. State of configuration fields, transactions, commits and the Crook (chapter 4). -/

namespace Sys2Proof.Machine

/-- A transaction context: the V firmware of a Shepherd core (instance 0) or an O module instance on it. -/
structure TxCtx where
  core : Nat
  inst : Nat
  deriving DecidableEq, Repr

/-- Where a transaction stands in Table 4-2. -/
inductive TxPhase where
  /-- Open: fields may be staged. -/
  | opened
  /-- Step 1: waits for a commit that shares a field or a block. -/
  | waiting
  /-- Step 3: QS blocks still draining. -/
  | draining (left : List Nat)
  /-- Step 4: the persistent record and the runtime Tally entry are being written. -/
  | persisting
  /-- Steps 7 and 8: the blocks that still have to apply. -/
  | applying (left : List Nat)
  deriving DecidableEq, Repr

/-- One transaction (R99, R114, R115). -/
structure Txn where
  handle : Nat
  ctx : TxCtx
  /-- The controller that submitted the module (CNTLID − 1); none for V firmware or a device policy. -/
  ctrl : Option Nat
  /-- The admin pen whose command this commit carries out, if any (R136). -/
  pen : Option Nat
  budgetUs : Nat
  start : Nat
  staged : Tab Word
  reads : List Nat
  phase : TxPhase
  /-- Order in which TXC reached step 1 (R116). -/
  order : Nat
  /-- Time TXC reached step 1: the drain budget is measured from here. -/
  began : Nat
  deriving DecidableEq, Repr

/-- Configuration, transactions and their counters (R106 to R118). -/
structure CfgSt where
  /-- Committed values that differ from their reset values, by configuration ID. -/
  committed : Tab Word
  /-- Versions, by configuration ID. -/
  versions : Tab Nat
  /-- Values applied by their blocks, by configuration ID. -/
  applied : Tab Word
  /-- Applications still due, oldest first: the blocks, the fields of one commit and the handle whose TXC waits. -/
  due : List (Nat × Tab Word × Nat)
  /-- The 64-bit commit counter (R113). -/
  counter : Nat
  txns : List Txn
  lastHandle : Nat
  orders : Nat
  conflicts : Nat
  drains : Nat
  countHiLatch : Nat
  deriving DecidableEq, Repr

/-- The Crook: its holder with the lease's end, and its counters (R124, R126). -/
structure CrookSt where
  /-- Holder as CNTLID − 1. -/
  holder : Option Nat
  /-- Time (ns) at which the lease reaches zero. -/
  leaseEnd : Nat
  expired : Nat
  forced : Nat
  deriving DecidableEq, Repr

end Sys2Proof.Machine
end

