-- ==== Sys2Proof/Machine/Desc.lean ====
section
/-! DEFINITION. The 32-byte descriptors of FOP, MOVE, the parity instructions and MEAS: their fields and when one is invalid
(R87, R89, R90, R93 to R96, R102, R103). -/

namespace Sys2Proof.Machine

/-- Flash operation descriptor (Table 3-4). -/
structure FopDesc where
  op : Nat
  flags : Nat
  die : Nat
  planes : Nat
  rlset : Nat
  keyslot : Nat
  block : Nat
  page : Nat
  tag : Nat
  buf : Nat
  len : Nat
  tweak : Nat
  deriving DecidableEq, Repr

/-- Reads a flash operation descriptor from its 32 bytes. -/
def FopDesc.ofBytes (b : Bytes) : FopDesc where
  op := leAt b 0 1
  flags := leAt b 1 1
  die := leAt b 2 2
  planes := leAt b 4 1
  rlset := leAt b 5 1
  keyslot := leAt b 6 2
  block := leAt b 8 4
  page := leAt b 12 2
  tag := leAt b 14 2
  buf := leAt b 16 4
  len := leAt b 20 4
  tweak := leAt b 24 8

/-- SLC mode (FLAGS bit 0). -/
def FopDesc.slc (d : FopDesc) : Bool := bitOf d.flags 0
/-- AES bypass (FLAGS bit 1). -/
def FopDesc.aesBypass (d : FopDesc) : Bool := bitOf d.flags 1
/-- LDPC bypass (FLAGS bit 2). -/
def FopDesc.ldpcBypass (d : FopDesc) : Bool := bitOf d.flags 2
/-- Suspendable program or erase (FLAGS bit 3). -/
def FopDesc.suspendable (d : FopDesc) : Bool := bitOf d.flags 3
/-- Urgent read (FLAGS bit 4). -/
def FopDesc.urgent (d : FopDesc) : Bool := bitOf d.flags 4

/-- A program (0x02 or 0x03). -/
def FopDesc.isProgram (d : FopDesc) : Bool := d.op == 2 || d.op == 3
/-- A read (0x01) or soft read (0x09). -/
def FopDesc.isRead (d : FopDesc) : Bool := d.op == 1 || d.op == 9

/-- End of the FOP part of a channel buffer (Table 1-8). -/
def fopBufferEnd : Nat := 442368

/-- Planes a descriptor selects. -/
def FopDesc.planeList (d : FopDesc) : List Nat := (List.range 4).filter (fun p => bitOf d.planes p)

/-- Bytes of a data unit between buffer and die: 4 KiB, or a raw codeword with LDPC bypass (R205). -/
def FopDesc.unitLen (d : FopDesc) : Nat := if d.ldpcBypass then 4608 else 4096

/-- Spare bytes that follow a program's data: 32 for each data unit, none with LDPC bypass (R182, R205). -/
def FopDesc.spareLen (d : FopDesc) : Nat := if d.isProgram && !d.ldpcBypass then d.len / 4096 * 32 else 0

/-- The rule of LEN for each OP (Tables 3-5 and 7-4). -/
def FopDesc.lenOk (d : FopDesc) : Bool :=
  if d.isRead || d.op == 3 then d.len % d.unitLen == 0 && decide (d.len ≤ d.unitLen * 4 * d.planeList.length)
  else if d.op == 2 then d.len == d.unitLen * 48
  else if d.op == 8 then decide (256 ≤ d.len) && decide (d.len ≤ 4096)
  else if d.op == 6 || d.op == 7 then d.len == 4
  else d.len == 0

/-- An invalid flash operation descriptor (R90, R190). -/
def FopDesc.invalid (d : FopDesc) : Bool :=
  d.op == 0 || decide (9 < d.op)
  || decide (32 ≤ d.flags) || decide (16 ≤ d.planes) || decide (16 ≤ d.rlset)
  || decide (fopBufferEnd < d.buf + d.len + d.spareLen)
  || !d.lenOk
  || decide (16383 < d.keyslot)
  || (d.planes == 0 && (d.isRead || d.isProgram || d.op == 4))
  || (d.op == 2 && d.planes != 15)
  || d.block % 4 != 0

/-- Mover descriptor (Table 3-7). -/
structure MoveDesc where
  src : Nat
  dst : Nat
  len : Nat
  flags : Nat
  res15 : Nat
  func : Nat
  tag : Nat
  res1A : Nat
  deriving DecidableEq, Repr

/-- Reads a mover descriptor from its 32 bytes. -/
def MoveDesc.ofBytes (b : Bytes) : MoveDesc where
  src := leAt b 0 8
  dst := leAt b 8 8
  len := leAt b 16 4
  flags := leAt b 20 1
  res15 := leAt b 21 1
  func := leAt b 22 2
  tag := leAt b 24 2
  res1A := leAt b 26 6

/-- SRC in host memory (FLAGS bit 0). -/
def MoveDesc.srcHost (d : MoveDesc) : Bool := bitOf d.flags 0
/-- DST in host memory (FLAGS bit 1). -/
def MoveDesc.dstHost (d : MoveDesc) : Bool := bitOf d.flags 1
/-- Carry raddle marks (FLAGS bit 2). -/
def MoveDesc.carry (d : MoveDesc) : Bool := bitOf d.flags 2
/-- The PCIe function of the host side: port × 64 + function (FUNC [15] and [5:0]). -/
def MoveDesc.function (d : MoveDesc) : Nat := bitsOf d.func 15 15 * 64 + bitsOf d.func 5 0

/-- An invalid mover descriptor (R94, R87). -/
def MoveDesc.invalid (d : MoveDesc) : Bool :=
  (d.srcHost && d.dstHost)
  || (!d.srcHost && decide (2 ^ 48 ≤ d.src))
  || (!d.dstHost && decide (2 ^ 48 ≤ d.dst))
  || d.len == 0 || decide (16777216 < d.len)
  || (!d.srcHost && !d.dstHost && d.func != 0)
  || decide (16 ≤ d.flags) || d.res15 != 0 || d.res1A != 0 || bitsOf d.func 14 6 != 0

/-- Parity descriptor (Table 3-9). -/
structure ParDesc where
  mode : Nat
  member : Nat
  tag : Nat
  len : Nat
  src : Nat
  dst : Nat
  loc : Nat
  deriving DecidableEq, Repr

/-- Reads a parity descriptor from its 32 bytes. -/
def ParDesc.ofBytes (b : Bytes) : ParDesc where
  mode := leAt b 0 1
  member := leAt b 1 1
  tag := leAt b 2 2
  len := leAt b 4 4
  src := leAt b 8 8
  dst := leAt b 16 8
  loc := leAt b 24 8

/-- Die ID of DSTQ / LOC. -/
def ParDesc.locDie (d : ParDesc) : Nat := bitsOf d.loc 11 0
/-- Block of DSTQ / LOC. -/
def ParDesc.locBlock (d : ParDesc) : Nat := bitsOf d.loc 31 12
/-- Page of DSTQ / LOC. -/
def ParDesc.locPage (d : ParDesc) : Nat := bitsOf d.loc 47 32
/-- IU index in the page of DSTQ / LOC. -/
def ParDesc.locIu (d : ParDesc) : Nat := bitsOf d.loc 55 48

/-- The four parity instructions that take a descriptor. -/
inductive ParOp where
  | pacc | prec | pver | pzero
  deriving DecidableEq, Repr

/-- An address range lies in staging SRAM (Table 1-6). -/
def inStaging (a n : Nat) : Bool := decide (0x2000000 ≤ a) && decide (a + n ≤ 0x4000000)

/-- An address range lies in the FOP or ring part of one channel buffer (Table 1-8). -/
def inChannelBuffer (a n : Nat) : Bool :=
  decide (0x40000000 ≤ a) && decide (a < 0x80000000)
  && decide (0x1000000 ≤ (a - 0x40000000) % 0x10000000)
  && decide ((a - 0x40000000) % 0x10000000 < 0x2000000)
  && decide (a % 0x80000 + n ≤ 0x80000)

/-- An invalid parity descriptor: MODE, MEMBER, LEN and the reserved bits of Table 3-9, and the placing of SRC, DST and DSTQ
that R95 requires (whether an address is mapped is reported at completion as status 0x04). -/
def ParDesc.invalid (k : ParOp) (iuSize : Nat) (d : ParDesc) : Bool :=
  decide (4 ≤ d.mode) || (k == .pzero && d.mode != 0)
  || (k == .pacc && decide (32 ≤ d.member))
  || d.len % 64 != 0 || decide (196608 < d.len)
  || (k == .prec && d.len != iuSize)
  || ((k == .prec || k == .pver) && bitsOf d.loc 63 56 != 0)

/-- Measurement descriptor (Table 3-12). -/
structure MeasDesc where
  kind : Nat
  res1 : Nat
  componentId : Nat
  secver : Nat
  len : Nat
  src : Nat
  result : Nat
  deriving DecidableEq, Repr

/-- Reads a measurement descriptor from its 32 bytes. -/
def MeasDesc.ofBytes (b : Bytes) : MeasDesc where
  kind := leAt b 0 1
  res1 := leAt b 1 3
  componentId := leAt b 4 4
  secver := leAt b 8 4
  len := leAt b 12 4
  src := leAt b 16 8
  result := leAt b 24 8

/-- An invalid measurement descriptor; at V, RESULT must be 0 (Table 3-12). -/
def MeasDesc.invalid (atV : Bool) (d : MeasDesc) : Bool :=
  d.kind == 0 || decide (4 < d.kind) || d.res1 != 0 || d.len == 0 || decide (16777216 < d.len)
  || (atV && d.result != 0)

end Sys2Proof.Machine
end

