-- ==== Sys2Proof/Machine/ModuleCheck.lean ====
section
/-! DEFINITION. The Bexob module format and its check: header, section table, manifest, signature block and the result codes of
Table 2-14 (R60 to R71, R119, R393). -/

namespace Sys2Proof.Machine

/-- Module header (Table 2-10). -/
structure ModHeader where
  magic : Nat
  format : Nat
  hdrsize : Nat
  totalLen : Nat
  level : Nat
  coreKind : Nat
  nsect : Nat
  componentId : Nat
  secver : Nat
  build : Nat
  entry : Nat
  span : Nat
  stack : Nat
  flags : Nat
  signedLen : Nat
  deriving DecidableEq, Repr

/-- Reads a module header. -/
def ModHeader.ofBytes (b : Bytes) : ModHeader where
  magic := leAt b 0x00 4
  format := leAt b 0x04 2
  hdrsize := leAt b 0x06 2
  totalLen := leAt b 0x08 4
  level := leAt b 0x0C 1
  coreKind := leAt b 0x0D 1
  nsect := leAt b 0x0E 2
  componentId := leAt b 0x10 4
  secver := leAt b 0x14 4
  build := leAt b 0x18 8
  entry := leAt b 0x20 4
  span := leAt b 0x24 4
  stack := leAt b 0x28 4
  flags := leAt b 0x2C 4
  signedLen := leAt b 0x30 4

/-- Section table entry (Table 2-11). -/
structure Sect where
  type : Nat
  perm : Nat
  res : Nat
  fileOff : Nat
  loadOff : Nat
  size : Nat
  deriving DecidableEq, Repr

/-- Reads the section table entry at an offset. -/
def Sect.ofBytes (b : Bytes) (off : Nat) : Sect where
  type := leAt b off 1
  perm := leAt b (off + 1) 1
  res := leAt b (off + 2) 2
  fileOff := leAt b (off + 4) 4
  loadOff := leAt b (off + 8) 4
  size := leAt b (off + 12) 4

/-- The section table of a module. -/
def sectionsOf (b : Bytes) (n : Nat) : List Sect := (List.range n).map (fun i => Sect.ofBytes b (0x40 + 16 * i))

/-- A loaded section (types 0x01 to 0x04 of Table 2-12). -/
def Sect.loaded (s : Sect) : Bool := decide (1 ≤ s.type) && decide (s.type ≤ 4)
/-- A section whose contents stand in the module (every valid type but zero-fill). -/
def Sect.hasContents (s : Sect) : Bool := s.type != 4
/-- First page of a loaded section. -/
def Sect.firstPage (s : Sect) : Nat := s.loadOff / 4096
/-- First page above a loaded section: it covers the whole pages of its SIZE (R68). -/
def Sect.endPage (s : Sect) : Nat := (s.loadOff + s.size + 4095) / 4096

/-- SPAN as the sections give it: the highest load offset plus size, rounded up to 4 KiB. -/
def spanOf (ss : List Sect) : Nat :=
  (ss.filter Sect.loaded).foldl (fun m s => Nat.max m (roundUp (s.loadOff + s.size) 4096)) 0

/-- The load region's size (R65): 512 KiB for O, a Shepherd V image and the Fold image, 256 KiB for a Drover image. -/
def loadRegionSize (coreKind : Nat) : Nat := if coreKind == 3 then 0x40000 else 0x80000

/-- The load base (R65). -/
def loadBase (level : Nat) : Nat := if level == 3 then 0xFFFFFFF80000 else 0xFFFFFFF00000

/-- LEVEL, CORE_KIND and COMPONENT_ID agree (R61). -/
def ModHeader.levelsAgree (h : ModHeader) : Bool :=
  let owner := bitOf h.componentId 31
  (h.level == 1 && h.coreKind == 1 && !owner)
  || (h.level == 2 && (h.coreKind == 2 || h.coreKind == 3) && !owner)
  || (h.level == 3 && h.coreKind == 2 && owner)

/-- No two sections of a list overlap in the half-open ranges that `f` gives. -/
def noOverlap {α : Type} (f : α → Nat × Nat) : List α → Bool
  | [] => true
  | a :: t => t.all (fun b => decide ((f a).2 ≤ (f b).1) || decide ((f b).2 ≤ (f a).1)
      || (f a).1 == (f a).2 || (f b).1 == (f b).2) && noOverlap f t

/-- Code 0x05 of Table 2-14: the placing of the sections and of ENTRY. -/
def sectionsBad (h : ModHeader) (ss : List Sect) : Bool :=
  let tableEnd := 0x40 + 16 * h.nsect
  let withC := ss.filter (fun s => s.hasContents && s.size != 0)
  let ld := ss.filter Sect.loaded
  withC.any (fun s => decide (s.fileOff < tableEnd) || decide (h.signedLen < s.fileOff + s.size))
  || ss.any (fun s => s.fileOff % 8 != 0)
  || ld.any (fun s => s.loadOff % 4096 != 0 || decide (loadRegionSize h.coreKind < s.loadOff + s.size))
  || !noOverlap (fun s : Sect => (s.fileOff, s.fileOff + s.size)) withC
  || !noOverlap (fun s : Sect => (s.firstPage, s.endPage)) ld
  || h.entry % 8 != 0
  || !(ss.any (fun s => s.type == 1 && decide (s.loadOff ≤ h.entry) && decide (h.entry < s.loadOff + s.size)))

/-- PERM as Table 2-12 requires it for each type. -/
def Sect.permOk (s : Sect) : Bool :=
  match s.type with
  | 1 => s.perm == 5
  | 2 => s.perm == 1
  | 3 => s.perm == 3
  | 4 => s.perm == 3 && s.fileOff == 0
  | 5 => s.perm == 0
  | 6 => s.perm == 0
  | _ => false

/-- Code 0x06: an invalid TYPE or PERM, a second manifest, or a manifest whose SIZE is no multiple of 8. -/
def typesBad (ss : List Sect) : Bool :=
  ss.any (fun s => !s.permOk)
  || decide (1 < (ss.filter (fun s => s.type == 5)).length)
  || ss.any (fun s => s.type == 5 && s.size % 8 != 0)

/-- The address of the stack's end above the load base, and of the argument buffer: the first 4 KiB boundary above SPAN, plus STACK
(R68, R70). -/
def stackEnd (h : ModHeader) : Nat := roundUp h.span 4096 + h.stack

/-- Code 0x07: SPAN, STACK and the room of the load region, with the argument buffer for O (R65, R70). -/
def spanBad (h : ModHeader) (ss : List Sect) (argLen : Nat) : Bool :=
  h.span != spanOf ss || h.stack % 4096 != 0 || decide (h.stack < 4096)
  || decide (loadRegionSize h.coreKind < h.span + h.stack)
  || (h.level == 3 && decide (loadRegionSize h.coreKind < stackEnd h + argLen))

/-- The manifest section, if there is one. -/
def manifestSect (ss : List Sect) : Option Sect := ss.find? (fun s => s.type == 5)

/-- The entries of a manifest: configuration ID and access word (R69). -/
def manifestOf (b : Bytes) (ss : List Sect) : List (Nat × Nat) :=
  match manifestSect ss with
  | none => []
  | some s => (List.range (s.size / 8)).map (fun i => (leAt b (s.fileOff + 8 * i) 4, leAt b (s.fileOff + 8 * i + 4) 4))

/-- Code 0x08: a reserved field or flag of the header, of the section table or of a manifest access word is not zero. -/
def reservedBad (b : Bytes) (h : ModHeader) (ss : List Sect) : Bool :=
  !allZero (sliceOf b 0x34 12) || decide (2 ≤ h.flags)
  || ss.any (fun s => s.res != 0 || decide (8 ≤ s.perm))
  || (manifestOf b ss).any (fun e => decide (4 ≤ e.2))

/-- One signature set of the signature block (Table 2-13). -/
structure SigSet where
  role : Nat
  ecdsaKid : Bytes
  lmsKid : Bytes
  r : Bytes
  s : Bytes
  hss : Bytes
  deriving DecidableEq, Repr

/-- Reads the big-endian 32-bit integer at an offset (the encoding of NIST SP 800-208). -/
def beAt4 (b : Bytes) (off : Nat) : Nat := ofLe (sliceOf b off 4).reverse

/-- An LMS parameter set of SP 800-208: type code, hash bytes and tree height (PRESUMED: the numbers of the published standard). -/
def lmsParams (t : Nat) : Option (Nat × Nat) :=
  if 5 ≤ t ∧ t ≤ 9 then some (32, 5 * (t - 4))
  else if 10 ≤ t ∧ t ≤ 14 then some (24, 5 * (t - 9))
  else if 15 ≤ t ∧ t ≤ 19 then some (32, 5 * (t - 14))
  else if 20 ≤ t ∧ t ≤ 24 then some (24, 5 * (t - 19))
  else none

/-- An LM-OTS parameter set of SP 800-208: type code, hash bytes and number of chains (PRESUMED: the published standard). -/
def lmotsParams (t : Nat) : Option (Nat × Nat) :=
  let w := (t - 1) % 4
  if 1 ≤ t ∧ t ≤ 4 ∨ 9 ≤ t ∧ t ≤ 12 then
    some (32, if w = 0 then 265 else if w = 1 then 133 else if w = 2 then 67 else 34)
  else if 5 ≤ t ∧ t ≤ 8 ∨ 13 ≤ t ∧ t ≤ 16 then
    some (24, if w = 0 then 200 else if w = 1 then 101 else if w = 2 then 51 else 26)
  else none

/-- The length of the LMS signature at an offset, with the two type codes it names. -/
def lmsSigLen (b : Bytes) (off : Nat) : Option (Nat × Nat × Nat) :=
  let ot := beAt4 b (off + 4)
  match lmotsParams ot with
  | none => none
  | some (n, p) =>
    let lt := beAt4 b (off + 8 + n * (p + 1))
    match lmsParams lt with
    | none => none
    | some (m, h) => some (12 + n * (p + 1) + m * h, lt, ot)

/-- The type codes of every level of an HSS signature, when its lengths add up to the whole of `b`;
`left` counts the signed public keys still to come. -/
def hssLevels (b : Bytes) : Nat → Nat → Option (List (Nat × Nat))
  | 0, off =>
    match lmsSigLen b off with
    | none => none
    | some (n, lt, ot) => if off + n = b.length then some [(lt, ot)] else none
  | left + 1, off =>
    match lmsSigLen b off with
    | none => none
    | some (n, lt, ot) =>
      match lmsParams (beAt4 b (off + n)), lmotsParams (beAt4 b (off + n + 4)) with
      | some (m, _), some _ =>
        if off + n + 24 + m ≤ b.length then
          (hssLevels b left (off + n + 24 + m)).map (fun t => (lt, ot) :: t)
        else none
      | _, _ => none

/-- The parameter sets named by an HSS signature; none when it is malformed (code 0x09). -/
def hssParams (b : Bytes) : Option (List (Nat × Nat)) :=
  let n := beAt4 b 0
  if b.length < 4 ∨ 8 ≤ n then none else hssLevels b n 4

/-- The parameter sets R67 permits: SHA-256/192 LMS (type codes 0x0A to 0x0E, heights 5 to 25) and LM-OTS (0x05 to 0x08), 1 to 3 levels. -/
def hssPermitted (b : Bytes) : Bool :=
  match hssParams b with
  | none => false
  | some ls =>
    decide (1 ≤ ls.length) && decide (ls.length ≤ 3)
    && ls.all (fun p => decide (10 ≤ p.1) && decide (p.1 ≤ 14) && decide (5 ≤ p.2) && decide (p.2 ≤ 8))

/-- Reads signature sets from offset `off` of the signature block; none when a set is malformed. The last component is the offset reached. -/
def readSets (blk : Bytes) : Nat → Nat → Option (List SigSet)
  | 0, off => if off = blk.length then some [] else none
  | n + 1, off =>
    let hl := leAt blk (off + 4) 4
    let body := off + 0x88 + hl
    let next := off + roundUp (0x88 + hl) 8
    if blk.length < next ∨ 16408 < hl ∨ !allZero (sliceOf blk (off + 1) 3) ∨ !allZero (sliceOf blk body (next - body)) then none
    else
      (readSets blk n next).map (fun t =>
        { role := leAt blk off 1, ecdsaKid := sliceOf blk (off + 8) 16, lmsKid := sliceOf blk (off + 0x18) 16,
          r := sliceOf blk (off + 0x28) 48, s := sliceOf blk (off + 0x58) 48, hss := sliceOf blk (off + 0x88) hl } :: t)

/-- The signature sets of a module; none when the signature block is malformed apart from its roles and HSS encodings. -/
def signatureSets (b : Bytes) (h : ModHeader) : Option (List SigSet) :=
  if h.signedLen % 8 ≠ 0 ∨ h.totalLen < h.signedLen + 16 then none
  else
    let blk := b.drop h.signedLen
    let n := leAt blk 8 1
    if leAt blk 0 4 ≠ 0x47535842 ∨ leAt blk 4 4 ≠ h.totalLen - h.signedLen ∨ n < 1 ∨ 2 < n ∨ !allZero (sliceOf blk 9 7) then none
    else readSets blk n 16

/-- The roles are in the order R67 requires: at O one owner set; at V or F a vendor set first and an owner set, if any, second. -/
def rolesOk (level : Nat) (sets : List SigSet) : Bool :=
  match level, sets.map (fun s => s.role) with
  | 3, [2] => true
  | 3, _ => false
  | _, [1] => true
  | _, [1, 2] => true
  | _, _ => false

/-- Code 0x09: the signature block is malformed. -/
def signatureBad (b : Bytes) (h : ModHeader) : Bool :=
  match signatureSets b h with
  | none => true
  | some sets => !rolesOk h.level sets || sets.any (fun s => (hssParams s.hss).isNone)

/-- What the check of a module is made against: the enrolled signers, the counter, and the debug scope (R393). -/
structure CheckEnv where
  /-- Key-ID pairs of unrevoked vendor keys (ECDSA_KID, LMS_KID). -/
  vendor : List (Bytes × Bytes)
  /-- Key-ID pair of the active owner record, if there is one. -/
  owner : Option (Bytes × Bytes)
  /-- The lifecycle state is Owned. -/
  owned : Bool
  /-- Owner co-signature of vendor firmware is enforced. -/
  cosign : Bool
  /-- The component's anti-rollback counter; none when it has none and none is free (R395). -/
  counter : Option Nat
  /-- Debug access is open for this component's scope (R379). -/
  debugOpen : Bool
  /-- These signed bytes and this signature block passed at this boot before (R393: step 4 alone is skipped). -/
  seen : Bool
  deriving DecidableEq, Repr

/-- Code 0x0C: a signer, a parameter set or a missing set that R67 and R393 do not permit. -/
def signerBad (h : ModHeader) (sets : List SigSet) (e : CheckEnv) : Bool :=
  sets.any (fun s =>
    (if s.role == 1 then !e.vendor.contains (s.ecdsaKid, s.lmsKid) else e.owner != some (s.ecdsaKid, s.lmsKid))
    || !hssPermitted s.hss)
  || (h.level == 3 && !e.owned)
  || (h.level != 3 && e.owned && e.cosign && sets.length != 2)

/-- The steps 0x01 to 0x09 of the module check, in ascending code order; 0 when they all pass. `runModule` is true for a module
submitted by Run Module, which must be at level O (R119); `given` is the number of bytes received for the module. -/
def formatCode (b : Bytes) (given argLen : Nat) (runModule : Bool) : Nat :=
  let h := ModHeader.ofBytes b
  let ss := sectionsOf b h.nsect
  if h.totalLen ≠ given then 1
  else if h.magic ≠ 0x444D5842 ∨ h.format ≠ 1 then 2
  else if h.hdrsize ≠ 0x40 ∨ h.nsect < 1 ∨ 16 < h.nsect then 3
  else if !h.levelsAgree || (runModule && h.level != 3) then 4
  else if sectionsBad h ss then 5
  else if typesBad ss then 6
  else if spanBad h ss argLen then 7
  else if reservedBad b h ss then 8
  else if signatureBad b h then 9
  else 0

/-- The module check of R393: 0x00 or the code of the first failure. `ecdsaOk` and `hssOk` answer whether a set's two signatures verify
over the signed part. -/
def moduleCheck (ecdsaOk hssOk : Bytes → SigSet → Bool) (b : Bytes) (given argLen : Nat) (runModule : Bool) (e : CheckEnv) : Nat :=
  let f := formatCode b given argLen runModule
  let h := ModHeader.ofBytes b
  if f ≠ 0 then f
  else
    let sets := (signatureSets b h).getD []
    let signed := b.take h.signedLen
    if signerBad h sets e then 0x0C
    else if (match e.counter with | none => true | some c => decide (h.secver < c)) then 0x0B
    else if !e.seen && !(sets.all (fun s => ecdsaOk signed s && hssOk signed s)) then 0x0A
    else if bitOf h.flags 0 && !e.debugOpen then 0x0D
    else 0

/-- Page permissions of a mapped page (R68): read, write, execute. -/
structure PagePerm where
  r : Bool
  w : Bool
  x : Bool
  deriving DecidableEq, Repr

/-- The page map of a loaded module: page number above the load base, and its permissions (R68). -/
def pageMap (h : ModHeader) (ss : List Sect) (argLen : Nat) : List (Nat × PagePerm) :=
  let secs := (ss.filter Sect.loaded).flatMap (fun s =>
    (List.range (s.endPage - s.firstPage)).map (fun i =>
      (s.firstPage + i, { r := bitOf s.perm 0, w := bitOf s.perm 1, x := bitOf s.perm 2 : PagePerm })))
  let base := roundUp h.span 4096 / 4096
  let extra := h.stack / 4096 + (if h.level == 3 then (argLen + 4095) / 4096 else 0)
  secs ++ (List.range extra).map (fun i => (base + i, { r := true, w := true, x := false }))

/-- The bytes a loader writes above the load base: every loaded section's SIZE bytes and, for O, the argument buffer
with zeros to the end of its last page (R68). Each entry is an offset and its bytes. -/
def loadImage (b : Bytes) (h : ModHeader) (ss : List Sect) (args : Bytes) : List (Nat × Bytes) :=
  let secs := (ss.filter Sect.loaded).map (fun s =>
    (s.loadOff, padTo s.size (if s.hasContents then sliceOf b s.fileOff s.size else [])))
  if h.level == 3 then secs ++ [(stackEnd h, padTo (roundUp args.length 4096) args)] else secs

end Sys2Proof.Machine
end

