-- ==== Sys2Proof/Machine/PartsCore.lean ====
section
/-! DEFINITION. State of the Bexob cores: registers, special registers, run state, message queue, mover and parity slots, completion
records, page map and the O module that runs (chapters 2 to 4). -/

namespace Sys2Proof.Machine

/-- Privilege levels (R38). -/
inductive Level where
  | f | v | o
  deriving DecidableEq, Repr

/-- The three kinds of core (Table 2-1). -/
inductive CoreKind where
  | fold | shepherd | drover
  deriving DecidableEq, Repr

/-- What a core is doing. -/
inductive RunState where
  /-- Held in reset: not yet released (Table 15-1). -/
  | inReset
  /-- Executing its instruction stream. -/
  | running
  /-- Stalled in WAITEV with its clock gated; the pc stays at the WAITEV (R48, R51). -/
  | waitev (rd : BitVec 5) (mask : BitVec 16)
  /-- Its clock is stopped by YIELD until a time in ns of its own clocked time (R85). -/
  | yielding (until_ : Nat)
  /-- Waits in FENCE with bit 0 set for its MOVE and parity completions (R84). -/
  | fencing
  /-- Stalls in TXC until the outcome is known (R100). -/
  | inTxc (rd : BitVec 5) (handle : Nat)
  /-- In the low-power state REST selected (R43). -/
  | resting
  /-- Halted by a double trap (R54). -/
  | halted
  deriving DecidableEq, Repr

/-- An entry of an inbound message queue (R82). -/
structure Msg where
  sender : BitVec 16
  payload : W32
  deriving DecidableEq, Repr

/-- A mover or parity completion record that waits for MOVEC or PCOL (R94, R96). -/
structure TagStatus where
  tag : Nat
  status : Nat
  deriving DecidableEq, Repr

/-- A queued MOVE: its descriptor and the level it was issued at (R93). -/
structure MoveOp where
  desc : MoveDesc
  level : Level
  deriving DecidableEq, Repr

/-- A queued parity operation (R96). -/
structure ParOpQ where
  op : ParOp
  desc : ParDesc
  deriving DecidableEq, Repr

/-- A die-operation completion record (R91). -/
structure FopRec where
  tag : Nat
  die : Nat
  status : Nat
  retries : Nat
  deriving DecidableEq, Repr

/-- The O module a Shepherd core runs (R119 to R122). -/
structure ModRun where
  /-- Submitting controller, as CNTLID − 1. -/
  ctrl : Nat
  /-- The admin pen its Run Module holds. -/
  pen : Nat
  inst : Nat
  limitUs : Nat
  /-- Running time used, in ns (R121). -/
  usedNs : Nat
  componentId : Nat
  manifest : List (Nat × Nat)
  /-- Bytes appended by service call 0x01 (at most 65,536, R122). -/
  result : Bytes
  deriving DecidableEq, Repr

/-- One Bexob core: its general registers and its special registers (Tables 2-3 to 2-5) with the state its instructions use. -/
structure Core where
  run : RunState
  level : Level
  pc : Word
  regs : Vector Word 32
  epc : Word
  ecause : Word
  etval : Word
  estat : Word
  tvec : Word
  evtrap : Word
  timercmp : Word
  pwrmode : Word
  save0 : Word
  save1 : Word
  instret : Word
  modinst : Word
  /-- Clocked time (ns) of the device at the core's last release: TIME and CYCLE count from here (R42). -/
  releasedAt : Nat
  msgs : List Msg
  moves : List MoveOp
  moveDone : List TagStatus
  pars : List ParOpQ
  parDone : List TagStatus
  fopDone : List FopRec
  /-- Page permissions of its scratch, by page number; a page not listed is unmapped (R45, R68). -/
  pages : Tab PagePerm
  /-- Running O module, if there is one. -/
  modRun : Option ModRun
  /-- Requests latched for its event inputs e9 and e14 (Table 1-10). -/
  e9 : Bool
  e14 : Bool
  deriving DecidableEq, Repr

end Sys2Proof.Machine
end

