-- ==== Sys2Proof/Machine/PartsDrove.lean ====
section
/-! DEFINITION. State of the drove engine: droves, staged units, lamb slots, the journal, tombstones, garbage collection, the erase log
and member rebuild (chapters 8 to 11). -/

namespace Sys2Proof.Machine

/-- One member entry of a drove header (Table 9-2). -/
structure Member where
  die : Nat
  /-- BLOCK/4. -/
  grp : Nat
  mstate : Nat
  endRow : Nat
  deriving DecidableEq, Repr

/-- Why a drove was opened (R274, R275, R291). -/
inductive DroveUse where
  | host | gc | wear
  deriving DecidableEq, Repr

/-- One drove: its header (Table 9-2) and what the drove engine keeps beside it. -/
structure Drove where
  n : Nat
  k : Nat
  serial : Nat
  gen : Nat
  /-- STATE of Table 9-4. -/
  state : Nat
  group : Nat
  stream : Nat
  nextRow : Nat
  w : Nat
  closeFirst : Nat
  /-- EXCL entries in use: row and member index. -/
  excl : List (Nat × Nat)
  /-- Members by index 0 to 31. -/
  members : Tab Member
  use : DroveUse
  /-- The header's latest write has program success in the lamb area. -/
  hdrOnFlash : Bool
  /-- Open-drove slot 0 to 63 that holds its accumulators. -/
  slot : Option Nat
  /-- Accumulators by position 0 to 47, 4,128-byte information words: P, Q, lamb. -/
  accP : Tab Bytes
  accQ : Tab Bytes
  accL : Tab Bytes
  /-- Key slot of each unit, by row × 32 + member (R247). -/
  keys : Tab Nat
  /-- Time the drove closed (AGE_BONUS, R280). -/
  closedAt : Nat
  /-- Early close requested: it goes to Closing at the end of its current row (R258, R318). -/
  closeEarly : Bool
  /-- Row in progress: the members whose unit of this row has program success or is parity-complete. -/
  rowDone : List Nat
  /-- Members that failed the close-time verify or wait for retirement: member index and reason. -/
  failedMembers : List (Nat × Nat)
  deriving DecidableEq, Repr

/-- One staged codeword of a unit: its information word, and the pen of the host command that wrote it, if any. -/
structure StagedCw where
  data : Bytes
  spare : Bytes
  /-- A word of it is raddle-marked (R326). -/
  marked : Bool
  pen : Option Nat
  /-- The command's completion has posted (R261). -/
  posted : Bool
  deriving DecidableEq, Repr

/-- A program unit in staging (R224, R261): being filled, or awaiting program success. -/
structure UnitSt where
  serial : Nat
  row : Nat
  member : Nat
  keyslot : Nat
  cws : Tab StagedCw
  /-- Codeword 47 is reserved as the metadata codeword (R223). -/
  metaCw : Bool
  folded : Bool
  issued : Bool
  /-- Program success reported. -/
  success : Bool
  /-- Reads of staging that still reference it (R30). -/
  refs : Nat
  ticket : Option Nat
  deriving DecidableEq, Repr

/-- A programmed lamb slot (Table 9-1): row parity, spare copies and drove headers. -/
structure LambSlot where
  serial : Nat
  row : Nat
  gen : Nat
  parity : Tab Bytes
  spares : Tab Bytes
  headers : List Bytes
  released : Bool
  deriving DecidableEq, Repr

/-- A journal image as it stands in staging or in a dump (R261, R262): what Table 9-7 lays out, as the structures it encodes. -/
structure JImage where
  seq : Nat
  droves : List Drove
  units : List UnitSt
  lambs : List LambSlot
  wsnNext : Nat
  closeNext : Nat
  serialNext : Nat
  /-- Copy status A and B: 0 every program succeeded, 1 some failed, 2 not written (Table 9-8). -/
  statusA : Nat
  statusB : Nat
  deriving DecidableEq, Repr

/-- A live tombstone record (Table 8-9). -/
structure TombRec where
  wsn : Nat
  nsid : Nat
  whole : Bool
  first : Nat
  count : Nat
  /-- Slot key (die × 2^26 + slot) of the tombstone codeword that holds it; none while it waits in staging. -/
  at_ : Option Nat
  stream : Nat
  deriving DecidableEq, Repr

/-- One copied IU of a collection cycle (R283): destination drove, destination slot key, source slot key. -/
structure CopyEnt where
  dst : Nat
  dstKey : Nat
  srcKey : Nat
  diu : Nat
  deriving DecidableEq, Repr

/-- A garbage-collection cycle (Table 10-2). -/
structure GcCycle where
  group : Nat
  victim : Nat
  /-- The next step of Table 10-2 to be done. -/
  step : Nat
  copies : List CopyEnt
  /-- Destination droves. -/
  dests : List Nat
  epoch : Nat
  wear : Bool
  deriving DecidableEq, Repr

/-- An erase log record (Table 10-4) with its creation time. -/
structure ElogRec where
  type : Nat
  reason : Nat
  die : Nat
  grp : Nat
  slc : Bool
  count : Nat
  serial : Nat
  createdAt : Nat
  deriving DecidableEq, Repr

/-- The erase log (R286 to R290). -/
structure ElogSt where
  pending : List ElogRec
  seq : Nat
  /-- SEQ of the first page of the newest complete census. -/
  base : Nat
  oneCopy : Bool
  census : Bool
  /-- Census: SEQ of its first page and the pages still to write. -/
  censusFirst : Nat
  censusLeft : Nat
  stalled : Bool
  /-- Record pages written since the previous census began. -/
  pagesSince : Nat
  /-- Next page position in each ring: block index × 4,096 + page. -/
  pos0 : Nat
  pos1 : Nat
  /-- A census has ever been written. -/
  anyCensus : Bool
  deriving DecidableEq, Repr

/-- A member rebuild pass onto a spare block (Table 11-2). -/
structure RebuildPass where
  serial : Nat
  member : Nat
  die : Nat
  grp : Nat
  /-- The next row to program; W once the rows are done. -/
  row : Nat
  verified : Bool
  deriving DecidableEq, Repr

/-- The drove engine. -/
structure DroveSt where
  droves : Tab Drove
  units : List UnitSt
  lamb : Tab LambSlot
  lambNext : Nat
  wsn : Nat
  closeNum : Nat
  serialNum : Nat
  ticket : Nat
  tombs : List TombRec
  /-- Journal fixed by a power-fail or reset sequence, and the dumps on flash by DUMPSEQ. -/
  fixed : Option JImage
  dumps : Tab JImage
  dumpSeq : Nat
  stopped : Bool
  /-- Dump generations holding an unconsumed dump. -/
  gensHeld : Nat
  replayDone : Bool
  replayRaddled : Bool
  replayLost : Bool
  replayFromB : Nat
  cycles : List GcCycle
  elog : ElogSt
  epoch : Nat
  epochCounts : Tab Nat
  hostWaits : Nat
  retiredCount : Nat
  passes : List RebuildPass
  switched : Nat
  evacuated : Nat
  declPending : List Nat
  /-- Blocks marked for retirement: block-table index and reason (R296). -/
  retireMarks : Tab Nat
  /-- Blocks whose BEGIN record has been created and whose erase has not ended: block-table index and drove serial. -/
  begunBlks : Tab Nat
  /-- Soft-read successes counted against blocks within the graze period (Table 12-5). -/
  softCounts : Tab Nat
  /-- Spare S0 of R299, in KiB. -/
  s0 : Nat
  hostBytes : Nat
  mediaBytes : Nat
  /-- Group: time of the last host IU placed (GC_IDLE_MS). -/
  lastHostAt : Tab Nat
  /-- Read reconstruction requests in progress: slot key, and the pen and IU waiting. -/
  recon : List (Nat × Option (Nat × Nat))
  /-- Media-wide integrity losses that keep SMART critical warning bit 2 (R236, R268, R316, R546). -/
  integrityLost : Bool
  /-- Namespaces that report critical warning bit 2 (R268). -/
  integrityNs : List Nat
  /-- Wear levelling of a group is in progress (R291). -/
  wearOn : Tab Bool
  /-- Slots that the replayed journal lists as lacking program success (R236), and the units replay left in staging: drove, row, member. -/
  replayExcl : List Nat
  replayUnits : List (Nat × Nat × Nat)
  /-- Inputs e2 and e3 of the Shepherd cores: a reconstruction has ended; a drove has closed. -/
  reconEvt : Bool
  closedEvt : Bool
  deriving DecidableEq, Repr

end Sys2Proof.Machine
end

