-- ==== Sys2Proof/Machine/PartsEng.lean ====
section
/-! DEFINITION. State of the cipher engines, the digest engine and the public-key engines (chapter 16). -/

namespace Sys2Proof.Machine

/-- AES state: per-channel counters and per-die DRBG (R412 to R414, Tables 16-1 and 16-2). -/
structure AesDie where
  rngOk : Bool
  late : Bool
  halted : Bool
  /-- No reseed for 60 s: no new data units (R413). -/
  starved : Bool
  reseedAt : Nat
  deriving DecidableEq, Repr

structure AesSt where
  dies : Tab AesDie
  misses : Tab Nat
  stalls : Tab Nat
  deriving DecidableEq, Repr

/-- Digest slot states (Table 16-12). -/
inductive DigState where
  | free | held | opened | finishing | done | error
  deriving DecidableEq, Repr

/-- A digest slot (Tables 16-14 to 16-18). -/
structure DigSlot where
  st : DigState
  owner : Nat
  alg : Nat
  hmac : Bool
  keyLen : Nat
  outLen : Nat
  /-- Message bytes pushed, key words first for HMAC. -/
  msg : Bytes
  words : Nat
  dataLo : Nat
  lastCnt : Nat
  lastLo : Nat
  result : Bytes
  expect : Tab Nat
  matched : Bool
  matchN : Bool
  cmpDone : Bool
  errCtl : Bool
  errCount : Bool
  errEarly : Bool
  errSeq : Bool
  deriving DecidableEq, Repr

/-- A public-key operation in progress (R431). -/
structure PkaOp where
  op : Nat
  len : Nat
  msg : Nat
  key : Nat
  sig : Nat
  out : Nat
  bad : Bool
  deriving DecidableEq, Repr

/-- The public-key engines (Tables 16-21, 16-22). -/
structure PkaSt where
  desc : Nat
  ec : Option PkaOp
  hbs : Option PkaOp
  result : Nat
  op : Nat
  /-- Input e2 of the Fold core: an operation completed since PKA.STATUS was last read. -/
  done : Bool
  deriving DecidableEq, Repr

end Sys2Proof.Machine
end

