-- ==== Sys2Proof/Machine/PartsEvt.lean ====
section
/-! DEFINITION. State of the event sources, device fatal, the Collie and the reset controller (chapter 21). -/

namespace Sys2Proof.Machine

/-- An event record (Table 21-2), with the time it entered its FIFO. -/
structure EvRec where
  seq : Nat
  ltime : Nat
  obj : Nat
  arg : Nat
  cond : Nat
  cls : Nat
  flags : Nat
  postedAt : Nat
  deriving DecidableEq, Repr

/-- One source's FIFO, history ring and registers (R507 to R512, Tables 21-11 to 21-14). -/
structure SrcSt where
  /-- SEQ the next record takes. -/
  next : Nat
  fifo : List EvRec
  hist : List EvRec
  handling : Bool
  overflow : Nat
  lost : Nat
  /-- Records were dropped since the last record entered the FIFO. -/
  dropped : Bool
  head : Option EvRec
  seqHiLatch : Nat
  /-- Time at which the source left reset: LTIME counts from here. -/
  base : Nat
  deriving DecidableEq, Repr

/-- A reset sequence in progress (R517 to R520). -/
inductive ResetSeq where
  | none
  /-- Collie steps 1 to 3: reset held for the Iluell boundary until the given time at the latest. -/
  | collieHold (until_ : Nat) (expiredAt : Nat)
  /-- The hold has ended; the warm reset is due. -/
  | warmDue (reason : Nat)
  /-- A Fold-initiated reset is due, for a tamper or for another cause: the journal is dumped first. -/
  | foldDue (tamper : Bool)
  deriving DecidableEq, Repr

/-- Event, error and reset state. -/
structure EvtSt where
  srcs : Tab SrcSt
  fatal : Bool
  fatalCause : Nat
  fatalSource : Nat
  rstLast : Nat
  rstInplace : Bool
  rstWasFatal : Bool
  rstCollies : Nat
  rstFold : Nat
  rstNssr : Nat
  /-- Collie counting, its last pet and its period (ns). -/
  collieArmed : Bool
  colliePet : Nat
  collieNs : Nat
  colliePre : Bool
  seqn : ResetSeq
  /-- Fold-initiated resets by double trap since the last power-on reset (R511). -/
  doubleTrapResets : Nat
  deriving DecidableEq, Repr

end Sys2Proof.Machine
end

