-- ==== Sys2Proof/Machine/PartsFold.lean ====
section
/-! DEFINITION. State of the Fold: OTP, ownership, lifecycle requests, tampers, entropy, key store, boot, Tally, LMS leaves, SPDM and TCG
(chapters 14 to 16). -/

namespace Sys2Proof.Machine

/-- Key slot states (Table 14-14). -/
inductive SlotState where
  | empty | loaded | clearing
  deriving DecidableEq, Repr

/-- A key slot (R382, R383). -/
structure KeySlot where
  st : SlotState
  /-- Operations issued that name the slot and have not completed. -/
  inUse : Nat
  /-- The 64 bytes of the slot as a little-endian number: data key in bytes 0–31, tweak key in bytes 32–63. -/
  content : Nat
  deriving DecidableEq, Repr

/-- The descriptor of an unwrap operation (R420). -/
structure UnwrapOp where
  op : Nat
  gen : Nat
  slot : Nat
  kek : Nat
  nsid : Nat
  startWsn : Nat
  src : Nat
  dst : Nat
  /-- A reserved byte is not zero or the operation is unknown. -/
  bad : Bool
  deriving DecidableEq, Repr

/-- The KEY window, the key store and the unwrap engine (R382 to R386, R420, R421). -/
structure KeySt where
  /-- Slots that are not Empty. -/
  slots : Tab KeySlot
  cmdSlot : Nat
  busy : Bool
  refused : Bool
  uaddr : Nat
  uop : Option UnwrapOp
  ustatus : Nat
  /-- Input e3 of the Fold core: an operation has ended since the Fold last read KEY.USTAT. -/
  done : Bool
  /-- Engine cache entries: (channel × 8 + engine), least recently used first (R414). -/
  caches : Tab (List Nat)
  deriving DecidableEq, Repr

/-- An owner record whose MAC verifies (Table 14-6). -/
structure OwnerRec where
  gen : Nat
  policy : Nat
  ecdsa : Bytes
  hss : Bytes
  deriving DecidableEq, Repr

/-- OTP contents (Table 14-2). -/
structure OtpSt where
  vp : BitVec 8
  decom : BitVec 8
  vrevoke : Nat
  serial : Bytes
  udsWrap : Bytes
  vendorKeys : Bytes
  pufHelper : Bytes
  deriving DecidableEq, Repr

/-- A component of the current boot (Table 15-5). -/
structure CompEnt where
  cid : Nat
  secver : Nat
  ckind : Nat
  slot : Nat
  signers : Nat
  units : Nat
  digest : Bytes
  deriving DecidableEq, Repr

/-- A programmed Tally slot: its record bytes and what a reader finds out about them. -/
structure TallyRec where
  rseq : Nat
  rkind : Nat
  bodyLen : Nat
  bytes : Bytes
  /-- Its signatures verify: the read-back matched. -/
  good : Bool
  deriving DecidableEq, Repr

/-- The Tally ring and its registers (R397, R398, R405). -/
structure TallySt where
  recs : Tab TallyRec
  /-- Slot the next append programs. -/
  nextSlot : Nat
  /-- Slot of the head. -/
  head : Nat
  rseq : Nat
  /-- Record digest of the head (PREV of the next record). -/
  prev : Bytes
  wrapped : Bool
  appFail : Nat
  coalesced : Nat
  lastRefusal : Option Nat
  bootSlot : Option Nat
  rseqHiLatch : Nat
  leafHiLatch : Nat
  deriving DecidableEq, Repr

/-- The LMS state: the stored copies and the leaves in hand (R407). -/
structure LmsSt where
  gen : Nat
  next : Nat
  cur : Nat
  lim : Nat
  /-- Bottom trees are built up to and including this top-tree leaf. -/
  builtTo : Nat
  deriving DecidableEq, Repr

/-- A boot note (Table 15-6). -/
structure BootNote where
  ntype : Nat
  detail : Nat
  nslot : Nat
  cid : Nat
  ref : Nat
  deriving DecidableEq, Repr

/-- A measurement request on the Fold request ring (R103). -/
structure MeasReq where
  core : Nat
  ticket : Nat
  desc : MeasDesc
  deriving DecidableEq, Repr

/-- Fold identity, lifecycle, tamper, entropy and boot state. -/
structure FoldSt where
  otp : OtpSt
  /-- The lifecycle state has been read by the boot ROM. -/
  lcValid : Bool
  ownerCtr : Nat
  /-- Owner record copies A and B. -/
  ownerA : Option OwnerRec
  ownerB : Option OwnerRec
  /-- A lifecycle change whose runtime entry is still to be appended: request type and signer key IDs (R372, R405). -/
  lcOwed : Option (Nat × Bytes)
  /-- Decommission steps 3 to 5 still to complete (R373). -/
  decomLeft : Bool
  endorse : Option (Nat × Bytes)
  idChain : Bytes
  hssCert : Bytes
  nonce : Option (Bytes × Nat)
  reqStatus : Nat
  reqType : Nat
  scope : Nat
  tamper : Nat
  tamperResets : Nat
  latched : Bool
  healthy : Bool
  rctFail : Bool
  aptFail : Bool
  reseeds : Nat
  failedAt : Option Nat
  reseedAt : Nat
  /-- Layer 0 and layer 1 secrets; empty when none is derived or it has been cleared. -/
  idPriv : Bytes
  hssSeed : Bytes
  hssI : Bytes
  kSeal : Bytes
  kBlob : Bytes
  cdi1 : Bytes
  alias1 : Bytes
  alias2 : Bytes
  alias1Cert : Bytes
  stage : Nat
  code : Nat
  halted : Bool
  haltCount : Nat
  bootCtr : Nat
  bootReason : Nat
  comps : List CompEnt
  notes : List BootNote
  /-- The first controller has set RDY at this boot (R396). -/
  readyDone : Bool
  configDigest : Bytes
  vendorCtrs : Tab Nat
  ownerCtrs : Tab Nat
  tally : TallySt
  lms : LmsSt
  meas : List MeasReq
  /-- Ticket given last (1 to 65,535; 0 before the first). -/
  measTicket : Nat
  /-- The Fold alone is in reset (live activation). -/
  inReset : Bool
  /-- A JTAG TAP scope is open for access, as SCOPE bits; kept beside `scope` for the mailbox. -/
  tapOpen : Nat
  /-- A debug token has been presented (e14 of the Fold core). -/
  tokenIn : Bool
  /-- Requests refused and coalesced are counted in 8 bytes for the next entry. -/
  refusals : Nat
  deriving DecidableEq, Repr

/-- Namespace key generation (Table 16-3). -/
structure KeyGen where
  slot : Nat
  gstate : Nat
  startWsn : Nat
  deriving DecidableEq, Repr

/-- Key binding of a namespace (Table 16-3). -/
structure KeyBind where
  mode : Nat
  cur : Nat
  gens : Tab KeyGen
  deriving DecidableEq, Repr

/-- One SPDM requester's connection (R410). -/
structure SpdmConn where
  peer : Nat
  /-- 0 none, 1 version, 2 capabilities, 3 algorithms. -/
  phase : Nat
  transcript : Bytes
  /-- Chunked response or request in progress: message bytes and bytes done. -/
  chunk : Bytes
  chunkAt : Nat
  chunkIn : Bool
  deriving DecidableEq, Repr

/-- SPDM responder: the connections, most recently used first, and requesters displaced since their last request. -/
structure SpdmSt where
  conns : List SpdmConn
  displaced : List Nat
  /-- The answer to a controller's last Security Send of protocol 0xE8; a Security Receive returns it. -/
  replies : Tab Bytes
  deriving DecidableEq, Repr

/-- A TCG authority (R423). -/
structure Authority where
  salt : Bytes
  pin : Bytes
  tries : Nat
  enabled : Bool
  deriving DecidableEq, Repr

/-- A namespace's locking range (R423). -/
structure LockRange where
  rle : Bool
  wle : Bool
  rl : Bool
  wl : Bool
  lockOnReset : Bool
  deriving DecidableEq, Repr

/-- The TCG security providers (R423 to R425). -/
structure TcgSt where
  /-- Open session: the controller, the security provider (0 Admin SP, 1 Locking SP) and the authorities proved. -/
  session : Option (Nat × Nat × List Nat)
  auths : Tab Authority
  ranges : Tab LockRange
  /-- Locking SP is activated. -/
  active : Bool
  /-- Status of the last method, by controller; a Security Receive returns it. -/
  replies : Tab Nat
  deriving DecidableEq, Repr

end Sys2Proof.Machine
end

