-- ==== Sys2Proof/Machine/PartsHub.lean ====
section
/-! DEFINITION. State of the hub fabric, the die links and the pins (chapters 1 and 22). -/

namespace Sys2Proof.Machine

/-- One UCIe module: whether it carries traffic and the training attempts used (R16). -/
structure UcieMod where
  up : Bool
  attempts : Nat
  deriving DecidableEq, Repr

/-- Hub fabric state: modules 0–2 host link, 3 + 2k and 4 + 2k channel die k, 11 store link; sticky DEGRADED bits by link (Table 1-4). -/
structure HubSt where
  mods : Tab UcieMod
  degraded : Nat
  deriving DecidableEq, Repr

end Sys2Proof.Machine
end

