-- ==== Sys2Proof/Machine/PartsIlu.lean ====
section
/-! DEFINITION. State of the Iluell store and of live update (chapter 17). -/

namespace Sys2Proof.Machine

/-- An Iluell command (Table 17-5). -/
structure IluCmd where
  code : Nat
  units : Nat
  addr : Nat
  data : Nat
  deriving DecidableEq, Repr

/-- Where a port stands in the four-write sequence (R437). -/
inductive IluSeq where
  | idle | key1 | unlocked | cmdIn | addrIn
  deriving DecidableEq, Repr

/-- One command port (R437, R438). -/
structure IluPort where
  seq : IluSeq
  /-- The core that owns port 1's sequence. -/
  owner : Nat
  code : Nat
  units : Nat
  addr : Nat
  /-- Command waiting for the array or for the port's previous command. -/
  wait : Option IluCmd
  status : Nat
  seqErr : Nat
  deriving DecidableEq, Repr

/-- The program or flag word the array runs. -/
structure IluProg where
  port : Nat
  cmd : IluCmd
  /-- Units already programmed. -/
  done : Nat
  deriving DecidableEq, Repr

/-- The erase the array runs or has suspended. Port 3 stands for the window's moves and boot re-erases. -/
structure IluErase where
  port : Nat
  sector : Nat
  /-- Time (ns) it started or last resumed. -/
  since : Nat
  suspended : Bool
  explicit : Bool
  deriving DecidableEq, Repr

/-- A physical sector's state word (Tables 17-3, 17-19). -/
structure SectSt where
  st : Nat
  erases : Nat
  deriving DecidableEq, Repr

/-- A live activation in progress (R451). -/
structure ActSt where
  pen : Nat
  /-- Slot 0 or 1. -/
  slot : Nat
  /-- Cores still to activate, in order. -/
  cores : List Nat
  /-- Step of Table 17-9 the current core has completed. -/
  step : Nat
  deriving DecidableEq, Repr

/-- The Iluell controller. -/
structure IluSt where
  /-- Programmed units, by physical sector × 128 + unit; an erased unit is not listed. -/
  nor : Tab Bytes
  sects : Tab SectSt
  /-- Retired physical position to the spare that replaces it. -/
  remap : Tab Nat
  /-- Spares taken into use. -/
  sparesUsed : Nat
  ports : Tab IluPort
  prog : Option IluProg
  erase : Option IluErase
  suspPending : Bool
  pfHold : Bool
  rstHold : Bool
  gap : Nat
  start : Nat
  /-- Erases in the general region since the last move. -/
  sinceMove : Nat
  moveDue : Bool
  moving : Bool
  reerase : List Nat
  /-- Input e4 of the Fold core: a command of port 0 ended since ILU.STAT0 was read. -/
  done0 : Bool
  dlOwner : Option Nat
  dlLen : Nat
  act : Option ActSt
  deriving DecidableEq, Repr

end Sys2Proof.Machine
end

