-- ==== Sys2Proof/Machine/PartsMap.lean ====
section
/-! DEFINITION. State of the map cache, the map rebuild, the DRAM controller and the memory-integrity machinery (chapters 8, 12, 13). -/

namespace Sys2Proof.Machine

/-- Map cache line states (Table 13-6). -/
inductive LineState where
  | invalid | filling | clean | dirty | evicting
  deriving DecidableEq, Repr

/-- A map cache line: the line index it holds, its state and its 160 bytes of entries (R351). -/
structure MapLine where
  line : Nat
  st : LineState
  data : Bytes
  /-- Marked 8-byte words of the line, 0 to 19 (R322). -/
  marks : List Nat
  /-- Line index of the fill that waits for this way's write-back. -/
  next : Option Nat
  /-- The fill in progress is a prefetch (R354). -/
  prefetch : Bool
  deriving DecidableEq, Repr

/-- An operation that waits at MAPC: for a fill, a write-back or a repair (R355, R356). -/
structure MapcReq where
  diu : Nat
  /-- 0 lookup, 1 update, 2 conditional update. -/
  op : Nat
  new : Nat
  old : Nat
  deriving DecidableEq, Repr

/-- A repair slot (R356): the line and the marked word in it. -/
structure RepairSlot where
  valid : Bool
  line : Nat
  word : Nat
  deriving DecidableEq, Repr

/-- MAPC. -/
structure MapcSt where
  enable : Bool
  /-- 0 Disabled, 1 Enabled, 2 Disabling. -/
  state : Nat
  flushDone : Bool
  cleanDone : Bool
  repairEvt : Bool
  lookups : Nat
  misses : Nat
  /-- Lines by set × 16 + way. -/
  lines : Tab MapLine
  /-- PLRU bits by set. -/
  plru : Tab Nat
  repairs : Tab RepairSlot
  waiting : List MapcReq
  /-- The operation answered last: its DIU, the entry it found, and whether its update was applied. -/
  answer : Option (Nat × Nat × Bool)
  rbPhase : Nat
  rbPass : Nat
  rbPasses : Nat
  rbFallbacks : Nat
  rbMs : Nat
  deriving DecidableEq, Repr

/-- One DRAM channel. -/
structure DramChan where
  up : Bool
  stepped : Bool
  failed : Bool
  due : Bool
  busy : Bool
  dueAt : Nat
  startQueued : Bool
  ppr : Nat
  ce : Nat
  ue : Nat
  refreshes : Nat
  zqPending : Bool
  deriving DecidableEq, Repr

/-- The DRAM controller (R339 to R350). -/
structure DramSt where
  order : Nat
  ref2x : Bool
  /-- Polls in a row on which every device reported 1×. -/
  ok1x : Nat
  retrains : Nat
  chans : Tab DramChan
  maxlat : Tab Nat
  late : Tab Nat
  remap : Tab Nat
  /-- Corrected errors attributed to a device of a row: channel, row key, device, time. -/
  ceLog : List (Nat × Nat × Nat × Nat)
  deriving DecidableEq, Repr

/-- Integrity registers and remap tables (chapter 12). -/
structure IntegSt where
  foldSram : Bool
  sram : Bool
  dram : Bool
  remapErr : Bool
  pprFail : Bool
  ce : Nat
  ue : Nat
  hard : Nat
  /-- HUB.SRAMREMAP words by group × 32 + entry. -/
  sramRemap : Tab Nat
  nandPct : Nat
  nandLate : Bool
  dramPct : Nat
  passes : Nat
  recal : Nat
  retireMark : Nat
  /-- Start of the current NAND graze pass (ns), if one runs. -/
  passStart : Option Nat
  /-- SMART Media and Data Integrity Errors (R324). -/
  mdi : Nat
  /-- Dies whose set 0 the calibration policy is to recalibrate (Table 12-5). -/
  recalDies : List Nat
  deriving DecidableEq, Repr

end Sys2Proof.Machine
end

