-- ==== Sys2Proof/Machine/PartsMedia.lean ====
section
/-! DEFINITION. State of the NAND dies, the flash channels and the Drover work and result rings (chapter 7). -/

namespace Sys2Proof.Machine

/-- How a written codeword reads back. -/
inductive CwCond where
  /-- Programmed with success. -/
  | good
  /-- A program of it failed, timed out or was cut: how it reads back is undefined within the bounds of R197. -/
  | uncertain
  deriving DecidableEq, Repr

/-- The key and tweak a data unit was encrypted under (R203). -/
structure Seal where
  /-- Content of the key slot at the program. -/
  key : Nat
  tweak : Nat
  deriving DecidableEq, Repr

/-- A written codeword (Table 7-1): its data before encryption, its spare bytes and the seal, if it was encrypted. -/
structure Codeword where
  data : Bytes
  spare : Bytes
  sealed : Option Seal
  cond : CwCond
  deriving DecidableEq, Repr

/-- Stage of a die operation in its die's queue (R191, R194). -/
inductive OpStage where
  | queued
  | running
  /-- The suspend command has been issued; the die has not reported the suspended state (R196). -/
  | suspending
  | suspended
  /-- Ended; its completion record waits to be collected. -/
  | ended
  deriving DecidableEq, Repr

/-- Who issued a die operation: a FOP of a Drover core's program, or the channel program for a work item. -/
inductive OpOrigin where
  | fop
  | work (ticket : Nat)
  deriving DecidableEq, Repr

/-- One die operation (R189, R191). -/
structure DieOp where
  desc : FopDesc
  origin : OpOrigin
  core : Nat
  stage : OpStage
  /-- Time its array operation started or last resumed. -/
  startedAt : Nat
  /-- Running time before the last suspension (ns). -/
  ranNs : Nat
  suspensions : Nat
  /-- Reads run in the current suspension. -/
  readsRun : Nat
  /-- Reads that started ahead of it while it was queued (R191). -/
  bypassed : Nat
  /-- Its data has been transferred to the die (R193). -/
  transferred : Bool
  /-- A program's data and spare bytes as transferred. -/
  data : Bytes
  /-- Its completion status (Table 3-6) and retry steps, once ended. -/
  status : Nat
  steps : Nat
  deriving DecidableEq, Repr

/-- One die. -/
structure DieSt where
  ops : List DieOp
  /-- Word lines per block, from its parameter page. -/
  wl : Nat
  /-- Per-plane blocks of the die. -/
  nblocks : Nat
  /-- The ID read at bring-up. -/
  id : Nat
  /-- Busy time-outs in a row (R210). -/
  timeouts : Nat
  /-- Blocks with soft reads of status 0x03, with the time of each (Table 11-1). -/
  uncorr : List (Nat × Nat)
  /-- It did not return ready within 10 ms of its reset, or returned another ID (R210, Table 11-1). -/
  lost : Bool
  /-- Its FAIL_MASK bit was cleared: it returns to service after a reset (R211). -/
  needsReset : Bool
  deriving DecidableEq, Repr

/-- One flash channel: the CHN window's registers and the channel's own state. -/
structure ChanSt where
  rate : Nat
  ext : Bool
  up : Bool
  stepped : Bool
  retrains : Nat
  diemap : Nat
  release : List Nat
  retried : Nat
  hardfail : Nat
  softok : Nat
  softfail : Nat
  faultTrain : Bool
  faultLink : Bool
  faultSusp : Bool
  suspect : Nat
  /-- Read-level table (R201): entry x × 16 + s. -/
  levels : Tab Word
  /-- Highest ONFI rate and extended rates that every present die supports (R184, R186). -/
  onfiRate : Nat
  extRates : Nat
  /-- Parameter-read CRC errors in a row (R212). -/
  crcErrs : Nat
  /-- Time of the channel fault that took it down, if it is down by one. -/
  downAt : Option Nat
  /-- Die index used for the previous drove, for the round robin of R245. -/
  lastDie : Nat
  /-- A metadata read of input e2: hard decode failures not yet collected. -/
  decodeFail : Bool
  /-- Channel limited by the calibration policy for temperature (R483). -/
  hotLimited : Bool
  deriving DecidableEq, Repr

/-- What a work item is for, once its result is posted. -/
inductive JobKind where
  /-- A host read of IU `iu` of the command in pen `pen`. -/
  | hostRead (pen iu : Nat)
  /-- A program of a unit: drove serial, row and member index. -/
  | unit (serial row member : Nat)
  /-- An erase of a block of a collection cycle or of a free block: die, block group and drove serial (0 for none). -/
  | erase (die grp serial : Nat)
  /-- A graze read of a codeword. -/
  | graze (slotKey : Nat)
  deriving DecidableEq, Repr

/-- A work item (Table 7-5). -/
structure WorkItem where
  kind : Nat
  flags : Nat
  die : Nat
  block : Nat
  page : Nat
  planes : Nat
  keyslot : Nat
  buf : Nat
  len : Nat
  tweak : Nat
  stage : Nat
  ticket : Nat
  deriving DecidableEq, Repr

/-- A work item the drove engine has made and whose final result has not been consumed. -/
structure WorkJob where
  item : WorkItem
  kind : JobKind
  /-- The read epoch it was stamped with, if it took one (R285). -/
  epoch : Option Nat
  /-- It stands in the work ring or beyond; until then it waits for a buffer or for room in the ring. -/
  posted : Bool
  /-- Its PHASE 0x00 result has been posted: the buffer is free. -/
  released : Bool
  deriving DecidableEq, Repr

/-- Ring pointers of one Drover core (R206, Tables 7-7 and 7-8), and the items it has consumed and not yet finished. -/
structure DrvSt where
  workTail : Nat
  workHead : Nat
  resTail : Nat
  resHead : Nat
  /-- Items consumed whose FOP has no free queue position yet, oldest first (R209). -/
  held : List WorkItem
  /-- Items that ended without a die operation: ticket and status of the result that is due. -/
  early : List (Nat × Nat)
  /-- Channels quiesced for a live update (R318). -/
  quiescing : Bool
  quiesced : Bool
  quiesceAt : Nat
  deriving DecidableEq, Repr

/-- Flash media: the codewords written, by die × 2^26 + slot (an erased codeword is not listed), and the dies, channels, rings and jobs. -/
structure MediaSt where
  nand : Tab Codeword
  dies : Tab DieSt
  chans : Tab ChanSt
  drvs : Tab DrvSt
  jobs : List WorkJob
  deriving DecidableEq, Repr

end Sys2Proof.Machine
end

