-- ==== Sys2Proof/Machine/PartsNvme.lean ====
section
/-! DEFINITION. State of the PCIe links, the NVMe controllers, pens, hurdles, namespaces and reservations (chapters 5 and 6). -/

namespace Sys2Proof.Machine

/-- One PCIe link (Table 5-2): ports 0 and 1, halves A and B as link indices 0, 1 (port 0) and 2, 3 (port 1). -/
structure LinkSt where
  rate : Nat
  width : Nat
  flit : Bool
  degraded : Bool
  l12 : Bool
  retrains : Nat
  cplto : Nat
  /-- Completion time-outs seen within the last second (R158). -/
  recentTo : List Nat
  perst : Bool
  deriving DecidableEq, Repr

/-- A submission queue. -/
structure SqSt where
  size : Nat
  cq : Nat
  prio : Nat
  head : Nat
  tail : Nat
  base : Nat
  /-- The pen of the Delete I/O Submission Queue that waits for its Held commands (R175). -/
  deleting : Option Nat
  deriving DecidableEq, Repr

/-- A completion queue. -/
structure CqSt where
  size : Nat
  iv : Nat
  ien : Bool
  head : Nat
  tail : Nat
  phase : Bool
  base : Nat
  /-- Completions whose interrupt is held by coalescing, and when the aggregation time ends. -/
  heldIrq : Nat
  heldUntil : Nat
  deriving DecidableEq, Repr

/-- A held Run Module result (Table 5-8). -/
structure RunResult where
  inst : Nat
  check : Nat
  ending : Nat
  ecause : Nat
  status : Word
  bytes : Bytes
  deriving DecidableEq, Repr

/-- One NVMe controller. -/
structure CtrlSt where
  en : Bool
  cc : Nat
  rdy : Bool
  shst : Nat
  aqa : Nat
  asq : Nat
  acq : Nat
  sqs : Tab SqSt
  cqs : Tab CqSt
  /-- Pens of outstanding Asynchronous Event Requests, and events not yet reported (type, information, log page). -/
  aers : List Nat
  aes : List (Nat × Nat × Nat)
  features : Tab Nat
  /-- Feature data structures (Timestamp, APST table, Host Identifier) by feature identifier. -/
  featData : Tab Bytes
  granted : Option (Nat × Nat)
  bme : Bool
  d3hot : Bool
  online : Bool
  errLog : List (Nat × Nat × Nat)
  results : List RunResult
  changedNs : List Nat
  /-- Time of the last I/O command (idle time for APST). -/
  lastIo : Nat
  /-- Requested power state (Set Features or APST). -/
  reqPs : Nat
  /-- Its last operational power state. -/
  opPs : Nat
  /-- Reservation notifications held (log page 0x80). -/
  resvNotes : List (Nat × Nat)
  /-- Its fetch has stopped for want of a pen (R146). -/
  paused : Bool
  deriving DecidableEq, Repr

/-- Stage of a command in its pen. -/
inductive PenStage where
  /-- Fetched; failed one of checks 1 to 7, or takes no hurdle and is ready for its own command row. -/
  | ready
  /-- Its hurdle waits (Table 6-3). -/
  | waiting
  /-- Its hurdle is Held and execution has started, or it executes without a hurdle. -/
  | executing
  /-- A write's data and checks are in; it waits at placement below the floor (R277). -/
  | placeWait
  /-- A deallocate held at TOMB_LIMIT (R232). -/
  | tombWait
  /-- Reads dispatched; IUs outstanding. -/
  | media
  /-- Waits for a commit, a module, a power-state entry or another device action to end. -/
  | external
  /-- Its controller was reset: it ends with its media operations and posts no completion (R146). -/
  | orphan
  deriving DecidableEq, Repr

/-- One IU of a read-type command (Table 1-12). -/
structure IuJob where
  diu : Nat
  liu : Nat
  /-- Map entry value found at lookup, with the read epoch taken with it. -/
  entry : Nat
  epoch : Option Nat
  ticket : Option Nat
  /-- 0 looked up; 1 waiting for a die read or reconstruction; 2 data ready; 3 unrecovered or marked. -/
  state : Nat
  data : Bytes
  hmeta : Bytes
  deriving DecidableEq, Repr

/-- A pen and the command in it (R143, R145). -/
structure PenSt where
  ctrl : Nat
  sq : Nat
  cid : Nat
  /-- Submission entry dwords. -/
  cdw : List Nat
  fetch : Nat
  /-- Taken from the 64 admin pens. -/
  adminPen : Bool
  stage : PenStage
  /-- Data-pointer walk: 0 in progress, 1 ended without error. -/
  walk : Nat
  ius : List IuJob
  /-- Host data of the command, in staging. -/
  data : Bytes
  /-- Transfer retries spent (R156). -/
  retries : Nat
  /-- Completion status and dwords 0 and 1 that wait to be posted (movers halted, completion queue full). -/
  due : Option (Nat × Nat)
  deriving DecidableEq, Repr

/-- A hurdle entry (Table 6-7) with the older entries it waits for. -/
structure HurdleSt where
  fetch : Nat
  first : Nat
  last : Nat
  nsid : Nat
  cntlid : Nat
  kind : Nat
  /-- 1 Waiting, 2 Held. -/
  state : Nat
  waits : List Nat
  placedAt : Nat
  longPosted : Bool
  deriving DecidableEq, Repr

/-- A reservation registrant. -/
structure Registrant where
  ctrl : Nat
  hostId : Bytes
  key : Nat
  deriving DecidableEq, Repr

/-- Reservation state of a namespace. -/
structure ResvSt where
  regs : List Registrant
  holder : Option Nat
  rtype : Nat
  gen : Nat
  ptpl : Bool
  deriving DecidableEq, Repr

/-- A namespace: its format and size, beside its configuration fields (R134, R215). -/
structure NsSt where
  exists_ : Bool
  nsze : Nat
  ncap : Nat
  lbaf : Nat
  extended : Bool
  pi : Nat
  piFirst : Bool
  handles : List Nat
  /-- Key binding (R415). -/
  key : KeyBind
  resv : ResvSt
  deriving DecidableEq, Repr

/-- The NVM subsystem's shared state. -/
structure NvmeSt where
  ctrls : Tab CtrlSt
  pens : Tab PenSt
  hurdles : Tab HurdleSt
  ns : Tab NsSt
  fetchNo : Nat
  poolSq : Nat
  poolCq : Nat
  pauses : Nat
  waits : Nat
  longWaits : Nat
  maxWait : Nat
  /-- Pens whose command completes when the key generations (NSID, index) it retired have been released (Table 16-4). -/
  keyWaits : Tab (List (Nat × Nat))
  /-- State of the most recent sanitize: 0 none, 1 completed. -/
  sanitizeStatus : Nat
  /-- Features of the endurance group (Flexible Data Placement, FDP Events). -/
  groupFeatures : Tab Nat
  fetchStopped : Bool
  lastInstance : Nat
  /-- Run Module commands waiting for a Shepherd core, oldest first: pens. -/
  modQueue : List Nat
  /-- SMART data units and commands counted by the subsystem. -/
  readUnits : Nat
  writeUnits : Nat
  readCmds : Nat
  writeCmds : Nat
  /-- Measurements already passed at this boot: signed bytes and signature block (R393). -/
  seenModules : List Bytes
  /-- Timestamp feature last set: milliseconds, and the device time (ns) it was set at. -/
  timestamp : Option (Nat × Nat)
  deriving DecidableEq, Repr

end Sys2Proof.Machine
end

