-- ==== Sys2Proof/Machine/PartsWalk.lean ====
section
/-! DEFINITION. State of the Walk ring station, the I3C target and the management endpoints (chapter 20). -/

namespace Sys2Proof.Machine

/-- The two out-of-band paths. -/
inductive MPath where
  | walk | i3c
  deriving DecidableEq, Repr

/-- A captured frame (R495): whether it passes the checks of R491, its sender's station and its MCTP packet. -/
structure RxFrame where
  ok : Bool
  station : Nat
  packet : Bytes
  deriving DecidableEq, Repr

/-- A partly reassembled MCTP message (R498). -/
structure MctpPart where
  path : MPath
  /-- Station of the sender on the Walk ring. -/
  station : Nat
  src : Nat
  tag : Nat
  bytes : Bytes
  nextSeq : Nat
  deriving DecidableEq, Repr

/-- A reassembled message waiting to be served (R500). -/
structure MgmtMsg where
  path : MPath
  station : Nat
  src : Nat
  tag : Nat
  mtype : Nat
  body : Bytes
  deriving DecidableEq, Repr

/-- Walk ring station and management state. -/
structure WalkSt where
  joined : Bool
  ringFail : Bool
  i3c : Bool
  dynAddr : Nat
  eidWalk : Nat
  eidI3c : Nat
  rxBad : Nat
  rxDrop : Nat
  badType : Nat
  probeFail : Nat
  /-- Captured frames not yet delivered, oldest first (two at most, R495). -/
  rx : List RxFrame
  /-- Characters in the insertion buffer (R494). -/
  insert : Nat
  /-- The path to the ring is between a SOF and its EOF. -/
  inFrame : Bool
  /-- Frames of its own waiting to be sent. -/
  tx : List Bytes
  /-- Time the current ring check's last probe was sent, and probes sent in it. -/
  probeAt : Option Nat
  probes : Nat
  lastCheck : Nat
  parts : List MctpPart
  msgs : List MgmtMsg
  /-- Requester served last (R500). -/
  lastReq : Nat
  /-- NVMe-MI configuration values by identifier × 256 + port (Configuration Set). -/
  miConfig : Tab Nat
  deriving DecidableEq, Repr

end Sys2Proof.Machine
end

