-- ==== Sys2Proof/Machine/PartsOut.lean ====
section
/-! DEFINITION. What leaves the device: the model's own record of completions, host data, interrupts and management answers. -/

namespace Sys2Proof.Machine

/-- One thing the device has put out on its pins or links. -/
inductive Output where
  /-- A completion queue entry: controller, submission queue, command identifier, status (SCT × 256 + SC) and its dwords 0 and 1
  (dword 1 in bits 63:32). -/
  | completion (ctrl sq cid status dw0 : Nat)
  /-- Data of a command written to host memory, from a byte of its buffer on. -/
  | hostData (ctrl cid offset : Nat) (bytes : Bytes)
  /-- Separate metadata of a command written to host memory, from a byte of its metadata buffer on. -/
  | hostMeta (ctrl cid offset : Nat) (bytes : Bytes)
  /-- An interrupt on a vector of a controller. -/
  | interrupt (ctrl vector : Nat)
  /-- Characters sent on the Walk ring (Table 20-1). -/
  | walkFrame (chars : List (BitVec 10))
  /-- An MCTP message sent on a path to an endpoint. -/
  | mctp (path : MPath) (dst tag mtype : Nat) (bytes : Bytes)
  /-- Bytes returned on SMBus to the Basic Management Command. -/
  | smbus (bytes : Bytes)
  /-- Bytes written to host memory by a MOVE of firmware: function, PCIe address, bytes. -/
  | hostWrite (function address : Nat) (bytes : Bytes)
  /-- The answer of the JTAG mailbox or a TAP. -/
  | jtag (bytes : Bytes)
  /-- The value a core's register read returned: core, address, value. -/
  | regRead (core address value : Nat)
  /-- The answer of a PCIe access the device did not serve: 0 Unsupported Request. -/
  | pcieUnsupported (function : Nat)
  deriving DecidableEq, Repr

end Sys2Proof.Machine
end

