-- ==== Sys2Proof/Machine/PartsPower.lean ====
section
/-! DEFINITION. State of the power sequencer, the power-fail sequence, the clocks, the temperature sensors and the straps (chapters 18, 19, 22). -/

namespace Sys2Proof.Machine

/-- Where the power-fail sequence of Table 1-13 stands. -/
inductive PfPhase where
  | idle
  /-- Steps 1 to 4 done; the journal copies are being programmed. -/
  | dumping
  /-- Steps 5 and 6 done; every paddock except paddock 0 is Off. -/
  | waiting
  deriving DecidableEq, Repr

/-- Pins the board drives or reads (chapter 22). -/
structure PinSt where
  pwrok : Bool
  pwrfailLow : Bool
  thermtripLow : Bool
  bifur : Nat
  dramCfg : Nat
  walkAddr : Nat
  mgmtAddr : Nat
  deriving DecidableEq, Repr

/-- The power sequencer (R454 to R468). -/
structure PwrSt where
  /-- Paddocks that are not On: 1 Retention, 2 Off, 3 changing. -/
  pads : Tab Nat
  current : Nat
  target : Nat
  entering : Bool
  suspended : Bool
  step : Nat
  wakeCause : Nat
  wakePort : Nat
  wakes : Nat
  entries : Nat
  suspends : Nat
  standby : Bool
  /-- The Set Features commands that wait for entry or exit to end, by pen. -/
  pens : List Nat
  /-- e11 is asserted on every core. -/
  wakeEvt : Bool
  /-- Background work allowed by NOPPME until this time (R461). -/
  noppUntil : Option Nat
  /-- The management path is up for a request and re-enters the state after it (R466). -/
  mgmtUp : Bool
  pf : PfPhase
  /-- e10 is asserted. -/
  pfEvt : Bool
  /-- PWRFAIL_N was latched during a clock hold (R478). -/
  pfLatched : Bool
  /-- Held Off by the thermal trip (R487). -/
  tripHold : Bool
  deriving DecidableEq, Repr

/-- Gate states (Table 19-5). -/
inductive GateState where
  | running | draining | gated | waking
  deriving DecidableEq, Repr

/-- A gateable block that is not simply Running, with its draining start and the transactions held at its port. -/
structure GateSt where
  st : GateState
  since : Nat
  held : Nat
  deriving DecidableEq, Repr

/-- Clocks (R469 to R480). -/
structure ClkSt where
  fioEn : Bool
  x0En : Bool
  x1En : Bool
  fioRdy : Bool
  x0Rdy : Bool
  x1Rdy : Bool
  pllaRdy : Bool
  pllbRdy : Bool
  /-- 0 PLL A, 1 PLL B. -/
  root : Nat
  refA : Nat
  refB : Nat
  aonSio : Bool
  onFio : Bool
  noXtal : Bool
  hold : Bool
  holdSince : Nat
  busy : Bool
  status : Nat
  monLoss : Bool
  monFio : Bool
  fioBad : Bool
  holdUs : Nat
  trips : Nat
  gates : Tab GateSt
  gateId : Nat
  gateTo : Nat
  /-- Power-on clock sequence of R471 completed. -/
  started : Bool
  deriving DecidableEq, Repr

/-- A temperature sensor (R481, R482). Readings in steps of 0.125 °C. -/
structure Sensor where
  samples : List Int
  bad : Nat
  good : Nat
  fault : Bool
  /-- Samples in a row at 125 °C or more. -/
  hot : Nat
  /-- Band applied by the compensator. -/
  band : Nat
  deriving DecidableEq, Repr

/-- Temperature and throttling (R481 to R487). -/
structure ThmSt where
  sensors : Tab Sensor
  level : Nat
  trip : Bool
  composite : Int
  /-- Trim window bytes as written, and as applied. -/
  window : Tab Nat
  applied : Tab Nat
  loadDue : Bool
  loaded : Bool
  /-- NAND die readings in degrees, by die. -/
  nand : Tab Int
  /-- Time since which every valid sensor reads below 95 °C. -/
  coolSince : Option Nat
  /-- Throttle alert e12 asserted on the Shepherd cores. -/
  alert : Bool
  /-- SMART thermal management transition counts and total times (s) for levels 1 and 2. -/
  trans1 : Nat
  trans2 : Nat
  time1 : Nat
  time2 : Nat
  deriving DecidableEq, Repr

end Sys2Proof.Machine
end

