-- ==== Sys2Proof/Machine/Dev.lean ====
section
/-! DEFINITION. The device: every register, memory, queue, counter and pin the manual gives the T9600, as plain data, and its state
at reset. -/

namespace Sys2Proof.Machine

/-- The device without its command queue. -/
structure Dev where
  /-- Device time, ns. -/
  now : Nat
  /-- Time for which the paddock clocks have run, ns (paused while they are held, R478). -/
  run : Nat
  /-- Counter of the free values taken so far (the model's own). -/
  free : Nat
  /-- What has left the device, newest first (the model's own record). -/
  outputs : List Output
  /-- Byte-addressed memories of Table 1-6, in canonical form. -/
  mem : List Host.Cell
  /-- Addresses of the raddle-marked words, rising (R321, R326). -/
  marks : List Nat
  /-- Cores: 0 the Fold, 1 to 8 Shepherd 0 to 7, 9 to 40 Drover 0 to 31. -/
  cores : Tab Core
  cfg : CfgSt
  crook : CrookSt
  evt : EvtSt
  hub : HubSt
  media : MediaSt
  nvme : NvmeSt
  links : Tab LinkSt
  drove : DroveSt
  mapc : MapcSt
  dram : DramSt
  integ : IntegSt
  fold : FoldSt
  keys : KeySt
  spdm : SpdmSt
  tcg : TcgSt
  aes : AesSt
  dig : Tab DigSlot
  pka : PkaSt
  ilu : IluSt
  pins : PinSt
  pwr : PwrSt
  clk : ClkSt
  thm : ThmSt
  walk : WalkSt
  deriving DecidableEq, Repr

end Sys2Proof.Machine
end

