-- ==== Sys2Proof/Machine/Init.lean ====
section
/-! DEFINITION. Reset values of every part of the device: what a register reads and what a memory holds right after power-on. Where
the manual gives no value the value is the model's (assumption log 3). -/

namespace Sys2Proof.Machine

/-- The kind of a core by its number (R36, Table 2-1): 0 Fold, 1 to 8 Shepherd, 9 to 40 Drover. -/
def kindOf (c : Nat) : CoreKind := if c = 0 then .fold else if c ≤ 8 then .shepherd else .drover

/-- CORE_ID[15:0] of a core (R40: type in [7:0], index in [15:8]). -/
def coreIdOf (c : Nat) : Nat :=
  match kindOf c with
  | .fold => 0
  | .shepherd => (c - 1) * 256 + 1
  | .drover => (c - 9) * 256 + 2

/-- A core held in reset. EVTRAP resets to bit 10, and on the Fold to bits 6 and 10 (Table 2-4). -/
def Core.init (c : Nat) : Core where
  run := .inReset
  level := if c = 0 then .f else .v
  pc := 0
  regs := Vector.replicate 32 0
  epc := 0
  ecause := 0
  etval := 0
  estat := 0
  tvec := 0
  evtrap := if c = 0 then 0x440 else 0x400
  timercmp := 0
  pwrmode := 0
  save0 := 0
  save1 := 0
  instret := 0
  modinst := 0
  releasedAt := 0
  msgs := []
  moves := []
  moveDone := []
  pars := []
  parDone := []
  fopDone := []
  pages := []
  modRun := none
  e9 := false
  e14 := false

/-- An event source after a reset that restarts the Fold boot ROM (R507). -/
def SrcSt.init : SrcSt where
  next := 1
  fifo := []
  hist := []
  handling := false
  overflow := 0
  lost := 0
  dropped := false
  head := none
  seqHiLatch := 0
  base := 0

/-- Event state at power-on (Tables 21-8, 21-9). -/
def EvtSt.init : EvtSt where
  srcs := []
  fatal := false
  fatalCause := 0
  fatalSource := 0
  rstLast := 1
  rstInplace := false
  rstWasFatal := false
  rstCollies := 0
  rstFold := 0
  rstNssr := 0
  collieArmed := false
  colliePet := 0
  collieNs := 5000000000
  colliePre := false
  seqn := .none
  doubleTrapResets := 0

/-- Configuration at power-on: the commit counter is 1 (R113). -/
def CfgSt.init : CfgSt where
  committed := []
  versions := []
  applied := []
  due := []
  counter := 1
  txns := []
  lastHandle := 0
  orders := 0
  conflicts := 0
  drains := 0
  countHiLatch := 0

/-- The Crook is free (R124). -/
def CrookSt.init : CrookSt := { holder := none, leaseEnd := 0, expired := 0, forced := 0 }

/-- A die before its identification. -/
def DieSt.init : DieSt :=
  { ops := [], wl := 0, nblocks := 0, id := 0, timeouts := 0, uncorr := [], lost := false, needsReset := false }

/-- A channel before bring-up. -/
def ChanSt.init : ChanSt :=
  { rate := 0, ext := false, up := false, stepped := false, retrains := 0, diemap := 0, release := [], retried := 0,
    hardfail := 0, softok := 0, softfail := 0, faultTrain := false, faultLink := false, faultSusp := false, suspect := 0,
    levels := [], onfiRate := 9, extRates := 0, crcErrs := 0, downAt := none, lastDie := 0, decodeFail := false,
    hotLimited := false }

/-- The rings of a Drover core at reset. -/
def DrvSt.init : DrvSt :=
  { workTail := 0, workHead := 0, resTail := 0, resHead := 0, held := [], early := [], quiescing := false, quiesced := false, quiesceAt := 0 }

/-- A link that is down. -/
def LinkSt.init : LinkSt :=
  { rate := 0, width := 0, flit := false, degraded := false, l12 := false, retrains := 0, cplto := 0, recentTo := [], perst := false }

/-- A disabled controller. -/
def CtrlSt.init : CtrlSt :=
  { en := false, cc := 0, rdy := false, shst := 0, aqa := 0, asq := 0, acq := 0, sqs := [], cqs := [], aers := [], aes := [],
    features := [], featData := [], granted := none, bme := false, d3hot := false, online := true, errLog := [], results := [],
    changedNs := [], lastIo := 0, reqPs := 0, opPs := 0, resvNotes := [], paused := false }

/-- No reservation. -/
def ResvSt.init : ResvSt := { regs := [], holder := none, rtype := 0, gen := 0, ptpl := false }

/-- A namespace that does not exist. -/
def NsSt.init : NsSt :=
  { exists_ := false, nsze := 0, ncap := 0, lbaf := 0, extended := false, pi := 0, piFirst := false, handles := [],
    key := { mode := 1, cur := 255, gens := [] }, resv := ResvSt.init }

/-- The NVM subsystem at power-on. -/
def NvmeSt.init : NvmeSt :=
  { ctrls := [], pens := [], hurdles := [], ns := [], fetchNo := 0, poolSq := 8192, poolCq := 8192, pauses := 0, waits := 0,
    longWaits := 0, maxWait := 0, keyWaits := [], sanitizeStatus := 0, groupFeatures := [], fetchStopped := false, lastInstance := 0,
    modQueue := [], readUnits := 0, writeUnits := 0, readCmds := 0, writeCmds := 0, seenModules := [],
    timestamp := none }

/-- The erase log before any page is written. -/
def ElogSt.init : ElogSt :=
  { pending := [], seq := 0, base := 0, oneCopy := false, census := false, censusFirst := 0, censusLeft := 0, stalled := false,
    pagesSince := 0, pos0 := 0, pos1 := 0, anyCensus := false }

/-- The drove engine at power-on. -/
def DroveSt.init : DroveSt :=
  { droves := [], units := [], lamb := [], lambNext := 0, wsn := 0, closeNum := 0, serialNum := 0, ticket := 0, tombs := [],
    fixed := none, dumps := [], dumpSeq := 0, stopped := false, gensHeld := 0, replayDone := false, replayRaddled := false,
    replayLost := false, replayFromB := 0, cycles := [], elog := ElogSt.init, epoch := 0, epochCounts := [], hostWaits := 0,
    retiredCount := 0, passes := [], switched := 0, evacuated := 0, declPending := [], retireMarks := [], begunBlks := [], softCounts := [],
    s0 := 0, hostBytes := 0, mediaBytes := 0, lastHostAt := [], recon := [], integrityLost := false, integrityNs := [],
    wearOn := [], replayExcl := [], replayUnits := [], reconEvt := false, closedEvt := false }

/-- MAPC at power-on. -/
def MapcSt.init : MapcSt :=
  { enable := false, state := 0, flushDone := false, cleanDone := false, repairEvt := false, lookups := 0,
    misses := 0, lines := [], plru := [], repairs := [], waiting := [], answer := none, rbPhase := 0, rbPass := 0, rbPasses := 0,
    rbFallbacks := 0, rbMs := 0 }

/-- A DRAM channel before training. -/
def DramChan.init : DramChan :=
  { up := false, stepped := false, failed := false, due := false, busy := false, dueAt := 0, startQueued := false, ppr := 0,
    ce := 0, ue := 0, refreshes := 0, zqPending := false }

/-- The DRAM controller at power-on. -/
def DramSt.init : DramSt :=
  { order := 0, ref2x := false, ok1x := 0, retrains := 0, chans := [], maxlat := [], late := [], remap := [], ceLog := [] }

/-- Integrity state at power-on. -/
def IntegSt.init : IntegSt :=
  { foldSram := false, sram := false, dram := false, remapErr := false, pprFail := false, ce := 0, ue := 0, hard := 0,
    sramRemap := [], nandPct := 0, nandLate := false, dramPct := 0, passes := 0, recal := 0, retireMark := 0, passStart := none,
    mdi := 0, recalDies := [] }

/-- A key slot that holds nothing. -/
def KeySlot.init : KeySlot := { st := .empty, inUse := 0, content := 0 }

/-- The KEY window at power-on. -/
def KeySt.init : KeySt :=
  { slots := [], cmdSlot := 0, busy := false, refused := false, uaddr := 0, uop := none, ustatus := 0, done := false, caches := [] }

/-- An unprogrammed OTP. -/
def OtpSt.init : OtpSt :=
  { vp := 0, decom := 0, vrevoke := 0, serial := [], udsWrap := [], vendorKeys := [], pufHelper := [] }

/-- An empty Tally ring. -/
def TallySt.init : TallySt :=
  { recs := [], nextSlot := 0, head := 0, rseq := 0, prev := [], wrapped := false, appFail := 0, coalesced := 0,
    lastRefusal := none, bootSlot := none, rseqHiLatch := 0, leafHiLatch := 0 }

/-- LMS state before the first reservation. -/
def LmsSt.init : LmsSt := { gen := 0, next := 0, cur := 0, lim := 0, builtTo := 0 }

/-- The Fold at power-on of a new device: Blank. -/
def FoldSt.init : FoldSt :=
  { otp := OtpSt.init, lcValid := false, ownerCtr := 0, ownerA := none, ownerB := none, lcOwed := none, decomLeft := false,
    endorse := none, idChain := [], hssCert := [], nonce := none, reqStatus := 0xFF, reqType := 0, scope := 0, tamper := 0,
    tamperResets := 0, latched := false, healthy := false, rctFail := false, aptFail := false, reseeds := 0, failedAt := none,
    reseedAt := 0, idPriv := [], hssSeed := [], hssI := [], kSeal := [],
    kBlob := [], cdi1 := [], alias1 := [], alias2 := [], alias1Cert := [], stage := 0, code := 0,
    halted := false, haltCount := 0, bootCtr := 0, bootReason := 1, comps := [], notes := [], readyDone := false,
    configDigest := [], vendorCtrs := [], ownerCtrs := [], tally := TallySt.init, lms := LmsSt.init, meas := [], measTicket := 0,
    inReset := true, tapOpen := 0, tokenIn := false, refusals := 0 }

/-- A channel die's DRBG before instantiation. -/
def AesDie.init : AesDie := { rngOk := false, late := false, halted := false, starved := false, reseedAt := 0 }

/-- The AES engines at power-on. -/
def AesSt.init : AesSt := { dies := [], misses := [], stalls := [] }

/-- A Free digest slot; MATCH_N resets to 1 (Table 16-18). -/
def DigSlot.init : DigSlot :=
  { st := .free, owner := 0, alg := 0, hmac := false, keyLen := 0, outLen := 0, msg := [], words := 0, dataLo := 0, lastCnt := 0,
    lastLo := 0, result := [], expect := [], matched := false, matchN := true, cmpDone := false, errCtl := false,
    errCount := false, errEarly := false, errSeq := false }

/-- The public-key engines at power-on. -/
def PkaSt.init : PkaSt := { desc := 0, ec := none, hbs := none, result := 0, op := 0, done := false }

/-- An idle Iluell port. -/
def IluPort.init : IluPort :=
  { seq := .idle, owner := 0, code := 0, units := 0, addr := 0, wait := none, status := 0, seqErr := 0 }

/-- An erased sector that has never been erased before. -/
def SectSt.init : SectSt := { st := 0, erases := 0 }

/-- The Iluell store of a new device: GAP at position 1,175 (Table 17-18). -/
def IluSt.init : IluSt :=
  { nor := [], sects := [], remap := [], sparesUsed := 0, ports := [], prog := none, erase := none, suspPending := false, pfHold := false,
    rstHold := false, gap := 1175, start := 0, sinceMove := 0, moveDue := false, moving := false, reerase := [], done0 := false,
    dlOwner := none, dlLen := 0, act := none }

/-- Pins before PWROK rises. -/
def PinSt.init : PinSt :=
  { pwrok := false, pwrfailLow := false, thermtripLow := false, bifur := 0, dramCfg := 0, walkAddr := 0, mgmtAddr := 0 }

/-- The power sequencer at power-on: every paddock On (Table 18-10). -/
def PwrSt.init : PwrSt :=
  { pads := [], current := 0, target := 0, entering := false, suspended := false, step := 0, wakeCause := 0, wakePort := 0,
    wakes := 0, entries := 0, suspends := 0, standby := false, pens := [], wakeEvt := false, noppUntil := none, mgmtUp := false,
    pf := .idle, pfEvt := false, pfLatched := false, tripHold := false }

/-- Clocks at power-on: paddock 0 on SIO (Table 19-9). -/
def ClkSt.init : ClkSt :=
  { fioEn := false, x0En := false, x1En := false, fioRdy := false, x0Rdy := false, x1Rdy := false, pllaRdy := false,
    pllbRdy := false, root := 0, refA := 0, refB := 0, aonSio := true, onFio := false, noXtal := false, hold := false,
    holdSince := 0, busy := false, status := 0, monLoss := false, monFio := false, fioBad := false, holdUs := 0, trips := 0,
    gates := [], gateId := 0, gateTo := 0, started := false }

/-- A sensor before its first sample. -/
def Sensor.init : Sensor := { samples := [], bad := 0, good := 0, fault := false, hot := 0, band := 0 }

/-- Temperatures at power-on. -/
def ThmSt.init : ThmSt :=
  { sensors := [], level := 0, trip := false, composite := 0, window := [], applied := [], loadDue := false, loaded := false,
    nand := [], coolSince := none, alert := false, trans1 := 0, trans2 := 0, time1 := 0, time2 := 0 }

/-- The Walk station at power-on: its pass switch closed (R496). -/
def WalkSt.init : WalkSt :=
  { joined := false, ringFail := false, i3c := false, dynAddr := 0, eidWalk := 0, eidI3c := 0, rxBad := 0, rxDrop := 0,
    badType := 0, probeFail := 0, rx := [], insert := 0, inFrame := false, tx := [], probeAt := none, probes := 0, lastCheck := 0,
    parts := [], msgs := [], lastReq := 0, miConfig := [] }

/-- The 41 cores in reset. -/
def coresInit : Tab Core := (List.range 41).map (fun c => (c, Core.init c))

/-- A new device at its first power-on, before PWROK rises. -/
def Dev.init : Dev where
  now := 0
  run := 0
  free := 0
  outputs := []
  mem := []
  marks := []
  cores := coresInit
  cfg := CfgSt.init
  crook := CrookSt.init
  evt := EvtSt.init
  hub := { mods := [], degraded := 0 }
  media := { nand := [], dies := [], chans := [], drvs := [], jobs := [] }
  nvme := NvmeSt.init
  links := []
  drove := DroveSt.init
  mapc := MapcSt.init
  dram := DramSt.init
  integ := IntegSt.init
  fold := FoldSt.init
  keys := KeySt.init
  spdm := { conns := [], displaced := [], replies := [] }
  tcg := { session := none, auths := [], ranges := [], active := false, replies := [] }
  aes := AesSt.init
  dig := []
  pka := PkaSt.init
  ilu := IluSt.init
  pins := PinSt.init
  pwr := PwrSt.init
  clk := ClkSt.init
  thm := ThmSt.init
  walk := WalkSt.init

end Sys2Proof.Machine
end

