-- ==== Sys2Proof/Machine/Ops.lean ====
section
/-! DEFINITION. The shared operations: memory and raddle marks, cores, configuration values, event records and device fatal,
completions, time and free values. Every meaning is written over these. -/

namespace Sys2Proof.Machine

/-! ### Memory (R20, R331): a canonical list of cells; an unlisted address reads zero. -/

/-- The byte at an address. -/
def memGet : List Host.Cell → Nat → Byte
  | [], _ => 0
  | (a, b) :: t, k => if a = k then b else memGet t k

/-- Inserts a cell, keeping addresses rising. -/
def memPut (k : Nat) (v : Byte) : List Host.Cell → List Host.Cell
  | [] => [(k, v)]
  | (a, b) :: t =>
    if k < a then (k, v) :: (a, b) :: t
    else if k = a then (k, v) :: t
    else (a, b) :: memPut k v t

/-- Removes the cell at an address. -/
def memDrop (k : Nat) : List Host.Cell → List Host.Cell
  | [] => []
  | (a, b) :: t => if a = k then t else (a, b) :: memDrop k t

/-- Writes one byte in canonical form: a zero byte removes the entry. -/
def memSet (k : Nat) (v : Byte) (m : List Host.Cell) : List Host.Cell :=
  if v = 0 then memDrop k m else memPut k v m

/-- Addresses rise strictly from a bound, and no listed byte is zero. -/
def memWfFrom : Nat → List Host.Cell → Bool
  | _, [] => true
  | lo, (a, b) :: t => decide (lo ≤ a) && b != 0 && memWfFrom (a + 1) t

/-- The canonical form of memory. -/
def memWf (m : List Host.Cell) : Bool := memWfFrom 0 m

/-- Writes a run of bytes upward from an address. -/
def memSetRun : Nat → Bytes → List Host.Cell → List Host.Cell
  | _, [], m => m
  | k, b :: bs, m => memSetRun (k + 1) bs (memSet k b m)

/-- Reads `n` bytes upward from an address. -/
def memRun (m : List Host.Cell) : Nat → Nat → Bytes
  | _, 0 => []
  | k, n + 1 => memGet m k :: memRun m (k + 1) n

/-- Reads one byte of the device's byte-addressed memories. -/
def Dev.byte (d : Dev) (a : Nat) : Byte := memGet d.mem a

/-- Reads a run of bytes. -/
def Dev.bytes (d : Dev) (a n : Nat) : Bytes := memRun d.mem a n

/-- Writes a run of bytes. -/
def Dev.putBytes (d : Dev) (a : Nat) (b : Bytes) : Dev := { d with mem := memSetRun a b d.mem }

/-! ### Raddle marks (R321 to R326): the addresses of the marked 8-byte words. -/

/-- A word address is inserted once, in order. -/
def markPut (k : Nat) : List Nat → List Nat
  | [] => [k]
  | a :: t => if k < a then k :: a :: t else if k = a then a :: t else a :: markPut k t

/-- The word that holds an address is marked. -/
def Dev.marked (d : Dev) (a : Nat) : Bool := d.marks.contains (a / 8 * 8)

/-- A word of a run of addresses is marked. -/
def Dev.markedRun (d : Dev) (a n : Nat) : Bool := d.marks.any (fun w => decide (a / 8 * 8 ≤ w) && decide (w < a + n))

/-- Marks the word that holds an address. -/
def Dev.mark (d : Dev) (a : Nat) : Dev := { d with marks := markPut (a / 8 * 8) d.marks }

/-- Clears the marks of the whole words of a run. -/
def Dev.clearMarks (d : Dev) (a n : Nat) : Dev :=
  { d with marks := d.marks.filter (fun w => decide (w < a) || decide (a + n < w + 8)) }

/-- A mover's or an engine's write: the marks of the words it fills completely end (R327, R329). -/
def Dev.fillBytes (d : Dev) (a : Nat) (b : Bytes) : Dev := (d.putBytes a b).clearMarks a b.length
/-- The marks of a run carried word for word to another place (R327). -/
def Dev.carryRun (d : Dev) (src dst n : Nat) : Dev :=
  (d.marks.filter (fun w => decide (src ≤ w) && decide (w < src + n))).foldl (fun (x : Dev) w => x.mark (dst + (w - src))) d

/-! ### Where the memories lie (Tables 1-6, 1-8). -/

/-- Direct address of a core's scratch; the Fold's lies in the Fold private region (DESIGN CHOICE, assumption log 11). -/
def scratchBase (c : Nat) : Nat :=
  match kindOf c with
  | .fold => 0x80000
  | .shepherd => 0x8000000 + (c - 1) * 0x100000
  | .drover => 0x40000000 + (c - 9) / 8 * 0x10000000 + (c - 9) % 8 * 0x40000

/-- Size of a core's scratch (R22). -/
def scratchSize (c : Nat) : Nat :=
  match kindOf c with
  | .fold => 0x80000
  | .shepherd => 0x100000
  | .drover => 0x40000

/-- Start of the local scratch alias (R22). -/
def aliasBase : Nat := 0xFFFFFFF00000

/-- Offset in a core's own scratch of an internal address, through the alias or directly. -/
def scratchOff (c a : Nat) : Option Nat :=
  if aliasBase ≤ a ∧ a < aliasBase + scratchSize c then some (a - aliasBase)
  else if scratchBase c ≤ a ∧ a < scratchBase c + scratchSize c then some (a - scratchBase c)
  else none

/-- A run of addresses lies in a core's own scratch; its direct address. -/
def inScratch (c a n : Nat) : Option Nat :=
  match scratchOff c a with
  | none => none
  | some o => if o + n ≤ scratchSize c then some (scratchBase c + o) else none

/-- Start of staging SRAM. -/
def stagingBase : Nat := 0x2000000
/-- Start of DRAM. -/
def dramBase : Nat := 0x4000000000
/-- Installed DRAM in GiB by the DRAM_CFG strap (Table 13-1); a reserved strap value installs none (DESIGN CHOICE, assumption log 12). -/
def dramGib (cfg : Nat) : Nat :=
  match cfg with
  | 0 => 64
  | 1 => 128
  | 2 => 128
  | 3 => 128
  | 4 => 256
  | 5 => 256
  | _ => 0
/-- DRAM channels present by the strap. -/
def dramChannels (cfg : Nat) : Nat :=
  match cfg with
  | 0 => 2
  | 1 => 4
  | 2 => 2
  | 3 => 2
  | 4 => 4
  | 5 => 4
  | _ => 0
/-- Installed DRAM in bytes. -/
def Dev.dramSize (d : Dev) : Nat := dramGib d.pins.dramCfg * 0x40000000
/-- Start of the reserved metadata and rebuild region: the top 16 GiB (R21). -/
def Dev.reservedBase (d : Dev) : Nat := dramBase + (d.dramSize - 0x400000000)
/-- Base of a channel's buffer (Table 1-8). -/
def chanBuffer (ch : Nat) : Nat := 0x40000000 + ch / 32 * 0x10000000 + 0x1000000 + ch % 32 * 0x80000
/-- Base of a pen's 256 bytes. -/
def penBase (p : Nat) : Nat := 0x1000000 + p * 256

/-! ### Cores -/

/-- A core's state. -/
def Dev.core (d : Dev) (c : Nat) : Core := d.cores.get (Core.init c) c

/-- Replaces a core's state. -/
def Dev.setCore (d : Dev) (c : Nat) (k : Core) : Dev := { d with cores := d.cores.set c k }

/-- Changes a core's state. -/
def Dev.modCore (d : Dev) (c : Nat) (f : Core → Core) : Dev := d.setCore c (f (d.core c))

/-- A core's general register; g0 reads as zero (R40). -/
def Core.reg (k : Core) (r : BitVec 5) : Word := if r = 0 then 0 else k.regs[r.toNat]'(r.isLt)

/-- Writes a general register; a write to g0 is discarded (R40). -/
def Core.setReg (k : Core) (r : BitVec 5) (v : Word) : Core :=
  if r = 0 then k else { k with regs := k.regs.set r.toNat v r.isLt }

/-- The Shepherd cores. -/
def shepherds : List Nat := (List.range 8).map (· + 1)
/-- The Drover cores. -/
def drovers : List Nat := (List.range 32).map (· + 9)
/-- The Drover core that serves a channel (d serves 4d to 4d + 3). -/
def droverOf (ch : Nat) : Nat := 9 + ch / 4

/-- Latches input e9 of a core. -/
def Dev.raiseE9 (d : Dev) (c : Nat) : Dev := d.modCore c (fun k => { k with e9 := true })
/-- Latches input e14 of a core. -/
def Dev.raiseE14 (d : Dev) (c : Nat) : Dev := d.modCore c (fun k => { k with e14 := true })

/-- A core executes or could execute: released and not halted. -/
def Core.released (k : Core) : Bool := k.run != .inReset && k.run != .halted

/-! ### Free values, outputs and time -/

/-- Takes one free value. -/
def Dev.tickFree (d : Dev) : Dev := { d with free := d.free + 1 }

/-- Bytes drawn from the Fold DRBG. -/
def Dev.drawn (d : Dev) (n : Nat) : Bytes := (List.range n).map (Config.drbgByte d.free)

/-- Puts something out. -/
def Dev.emit (d : Dev) (o : Output) : Dev := { d with outputs := o :: d.outputs }

/-- Running time of an O module passes while it has its core, in a service call too, but not while an event trap has preempted it (R121). -/
def Core.spend (k : Core) (ns : Nat) : Core :=
  match k.modRun with
  | none => k
  | some m => if k.level = .v ∧ k.ecause.toNat % 65536 = 9 then k else { k with modRun := some { m with usedNs := m.usedNs + ns } }

/-- Advances device time to a moment; the clocked time, and with it the running time of modules, follows unless the clocks are held (R478). -/
def Dev.advanceTo (d : Dev) (t : Nat) : Dev :=
  if t ≤ d.now then d
  else if d.clk.hold then { d with now := t }
  else { d with now := t, run := d.run + (t - d.now), cores := d.cores.mapVals (fun _ k => k.spend (t - d.now)) }

/-- One idle tick: 4 ns, one step of TIME (R42). -/
def tickNs : Nat := 4

/-! ### Configuration values -/

/-- The reset value of a configuration field. -/
def Dev.fieldReset (d : Dev) (id : Nat) : Nat :=
  match fieldInfo d.pins.bifur id with
  | some i => i.reset
  | none => 0

/-- The committed value of a configuration field (R116). -/
def Dev.committed (d : Dev) (id : Nat) : Nat :=
  match d.cfg.committed.get? id with
  | some v => v.toNat
  | none => d.fieldReset id

/-- The value a block has applied. -/
def Dev.applied (d : Dev) (id : Nat) : Nat :=
  match d.cfg.applied.get? id with
  | some v => v.toNat
  | none => d.fieldReset id

/-- The value of block `blk`, field `f`, as the block runs with it. -/
def Dev.cfgv (d : Dev) (blk f : Nat) : Nat := d.applied (cfgId blk f)

/-- Sets a read-only field that hardware maintains. -/
def Dev.setRoField (d : Dev) (id v : Nat) : Dev :=
  { d with cfg := { d.cfg with committed := d.cfg.committed.set id (BitVec.ofNat 64 v),
                               applied := d.cfg.applied.set id (BitVec.ofNat 64 v) } }

/-! ### Event records (R506 to R514) -/

/-- The handling core of a source (Table 21-1); none where the number names no source. -/
def handlerOf (s : Nat) : Option Nat :=
  if s = 0x001 ∨ s = 0x007 ∨ s = 0x008 ∨ s = 0x00F then some 0
  else if s ≤ 0x004 ∨ s = 0x00B ∨ s = 0x00C ∨ s = 0x00D ∨ s = 0x010 ∨ s = 0x011 then some 1
  else if s = 0x005 ∨ s = 0x006 then some 2
  else if s = 0x009 ∨ s = 0x00A then some 3
  else if s = 0x00E ∨ (0x014 ≤ s ∧ s ≤ 0x017) then some 4
  else if 0x018 ≤ s ∧ s ≤ 0x01B then some (5 + (s - 0x018))
  else if 0x020 ≤ s ∧ s ≤ 0x027 then some (1 + (s - 0x020 + 1) % 8)
  else if 0x030 ≤ s ∧ s ≤ 0x036 then some 4
  else if 0x040 ≤ s ∧ s ≤ 0x05F then some (1 + (s - 0x040) % 8)
  else if 0x100 ≤ s ∧ s ≤ 0x17F then some (9 + (s - 0x100) / 4)
  else none

/-- A source's state. -/
def Dev.src (d : Dev) (s : Nat) : SrcSt := d.evt.srcs.get SrcSt.init s

/-- Replaces a source's state. -/
def Dev.setSrc (d : Dev) (s : Nat) (x : SrcSt) : Dev := { d with evt := { d.evt with srcs := d.evt.srcs.set s x } }

/-- Puts a record into a history ring of 64 (R509). -/
def SrcSt.pushHist (x : SrcSt) (r : EvRec) : SrcSt :=
  if x.hist.length < 64 then { x with hist := x.hist ++ [r] }
  else { x with hist := x.hist.drop 1 ++ [r], lost := x.lost + 1 }

/-- A class 0 record straight to the history ring. -/
def Dev.postInfo (d : Dev) (s obj arg cond : Nat) : Dev :=
  let x := d.src s
  let r : EvRec := { seq := x.next, ltime := d.run - x.base, obj := obj, arg := arg, cond := cond, cls := 0, flags := 0, postedAt := d.run }
  d.setSrc s ({ x with next := x.next + 1 }.pushHist r)

/-- Device fatal is entered (R513): the first cause stands, and a class 0 record of condition 0x12 goes to source 0x000. -/
def Dev.enterFatal (d : Dev) (cause source : Nat) : Dev :=
  if d.evt.fatal then d
  else
    let d1 := { d with evt := { d.evt with fatal := true, fatalCause := cause, fatalSource := source } }
    { d1 with drove := { d1.drove with stopped := true }, nvme := { d1.nvme with fetchStopped := true } }.postInfo 0 source cause 0x12

/-- Why a class 3 record enters device fatal when it is posted, if it does (R512, R513): dropped or posted while HANDLING, dropped
while HANDLING is clear, or its handler halted. A Fold double trap never does (R511). -/
def fatalCauseOf (cls cond src : Nat) (handling full handlerHalted : Bool) : Option Nat :=
  if cls ≠ 3 ∨ (src = 1 ∧ cond = 8) then none
  else if handling then some 1
  else if full then some 6
  else if handlerHalted then some 2
  else none

/-- Posts a record (R507 to R513). -/
def Dev.post (d : Dev) (s obj arg cond cls : Nat) : Dev :=
  let x := d.src s
  let full := decide (8 ≤ x.fifo.length)
  let halted := match handlerOf s with
    | some h => (d.core h).run == .halted
    | none => false
  let cause := if cls < 2 then none else fatalCauseOf cls cond s x.handling full halted
  let flags := bit (cause.isSome && !full) + 2 * bit x.dropped
  let r : EvRec := { seq := x.next, ltime := d.run - x.base, obj := obj, arg := arg, cond := cond, cls := cls,
                     flags := if cls < 2 then 0 else flags, postedAt := d.run }
  let x1 := { x with next := x.next + 1 }
  let x2 :=
    if cls < 2 then x1.pushHist r
    else if full then { x1 with overflow := Nat.min (x1.overflow + 1) 0xFFFF, dropped := true }
    else { x1 with fifo := x1.fifo ++ [r], dropped := false }
  let d1 := d.setSrc s x2
  match cause with
  | some k => d1.enterFatal k s
  | none => d1

/-! ### Controllers, pens and completions -/

/-- A controller's state, by CNTLID − 1. -/
def Dev.ctrl (d : Dev) (k : Nat) : CtrlSt := d.nvme.ctrls.get CtrlSt.init k
/-- Replaces a controller's state. -/
def Dev.setCtrl (d : Dev) (k : Nat) (c : CtrlSt) : Dev := { d with nvme := { d.nvme with ctrls := d.nvme.ctrls.set k c } }
/-- Changes a controller's state. -/
def Dev.modCtrl (d : Dev) (k : Nat) (f : CtrlSt → CtrlSt) : Dev := d.setCtrl k (f (d.ctrl k))
/-- The command in a pen. -/
def Dev.pen (d : Dev) (p : Nat) : Option PenSt := d.nvme.pens.get? p
/-- Replaces the command in a pen. -/
def Dev.setPen (d : Dev) (p : Nat) (x : PenSt) : Dev := { d with nvme := { d.nvme with pens := d.nvme.pens.set p x } }
/-- Changes the command in a pen, if there is one. -/
def Dev.modPen (d : Dev) (p : Nat) (f : PenSt → PenSt) : Dev :=
  match d.pen p with
  | some x => d.setPen p (f x)
  | none => d

/-- Dword i of the submission entry in a pen. -/
def PenSt.dw (p : PenSt) (i : Nat) : Nat := p.cdw.getD i 0
/-- Opcode of the command. -/
def PenSt.opcode (p : PenSt) : Nat := bitsOf (p.dw 0) 7 0
/-- The command stands in the admin queue. -/
def PenSt.isAdmin (p : PenSt) : Bool := p.sq == 0
/-- NSID of the command. -/
def PenSt.nsid (p : PenSt) : Nat := p.dw 1

/-- Status codes (SCT × 256 + SC). -/
def scOk : Nat := 0x000
def scInvalidOpcode : Nat := 0x001
def scInvalidField : Nat := 0x002
def scIdConflict : Nat := 0x003
def scDataTransfer : Nat := 0x004
def scInternal : Nat := 0x006
def scAbortRequested : Nat := 0x007
def scSqDeleted : Nat := 0x008
def scInvalidNs : Nat := 0x00B
def scSequence : Nat := 0x00C
def scDenied : Nat := 0x015
def scAccessDenied : Nat := 0x286

/-- The front end posts no completion: power-fail, a Collie sequence, or device fatal (R34, R514, R517). -/
def Dev.postingStopped (d : Dev) : Bool :=
  d.evt.fatal || d.pwr.pf != .idle || d.evt.seqn != .none

/-- Link index of a controller (port × 2, plus 1 for half B of a bifurcated port; R128). -/
def Dev.linkOf (d : Dev) (ctrl : Nat) : Nat :=
  let p := ctrl / 64
  p * 2 + bit (bitOf d.pins.bifur p && decide (32 ≤ ctrl % 64))

/-- The function's movers are halted (R157). -/
def Dev.moversHalted (d : Dev) (ctrl : Nat) : Bool := !(d.ctrl ctrl).bme || (d.ctrl ctrl).d3hot

/-- The completion of a pen's command has posted, or it will never post: its staged codewords say so (R261). -/
def Dev.settlePosted (d : Dev) (p : Nat) (posted : Bool) : Dev :=
  if d.drove.units.any (fun u => u.cws.any (fun e => e.2.pen == some p)) then
    { d with drove := { d.drove with units := d.drove.units.map (fun u =>
        { u with cws := u.cws.mapVals (fun _ c => if c.pen = some p then { c with pen := none, posted := c.posted || posted } else c) }) } }
  else d

/-- Releases a pen and its hurdle; entries that waited for the hurdle wait for it no longer (Table 6-3, R146). -/
def Dev.releasePen (d : Dev) (p : Nat) : Dev :=
  { d with nvme := { d.nvme with
      pens := d.nvme.pens.erase p,
      hurdles := (d.nvme.hurdles.erase p).mapVals (fun _ h => { h with waits := dropAll p h.waits }) } }

/-- The completion queue of a submission queue. -/
def CtrlSt.cqOf (c : CtrlSt) (sq : Nat) : Nat :=
  if sq = 0 then 0 else match c.sqs.get? sq with
    | some q => q.cq
    | none => 0

/-- The queue state of the admin completion queue before AQA gives its size. -/
def CqSt.init : CqSt :=
  { size := 2, iv := 0, ien := true, head := 0, tail := 0, phase := true, base := 0, heldIrq := 0, heldUntil := 0 }

/-- Raises the interrupt of a completion queue, or holds it under Interrupt Coalescing (feature 0x08: threshold, time in 100 µs). -/
def Dev.raiseIrq (d : Dev) (ctrl q : Nat) (cq : CqSt) : Dev × CqSt :=
  if !cq.ien then (d, cq)
  else
    let f := (d.ctrl ctrl).features.get 0 0x08
    let thr := bitsOf f 7 0
    let time := bitsOf f 15 8
    if q = 0 ∨ time = 0 ∨ thr ≤ cq.heldIrq ∨ bitOf ((d.ctrl ctrl).features.get 0 (0x900 + cq.iv)) 16 then
      (d.emit (.interrupt ctrl cq.iv), { cq with heldIrq := 0, heldUntil := 0 })
    else
      (d, { cq with heldIrq := cq.heldIrq + 1,
                    heldUntil := if cq.heldIrq = 0 then d.now + time * 100000 else cq.heldUntil })

/-- Writes the completion entry of a pen whose status is due, when the front end may post it, its movers run and the completion queue
has room; then the hurdle and the pen are released (Table 1-11 step 5, R144, R146). -/
def Dev.tryPostOne (d : Dev) (p : Nat) : Dev :=
  match d.pen p with
  | none => d
  | some x =>
    match x.due with
    | none => d
    | some (st, dw0) =>
      if x.stage = .orphan then (d.settlePosted p false).releasePen p
      else if d.postingStopped || d.moversHalted x.ctrl then d
      else
        let c := d.ctrl x.ctrl
        let q := c.cqOf x.sq
        let cq := c.cqs.get CqSt.init q
        let nt := if cq.tail + 1 < cq.size then cq.tail + 1 else 0
        if nt = cq.head then d
        else
          let d1 := d.emit (.completion x.ctrl x.sq x.cid st dw0)
          let r := d1.raiseIrq x.ctrl q { cq with tail := nt, phase := if nt = 0 then !cq.phase else cq.phase }
          let d2 := r.1.modCtrl x.ctrl (fun c => { c with
            cqs := c.cqs.set q r.2,
            lastIo := if x.sq = 0 then c.lastIo else d.now,
            errLog := if st = 0 then c.errLog else ((x.sq, x.cid, st) :: c.errLog).take 256 })
          (d2.settlePosted p true).releasePen p

/-- A submission queue being deleted whose last command has ended goes, and the deleting command completes (R175). -/
def Dev.finishSqDelete (d : Dev) (ctrl sq : Nat) : Dev :=
  match (d.ctrl ctrl).sqs.get? sq with
  | none => d
  | some q =>
    match q.deleting with
    | none => d
    | some p =>
      if d.nvme.pens.any (fun e => e.2.ctrl == ctrl && e.2.sq == sq) then d
      else
        let d1 := d.modCtrl ctrl (fun c => { c with sqs := c.sqs.erase sq })
        (d1.modPen p (fun x => { x with due := some (scOk, 0) })).tryPostOne p

/-- Posts the completion of a pen that is due; with the last command of a queue being deleted, that queue's deletion completes. -/
def Dev.tryPost (d : Dev) (p : Nat) : Dev :=
  match d.pen p with
  | none => d
  | some x =>
    let d1 := d.tryPostOne p
    if (d1.pen p).isNone then d1.finishSqDelete x.ctrl x.sq else d1

/-- A command ends with a status and its completion dwords: dword 0 in bits 31:0, dword 1 above them. A command that fails ends on its own and
releases its hurdle as one that succeeds does (R173). -/
def Dev.complete (d : Dev) (p st dw0 : Nat) : Dev :=
  (d.modPen p (fun x => { x with due := some (st, dw0) })).tryPost p

/-- A command ends with data for the host and Successful Completion. -/
def Dev.completeData (d : Dev) (p : Nat) (b : Bytes) : Dev :=
  match d.pen p with
  | none => d
  | some x => (d.emit (.hostData x.ctrl x.cid 0 b)).complete p scOk 0

/-- Posts every completion that waits on a controller, in fetch order. -/
def Dev.flushDue (d : Dev) (ctrl : Nat) : Dev :=
  let ps := (d.nvme.pens.filter (fun e => e.2.ctrl == ctrl && e.2.due.isSome)).map (fun e => (e.2.fetch, e.1))
  (sortOn (fun e : Nat × Nat => e.1) ps).foldl (fun d e => d.tryPost e.2) d

/-- An asynchronous event for a controller: it answers an outstanding request or is kept (type, information, log page). -/
def Dev.asyncEvent (d : Dev) (ctrl type info page : Nat) : Dev :=
  let c := d.ctrl ctrl
  match c.aers with
  | p :: t => (d.setCtrl ctrl { c with aers := t }).complete p scOk (type + info * 256 + page * 65536)
  | [] => if c.aes.contains (type, info, page) then d else d.setCtrl ctrl { c with aes := c.aes ++ [(type, info, page)] }

/-- The controllers that are enabled. -/
def Dev.enabledCtrls (d : Dev) : List Nat := (d.nvme.ctrls.filter (fun e => e.2.en)).map (fun e => e.1)

/-- No controller may act for the Crook but its holder (R125). -/
def Dev.holdsCrook (d : Dev) (ctrl : Nat) : Bool := d.crook.holder == some ctrl

/-! ### Saturating counters -/

/-- A counter that saturates at a bound. -/
def sat (bound v : Nat) : Nat := Nat.min bound v

end Sys2Proof.Machine
end

