-- ==== Sys2Proof/Machine/Nor.lean ====
section
/-! DEFINITION. The Iluell store as an array: sectors, the wear window, reads and the records of the general region
(R432 to R436, R439, R440, R444 to R448). -/

namespace Sys2Proof.Machine

/-- First sector of the general region, and its number of logical sectors (R444). -/
def genFirst : Nat := 856
def genCount : Nat := 1175
/-- First spare sector. -/
def spareFirst : Nat := 2032

/-- Position of logical sector l of the general region under the wear window (R444). -/
def windowPos (start gap l : Nat) : Nat :=
  let p := (l + start) % genCount
  if gap ≤ p then p + 1 else p

/-- Physical sector of a store sector: the wear window, then the spare that replaces a retired sector (R433, R434, R444). -/
def IluSt.phys (i : IluSt) (s : Nat) : Nat :=
  let p := if genFirst ≤ s ∧ s ≤ 2030 then genFirst + windowPos i.start i.gap (s - genFirst) else s
  i.remap.get p p

/-- A sector's state word. -/
def IluSt.sect (i : IluSt) (p : Nat) : SectSt := i.sects.get SectSt.init p

/-- A unit of erased bits. -/
def erasedUnit : Bytes := List.replicate 512 0xFF

/-- A sector reads as all ones: Erase-Interrupted, or not addressable (R433, R436). -/
def IluSt.readsOnes (i : IluSt) (s : Nat) : Bool := decide (2031 ≤ s) || (i.sect (i.phys s)).st == 2

/-- The 512 bytes of unit u of store sector s. -/
def IluSt.unit (i : IluSt) (s u : Nat) : Bytes :=
  if i.readsOnes s then erasedUnit else i.nor.get erasedUnit (i.phys s * 128 + u)

/-- `n` bytes of the store from a store address, `fuel` units at most. -/
def IluSt.readFuel (i : IluSt) : Nat → Nat → Nat → Bytes
  | 0, _, _ => []
  | fuel + 1, a, n =>
    if n = 0 then []
    else
      let k := Nat.min n (512 - a % 512)
      sliceOf (i.unit (a / 65536) (a / 512 % 128)) (a % 512) k ++ i.readFuel fuel (a + k) (n - k)

/-- `n` bytes of the store from a store address. -/
def IluSt.read (i : IluSt) (a n : Nat) : Bytes := i.readFuel (n / 512 + 2) a n

/-- A flag word reads set when 33 or more of its bits are 0 (R440). -/
def flagSet (w : Nat) : Bool := decide (33 ≤ 64 - countOnes 64 w)

/-- The flag word at a store address. -/
def IluSt.flag (i : IluSt) (a : Nat) : Bool := flagSet (ofLe (i.read a 8))

/-- Programs one unit of a store sector. The state word becomes Programmed; a unit that is not erased becomes undefined (R435, R439). An
Erase-Interrupted or Retired sector takes no program (R436). -/
def Dev.norProgramUnit (d : Dev) (s u : Nat) (b : Bytes) : Dev :=
  let i := d.ilu
  let p := i.phys s
  let key := p * 128 + u
  let sects := i.sects.set p { i.sect p with st := 1 }
  if 2 ≤ (i.sect p).st then d
  else match i.nor.get? key with
  | none => { d with ilu := { i with nor := i.nor.set key (padTo 512 b), sects := sects } }
  | some _ =>
    { d.tickFree with ilu := { i with nor := i.nor.set key ((List.range 512).map (Config.freeByte d.free)), sects := sects } }

/-- Programs a run of units from a store address that is a multiple of 512. -/
def Dev.norProgram (d : Dev) (a : Nat) (b : Bytes) : Dev :=
  (List.range ((b.length + 511) / 512)).foldl
    (fun d k => d.norProgramUnit ((a + 512 * k) / 65536) ((a + 512 * k) / 512 % 128) (sliceOf b (512 * k) 512)) d

/-- Programs a flag word to zero (R440). -/
def Dev.norFlag (d : Dev) (a : Nat) : Dev :=
  let i := d.ilu
  let p := i.phys (a / 65536)
  let key := p * 128 + a / 512 % 128
  let u := i.nor.get erasedUnit key
  let o := a % 512 / 8 * 8
  if 2 ≤ (i.sect p).st then d
  else { d with ilu := { i with nor := i.nor.set key (u.take o ++ zeros 8 ++ u.drop (o + 8)),
                                sects := i.sects.set p { i.sect p with st := 1 } } }

/-- The units of a physical sector are erased. -/
def IluSt.dropSector (i : IluSt) (p : Nat) : IluSt :=
  { i with nor := i.nor.filter (fun e => e.1 / 128 != p) }

/-- A completed or failed erase of a physical sector counts once (R435). -/
def SectSt.bump (x : SectSt) (st : Nat) : SectSt := { st := st, erases := sat 0x7FFFFFF (x.erases + 1) }

/-- An erase completes: the sector is Erased. -/
def IluSt.eraseDone (i : IluSt) (p : Nat) : IluSt :=
  { i.dropSector p with sects := i.sects.set p ((i.sect p).bump 0) }

/-- A store sector is managed: every region but image slots, owner boot modules and reserved sectors (R434). Only a managed sector's cut erase
is begun again at boot (Table 17-4). -/
def managed (s : Nat) : Bool := decide (s < 858) || (decide (998 ≤ s) && decide (s < 1094))

/-- A physical sector holds a managed store sector; the gap position and the spares count as managed. -/
def IluSt.managedPhys (i : IluSt) (p : Nat) : Bool :=
  match (List.range 2031).find? (fun s => i.phys s == p) with
  | some s => managed s
  | none => true

/-- Free spares. -/
def IluSt.spares (i : IluSt) : Nat := 16 - i.sparesUsed

/-- The physical position whose place a physical sector takes: its own, or the one it is a spare for (R434). -/
def IluSt.homeOf (i : IluSt) (p : Nat) : Nat :=
  match i.remap.find? (fun e => e.2 == p) with
  | some e => e.1
  | none => p

/-- A sector's erase fails: it is retired, and the next spare takes its place (R434). -/
def IluSt.retire (i : IluSt) (p : Nat) : IluSt :=
  let i1 := { i with sects := i.sects.set p ((i.sect p).bump 3) }
  if i.sparesUsed < 16 then
    { i1 with remap := i1.remap.set (i.homeOf p) (spareFirst + i.sparesUsed), sparesUsed := i.sparesUsed + 1 }
  else i1

/-- An erase of a physical sector of the general region counts toward the wear window's next move (R444). -/
def Dev.countErase (d : Dev) (p : Nat) : Dev :=
  let i := d.ilu
  let h := i.homeOf p
  let n := if genFirst ≤ h ∧ h ≤ 2031 then i.sinceMove + 1 else i.sinceMove
  { d with ilu := { i with sinceMove := n, moveDue := i.moveDue || decide (d.cfgv 0x00F 2 ≤ n) } }

/-- An erase of a store sector that succeeds, done at once by firmware of this model; it takes the place of a boot re-erase that was queued for
the sector (R436). A retired sector without a spare takes no erase (R434). -/
def Dev.norErase (d : Dev) (s : Nat) : Dev :=
  let p := d.ilu.phys s
  let i := d.ilu.eraseDone p
  if (d.ilu.sect p).st = 3 then d
  else ({ d with ilu := { i with reerase := i.reerase.filter (· != p) } } : Dev).countErase p

/-- A store sector holds no programmed unit. -/
def IluSt.sectorErased (i : IluSt) (s : Nat) : Bool :=
  (i.sect (i.phys s)).st == 0 && !(i.nor.any (fun e => e.1 / 128 == i.phys s))

/-! ### Records (Table 17-7) -/

/-- A configuration or calibration record as it stands in the store. -/
structure StoreRec where
  addr : Nat
  rtype : Nat
  chan : Nat
  seq : Nat
  len : Nat
  nent : Nat
  body : Bytes
  commit : Bool
  void : Bool
  crcOk : Bool
  deriving DecidableEq, Repr

/-- Magic numbers of Table 17-7. -/
def pcfgMagic : Nat := 0x47464350
def calbMagic : Nat := 0x424C4143

/-- Reads the record at a store address, when one with the given magic begins there. -/
def IluSt.recordAt (i : IluSt) (magic a : Nat) : Option StoreRec :=
  let h := i.read a 32
  let len := leAt h 0x10 4
  if leAt h 0 4 = magic ∧ leAt h 4 2 = 1 ∧ len % 512 = 0 ∧ 1024 ≤ len ∧ len ≤ 0x400000 then
    let b := i.read a len
    some { addr := a, rtype := leAt h 6 1, chan := leAt h 7 1, seq := leAt h 8 8, len := len, nent := leAt h 0x14 4,
           body := sliceOf b 0x20 (len - 544), commit := i.flag (a + len - 512), void := i.flag (a + len - 504),
           crcOk := decide (crc32c (b.take 0x18 ++ sliceOf b 0x20 (len - 544)) = leAt h 0x18 4) }
  else none

/-- The unit addresses of a region at which a unit is programmed. -/
def IluSt.unitAddrs (i : IluSt) (first last : Nat) : List Nat :=
  (List.range (last + 1 - first)).flatMap (fun k =>
    let p := i.phys (first + k)
    (i.nor.filter (fun e => e.1 / 128 == p)).map (fun e => (first + k) * 65536 + e.1 % 128 * 512))

/-- Every record of a ring, in address order. -/
def IluSt.records (i : IluSt) (magic first last : Nat) : List StoreRec :=
  (i.unitAddrs first last).filterMap (i.recordAt magic)

/-- Configuration records (sectors 998 to 1,061). -/
def IluSt.pcfg (i : IluSt) : List StoreRec := i.records pcfgMagic 998 1061
/-- Calibration records (sectors 1,062 to 1,093). -/
def IluSt.calb (i : IluSt) : List StoreRec := i.records calbMagic 1062 1093

/-- A record counts when COMMIT is set, VOID is clear and its CRC verifies (R445). -/
def StoreRec.counts (r : StoreRec) : Bool := r.commit && !r.void && r.crcOk

/-- The highest SEQ of a list of records. -/
def maxSeq (l : List StoreRec) : Nat := l.foldl (fun m r => Nat.max m r.seq) 0

/-- The entries of a configuration record: configuration ID and value (R446). -/
def StoreRec.entries (r : StoreRec) : List (Nat × Nat) :=
  (List.range r.nent).map (fun k => (leAt r.body (12 * k) 4, leAt r.body (12 * k + 4) 8))

/-- The persistent values the store's committed records give: the newest committed snapshot, then the committed deltas after it
in SEQ order (R446). -/
def IluSt.canonical (i : IluSt) : Tab Nat :=
  let rs := i.pcfg.filter StoreRec.counts
  let snaps := rs.filter (fun r => r.rtype == 2)
  let top := maxSeq snaps
  let base : Tab Nat := ((snaps.filter (fun r => r.seq == top)).take 1).foldl
    (fun t r => r.entries.foldl (fun t e => t.set e.1 e.2) t) []
  let deltas := sortOn (fun r : StoreRec => r.seq) (rs.filter (fun r => r.rtype == 1 && decide (top < r.seq)))
  deltas.foldl (fun t r => r.entries.foldl (fun t e => t.set e.1 e.2) t) base

/-- The canonical snapshot body: every value that differs from its reset value, in ascending ID order (R446). -/
def Dev.canonicalBody (d : Dev) : Tab Nat :=
  d.ilu.canonical.filter (fun e => d.fieldReset e.1 != e.2)

/-- The 12-byte entries of a snapshot body (R446). -/
def entryBytes (t : List (Nat × Nat)) : Bytes := t.flatMap (fun e => leBytes 4 e.1 ++ leBytes 8 e.2)

/-- Bytes of a record up to its flag unit (Table 17-7). -/
def recordBytes (magic rtype chan seq nent : Nat) (body : Bytes) : Bytes :=
  let len := roundUp (body.length + 32) 512 + 512
  let pb := padTo (len - 544) body
  let h := leBytes 4 magic ++ leBytes 2 1 ++ leBytes 1 rtype ++ leBytes 1 chan ++ leBytes 8 seq ++ leBytes 4 len ++ leBytes 4 nent
  h ++ leBytes 4 (crc32c (h ++ pb)) ++ zeros 4 ++ pb

/-- Where the next record of a ring goes: after the newest record, at a sector start for a snapshot or where it would straddle one, past the
sectors that are retired without a spare (R433, R434). -/
def IluSt.nextRecordAddr (i : IluSt) (magic first last len : Nat) (atSector : Bool) : Nat :=
  let rs := i.records magic first last
  let top := maxSeq rs
  let a := match rs.find? (fun r => r.seq == top) with
    | some r => r.addr + r.len
    | none => first * 65536
  let b := if a % 65536 = 0 then a
    else if atSector || decide (65536 < a % 65536 + len) then a / 65536 * 65536 + 65536 else a
  let n := (len + 65535) / 65536
  let live := fun x => (List.range ((x % 65536 + len + 65535) / 65536)).all (fun k => (i.sect (i.phys (x / 65536 + k))).st != 3)
  let c := if (last + 1) * 65536 < b + len then first * 65536 else b
  if live c then c
  else
    let ss := (List.range (last + 1 - first)).map (fun k => first + (c / 65536 + 1 - first + k) % (last + 1 - first))
    match ss.find? (fun s => decide (s + n ≤ last + 1) && live (s * 65536)) with
    | some s => s * 65536
    | none => c

/-- Erases the sectors of a run of store addresses that are not erased, where the run begins at a sector's start, and the sector after
them, so that the ring keeps its next sector erased (R433). -/
def Dev.prepareRing (d : Dev) (first last a len : Nat) : Dev :=
  let s0 := a / 65536
  let s1 := (a + len - 1) / 65536
  let ss := (if a % 65536 = 0 then [s0] else []) ++ (List.range (s1 - s0)).map (fun k => s0 + 1 + k)
    ++ [if s1 + 1 ≤ last then s1 + 1 else first]
  ss.foldl (fun d s => if d.ilu.sectorErased s then d else d.norErase s) d

/-- Appends a record to a ring without COMMIT; the answer is the device and the record's address and length (R445). -/
def Dev.writeRecord (d : Dev) (magic first last rtype chan nent : Nat) (body : Bytes) (atSector : Bool) : Dev × Nat × Nat :=
  let seq := maxSeq (d.ilu.records magic first last) + 1
  let b := recordBytes magic rtype chan seq nent body
  let len := b.length + 512
  let a := d.ilu.nextRecordAddr magic first last len atSector
  ((d.prepareRing first last a len).norProgram a b, a, len)

/-- Programs COMMIT of a record. -/
def Dev.commitRecord (d : Dev) (a len : Nat) : Dev := d.norFlag (a + len - 512)
/-- Programs VOID of a record. -/
def Dev.voidRecord (d : Dev) (a len : Nat) : Dev := d.norFlag (a + len - 504)

/-- Writes a snapshot whose body is the canonical body, committed at once (R446). -/
def Dev.writeSnapshot (d : Dev) : Dev :=
  let t := d.canonicalBody
  let r := d.writeRecord pcfgMagic 998 1061 2 0 t.length (entryBytes t) true
  r.1.commitRecord r.2.1 r.2.2

/-! ### Pointers (Table 17-8) -/

/-- A pointer record's contents. -/
structure PtrRec where
  seq : Nat
  fold : Nat
  shep : Nat
  drov : Nat
  updKind : Nat
  updSlot : Nat
  updCid : Nat
  deriving DecidableEq, Repr

/-- The bytes of a pointer record. -/
def PtrRec.toBytes (p : PtrRec) : Bytes :=
  let b := leBytes 4 0x52544E50 ++ leBytes 2 1 ++ zeros 2 ++ leBytes 8 p.seq ++ leBytes 1 p.fold ++ leBytes 1 p.shep ++ zeros 2
    ++ leBytes 4 p.drov ++ leBytes 1 p.updKind ++ leBytes 1 p.updSlot ++ zeros 2 ++ leBytes 4 p.updCid ++ zeros 476
  b ++ leBytes 4 (crc32c b)

/-- Reads a pointer record, when the unit holds one whose CRC verifies. -/
def PtrRec.ofBytes (b : Bytes) : Option PtrRec :=
  if leAt b 0 4 = 0x52544E50 ∧ leAt b 4 2 = 1 ∧ crc32c (b.take 508) = leAt b 508 4 then
    some { seq := leAt b 8 8, fold := leAt b 0x10 1, shep := leAt b 0x11 1, drov := leAt b 0x14 4, updKind := leAt b 0x18 1,
           updSlot := leAt b 0x19 1, updCid := leAt b 0x1C 4 }
  else none

/-- Pointer records of one copy (sector 856 or 857), with their addresses. -/
def IluSt.pointers (i : IluSt) (s : Nat) : List PtrRec :=
  (i.unitAddrs s s).filterMap (fun a => PtrRec.ofBytes (i.read a 512))

/-- The active pointer: the record of highest SEQ in either copy (R448). -/
def IluSt.pointer (i : IluSt) : PtrRec :=
  (i.pointers 856 ++ i.pointers 857).foldl (fun m p => if m.seq < p.seq then p else m)
    { seq := 0, fold := 0, shep := 0, drov := 0, updKind := 0, updSlot := 0, updCid := 0 }

/-- Writes one copy of a pointer record into the first free unit of its sector, erasing the sector first when it is full. -/
def Dev.writePtrCopy (d : Dev) (s : Nat) (b : Bytes) : Dev :=
  let used := d.ilu.unitAddrs s s
  let next := used.foldl (fun m a => Nat.max m (a % 65536 / 512 + 1)) 0
  if next < 128 then d.norProgramUnit s next b
  else (d.norErase s).norProgramUnit s 0 b

/-- Writes a pointer record to copy 0 and then to copy 1, one SEQ above the active one (R448). -/
def Dev.writePointer (d : Dev) (p : PtrRec) : Dev :=
  let b := { p with seq := d.ilu.pointer.seq + 1 }.toBytes
  (d.writePtrCopy 856 b).writePtrCopy 857 b

/-- Slot of a component that a core runs by the pointer: CORE_KIND of Table 15-5 and unit. -/
def PtrRec.slotOf (p : PtrRec) (kind unit : Nat) : Nat :=
  match kind with
  | 1 => p.fold % 2
  | 2 => bit (bitOf p.shep unit)
  | _ => bit (bitOf p.drov unit)

/-- First sector and size of an image slot or owner boot index (Table 17-2). -/
def slotPlace (kind slot : Nat) : Nat × Nat :=
  match kind with
  | 1 => (858 + 10 * slot, 655360)
  | 2 => (878 + 20 * slot, 1310720)
  | 3 => (918 + 8 * slot, 524288)
  | _ => (934 + 8 * slot, 524288)

/-- The bytes of the module a slot holds: TOTAL_LEN of its header, bounded by the slot. -/
def IluSt.slotModule (i : IluSt) (kind slot : Nat) : Bytes :=
  let p := slotPlace kind slot
  let n := leAt (i.read (p.1 * 65536) 0x40) 8 4
  i.read (p.1 * 65536) (Nat.min n p.2)

/-- A sector of the slot is Erase-Interrupted: it fails its check (R436). -/
def IluSt.slotInterrupted (i : IluSt) (kind slot : Nat) : Bool :=
  let p := slotPlace kind slot
  (List.range (p.2 / 65536)).any (fun k => (i.sect (i.phys (p.1 + k))).st == 2)

end Sys2Proof.Machine
end

