-- ==== Sys2Proof/Machine/State.lean ====
section
/-! DEFINITION. The state of the block: the device and the queue of commands waiting for it, with the machine's outcomes. -/

namespace Sys2Proof.Machine

/-- Faults. The T9600 reports every fault it has in its own state (records, statuses, traps), so no command stops the model:
this inductive has one constructor that nothing raises. -/
inductive Fault where
  /-- Raised by no command. Safe: a fault would only stop the model. -/
  | none
  deriving DecidableEq, Repr

/-- Refusals. -/
inductive Refusal where
  /-- Raised by an arm of exec whose command is not modelled. Safe: the model stops where the hardware would go on. -/
  | notModelled (mnemonic : String)
  deriving DecidableEq, Repr

/-- The block: its commands waiting, first in first out, and the device. -/
structure State where
  pending : List Instr
  dev : Dev
  deriving DecidableEq, Repr

/-- The machine right after reset: a new device at its first power-on, with no command waiting. -/
def State.reset : State where
  pending := []
  dev := Dev.init

/-- What a command answers. -/
abbrev Out := Host.Outcome State Fault Refusal

/-- A command completes: its effect on the device is `f`, and the queue stays as it is. -/
def State.apply (s : State) (f : Dev → Dev) : Out := .next { s with dev := f s.dev }

end Sys2Proof.Machine
end

