-- ==== Sys2Proof/Machine/Clock.lean ====
section
/-! DEFINITION. Clock sources, switches, the clock monitor and clock gating (R469 to R480). -/

namespace Sys2Proof.Machine

/-- Ready flag of a source: 0 XTAL0, 1 XTAL1, 2 FIO (the coding of CLK.STAT.REFA). -/
def ClkSt.srcReady (c : ClkSt) (r : Nat) : Bool :=
  match r with
  | 0 => c.x0Rdy
  | 1 => c.x1Rdy
  | 2 => c.fioRdy
  | _ => false

/-- Ready flag of a PLL. -/
def ClkSt.pllReady (c : ClkSt) (p : Nat) : Bool := if p = 0 then c.pllaRdy else c.pllbRdy
/-- Reference of a PLL. -/
def ClkSt.pllRef (c : ClkSt) (p : Nat) : Nat := if p = 0 then c.refA else c.refB
/-- Sets a PLL's ready flag. -/
def ClkSt.setReady (c : ClkSt) (p : Nat) (b : Bool) : ClkSt := if p = 0 then { c with pllaRdy := b } else { c with pllbRdy := b }
/-- Sets a PLL's reference; it becomes ready again when it locks (R473). -/
def ClkSt.setRef (c : ClkSt) (p r : Nat) : ClkSt :=
  if p = 0 then { c with refA := r, pllaRdy := false } else { c with refB := r, pllbRdy := false }
/-- Reference of the PLL that drives the root. -/
def ClkSt.rootRef (c : ClkSt) : Nat := c.pllRef c.root
/-- The standby PLL. -/
def ClkSt.standby (c : ClkSt) : Nat := 1 - c.root
/-- A request ends with a status (Table 19-3). -/
def ClkSt.ended (c : ClkSt) (st : Nat) : ClkSt := { c with busy := false, status := st }
/-- The root multiplexer selects a PLL; ONFIO follows its reference. -/
def ClkSt.selectRoot (c : ClkSt) (p : Nat) : ClkSt := { c with root := p, onFio := c.pllRef p == 2 }

/-- OP 0x1, root select (R472, R473). -/
def ClkSt.opRoot (c : ClkSt) (t : Nat) : ClkSt :=
  if c.hold then c.ended 3
  else if 2 ≤ t then c.ended 4
  else if t = c.root then c.ended 0
  else if !c.pllReady t then c.ended 1
  else (c.selectRoot t).ended 0

/-- OP 0x2, reference of the PLL that is not driving the root. -/
def ClkSt.opRef (c : ClkSt) (t r : Nat) : ClkSt :=
  if c.hold then c.ended 3
  else if 2 ≤ t ∨ r = 3 then c.ended 4
  else if t = c.root then c.ended 2
  else if !c.srcReady r then c.ended 1
  else (c.setRef t r).ended 0

/-- OP 0x3, AON select. -/
def ClkSt.opAon (c : ClkSt) (t : Nat) : ClkSt :=
  if c.hold then c.ended 3
  else if 2 ≤ t then c.ended 4
  else ({ c with aonSio := t == 1 } : ClkSt).ended 0

/-- A source's number in OP 0x4 and 0x5 (0 FIO, 1 XTAL0, 2 XTAL1) as a reference code. -/
def srcRef (t : Nat) : Nat := if t = 0 then 2 else t - 1

/-- OP 0x4, source enable; its ready flag follows when it is running and stable. -/
def ClkSt.opEnable (c : ClkSt) (t : Nat) : ClkSt :=
  if c.hold then c.ended 3
  else match t with
    | 0 => ({ c with fioEn := true } : ClkSt).ended 0
    | 1 => ({ c with x0En := true } : ClkSt).ended 0
    | 2 => ({ c with x1En := true } : ClkSt).ended 0
    | _ => c.ended 4

/-- A source stops: its ready flag clears, and a PLL that it feeds leaves ready. -/
def ClkSt.stopSource (c : ClkSt) (r : Nat) : ClkSt :=
  let c1 := match r with
    | 0 => { c with x0En := false, x0Rdy := false }
    | 1 => { c with x1En := false, x1Rdy := false }
    | _ => { c with fioEn := false, fioRdy := false }
  let c2 := if c.refA = r ∧ c.root ≠ 0 then { c1 with pllaRdy := false } else c1
  if c.refB = r ∧ c.root ≠ 1 then { c2 with pllbRdy := false } else c2

/-- OP 0x5, source disable: refused with 0x2 for a source that feeds the root. -/
def ClkSt.opDisable (c : ClkSt) (t : Nat) : ClkSt :=
  if c.hold then c.ended 3
  else if 3 ≤ t then c.ended 4
  else if c.rootRef = srcRef t then c.ended 2
  else (c.stopSource (srcRef t)).ended 0

/-- Changes the clock state. -/
def Dev.modClk (d : Dev) (f : ClkSt → ClkSt) : Dev := { d with clk := f d.clk }

/-- A write of CLK.SWITCH (Table 19-10). -/
def Dev.clkSwitch (d : Dev) (v : Nat) : Dev :=
  let t := bitsOf v 4 3
  d.modClk fun c =>
    match bitsOf v 2 0 with
    | 1 => c.opRoot t
    | 2 => c.opRef t (bitsOf v 6 5)
    | 3 => c.opAon t
    | 4 => c.opEnable t
    | 5 => c.opDisable t
    | _ => if c.hold then c.ended 3 else c.ended 4

/-- ROOT_SELECT. -/
def execRootSelect (t : BitVec 2) (s : State) : Out := s.apply fun d => d.clkSwitch (1 + t.toNat * 8)
/-- PLL_REFERENCE. -/
def execPllReference (t r : BitVec 2) (s : State) : Out := s.apply fun d => d.clkSwitch (2 + t.toNat * 8 + r.toNat * 32)
/-- AON_SELECT. -/
def execAonSelect (t : BitVec 2) (s : State) : Out := s.apply fun d => d.clkSwitch (3 + t.toNat * 8)
/-- SOURCE_ENABLE. -/
def execSourceEnable (t : BitVec 2) (s : State) : Out := s.apply fun d => d.clkSwitch (4 + t.toNat * 8)
/-- SOURCE_DISABLE. -/
def execSourceDisable (t : BitVec 2) (s : State) : Out := s.apply fun d => d.clkSwitch (5 + t.toNat * 8)

/-- The clocks restart after a hold: the root runs on the standby PLL from FIO, paddock 0 returns to the root division, and an error
record reaches the CLK source (R476, R477). -/
def Dev.clkRestart (d : Dev) : Dev :=
  let us := sat 0xFF ((d.now - d.clk.holdSince) / 1000)
  let d1 := d.modClk fun c => { c.selectRoot c.standby with hold := false, aonSio := false, holdUs := us }
  d1.post 0x009 d.clk.rootRef us 0x0E 2

/-- The clock sequence of R471; `x0` and `x1` say which crystals are ready within 10 ms. The released reset lets the boot ROM start (R390 step 1). -/
def Dev.clockPowerOn (d : Dev) (x0 x1 : Bool) : Dev :=
  if !d.pins.pwrok || d.clk.started then d
  else
    let pref := d.ilu.canonical.get 0 (cfgId 0x00B 1)
    let main := if pref = 0 then (if x0 then some 0 else if x1 then some 1 else none)
      else (if x1 then some 1 else if x0 then some 0 else none)
    let base := { d.clk with fioEn := true, fioRdy := true, x0En := true, x1En := true, x0Rdy := x0, x1Rdy := x1,
                             refB := 2, pllbRdy := true, started := true, aonSio := false }
    let c := match main with
      | some r => { base with refA := r, pllaRdy := true, root := 0, onFio := false }
      | none => { base with root := 1, onFio := true, noXtal := true }
    let d1 := { d with clk := c, fold := { d.fold with stage := if d.pins.pwrfailLow then 0 else 1 } }
    if main.isNone then d1.post 0x009 0 0 0x0E 2 else d1
/-- CLOCK_POWER_ON_SEQUENCE. -/
def execClockPowerOnSequence (x0 x1 : Bool) (s : State) : Out := s.apply fun d => d.clockPowerOn x0 x1

/-- A reference is lost: it is not ready, and a PLL that it feeds is not locked (DEDUCED, assumption log 62). -/
def ClkSt.loseRef (c : ClkSt) (r : Nat) : ClkSt :=
  { c with x0Rdy := c.x0Rdy && r != 0, x1Rdy := c.x1Rdy && r != 1, fioRdy := c.fioRdy && r != 2,
           pllaRdy := c.pllaRdy && c.refA != r, pllbRdy := c.pllbRdy && c.refB != r }
/-- REFERENCE_LOSS: the reference of the PLL that drives the root is lost (R475 to R477). -/
def Dev.referenceLoss (d : Dev) : Dev :=
  let c := d.clk
  if !c.started || c.hold then d
  else
    let lost := c.rootRef
    let c1 := { c.loseRef lost with monLoss := true, trips := sat 0xFF (c.trips + 1) }
    let sb := c.standby
    if c1.fioRdy && c.pllRef sb == 2 && c.pllReady sb then
      ({ d with clk := { c1.selectRoot sb with holdUs := 0 } } : Dev).post 0x009 lost 0 0x0E 2
    else if c1.fioRdy then
      { d with clk := { c1.setRef sb 2 with hold := true, holdSince := d.now } }
    else
      { d with clk := { c1 with hold := true, holdSince := d.now, aonSio := true, fioEn := true, monFio := true } }
/-- REFERENCE_LOSS. -/
def execReferenceLoss (s : State) : Out := s.apply Dev.referenceLoss

/-- FIO_READY: an enabled FIO is running and stable; during a hold the standby PLL's reference becomes FIO and it relocks (R477). -/
def Dev.fioReady (d : Dev) : Dev :=
  if !d.clk.fioEn then d
  else d.modClk fun c =>
    let c1 := { c with fioRdy := true }
    if c.hold then c1.setRef c.standby 2 else c1
/-- FIO_READY. -/
def execFioReady (s : State) : Out := s.apply Dev.fioReady

/-- FIO_CHECK: FIO compared against SIO every 1 ms; more than 10 % off sets FIOBAD and posts a record (R475). -/
def Dev.fioCheck (d : Dev) (bad : Bool) : Dev :=
  if bad && d.clk.fioRdy then (d.modClk fun c => { c with fioBad := true }).post 0x009 2 0 0x0E 2 else d
/-- FIO_CHECK. -/
def execFioCheck (bad : Bool) (s : State) : Out := s.apply fun d => d.fioCheck bad

/-- CRYSTAL_READY: a started crystal reaches ready. -/
def Dev.crystalReady (d : Dev) (x : Nat) : Dev :=
  d.modClk fun c => if x = 0 then { c with x0Rdy := c.x0En || c.x0Rdy } else { c with x1Rdy := c.x1En || c.x1Rdy }
/-- CRYSTAL_READY. -/
def execCrystalReady (x : Fin 2) (s : State) : Out := s.apply fun d => d.crystalReady x.val

/-- FIO_KEEP at 0 stops FIO unless it feeds the root (R470). -/
def Dev.applyFioKeep (d : Dev) : Dev :=
  if d.cfgv 0x00B 2 = 0 ∧ d.clk.rootRef ≠ 2 then d.modClk (fun c => c.stopSource 2)
  else if d.cfgv 0x00B 2 = 1 then d.modClk (fun c => { c with fioEn := true })
  else d

/-! ### Clock gating (R479, R480) -/

/-- A gateable block that runs. -/
def GateSt.init : GateSt := { st := .running, since := 0, held := 0 }
/-- A gateable block. -/
def Dev.gate (d : Dev) (i : Nat) : GateSt := d.clk.gates.get GateSt.init i
/-- Replaces a gateable block's state; a Running block is not listed. -/
def Dev.setGate (d : Dev) (i : Nat) (g : GateSt) : Dev :=
  d.modClk fun c => { c with gates := if g = GateSt.init then c.gates.erase i else c.gates.set i g }

/-- A gate request: Running goes to Draining and the 10 µs timer starts. -/
def Dev.gateRequest (d : Dev) (i : Nat) : Dev :=
  if (d.gate i).st = .running ∧ i < 266 then d.setGate i { st := .draining, since := d.now, held := 0 } else d
/-- An ungate request: a Gated block wakes. -/
def Dev.ungateRequest (d : Dev) (i : Nat) : Dev :=
  if (d.gate i).st = .gated then d.setGate i { d.gate i with st := .waking } else d
/-- A write of CLK.GATE (Table 19-12). -/
def Dev.clkGate (d : Dev) (v : Nat) : Dev :=
  let i := bitsOf v 8 0
  let d1 := d.modClk fun c => { c with gateId := i }
  match bitsOf v 10 9 with
  | 1 => d1.gateRequest i
  | 2 => d1.ungateRequest i
  | _ => d1

/-- GATE. -/
def execGate (i : BitVec 9) (s : State) : Out := s.apply fun d => d.clkGate (i.toNat + 512)
/-- UNGATE. -/
def execUngate (i : BitVec 9) (s : State) : Out := s.apply fun d => d.clkGate (i.toNat + 1024)
/-- AUTOGATE_EXPIRY: a block with no transaction and no work for AUTOGATE_US; 0 disables the idle timer. -/
def execAutogateExpiry (i : Fin 266) (s : State) : Out :=
  s.apply fun d => if d.cfgv 0x00B 3 = 0 then d else d.gateRequest i.val
/-- A draining block acknowledges: its clock stops; held transactions wake it at once. -/
def Dev.gateAck (d : Dev) (i : Nat) : Dev :=
  let g := d.gate i
  if g.st = .draining then d.setGate i { g with st := if g.held = 0 then .gated else .waking } else d
/-- GATE_ACKNOWLEDGE. -/
def execGateAcknowledge (i : Fin 266) (s : State) : Out := s.apply fun d => d.gateAck i.val
/-- 10 µs pass without acknowledgement: the gate is not applied. -/
def Dev.gateTimeout (d : Dev) (i : Nat) : Dev :=
  let g := d.gate i
  if g.st = .draining then
    let d1 := ((d.advanceTo (g.since + 10000)).setGate i GateSt.init).modClk fun c => { c with gateTo := sat 0xFFFF (c.gateTo + 1) }
    d1.post 0x009 i 0 0x0E 2
  else d
/-- GATE_TIMEOUT. -/
def execGateTimeout (i : Fin 266) (s : State) : Out := s.apply fun d => d.gateTimeout i.val
/-- A transaction to a gated block restarts its clock; a draining block holds it. -/
def Dev.gatedTransaction (d : Dev) (i : Nat) : Dev :=
  let g := d.gate i
  match g.st with
  | .gated => d.setGate i { g with st := .waking, held := g.held + 1 }
  | .draining => d.setGate i { g with held := g.held + 1 }
  | .waking => d.setGate i { g with held := g.held + 1 }
  | .running => d
/-- GATED_TRANSACTION. -/
def execGatedTransaction (i : Fin 266) (s : State) : Out := s.apply fun d => d.gatedTransaction i.val
/-- 20 ns after waking the port reopens and held transactions proceed. -/
def execWakingEnd (i : Fin 266) (s : State) : Out :=
  s.apply fun d => if (d.gate i.val).st = .waking then (d.advanceTo (d.now + 20)).setGate i.val GateSt.init else d

/-- The gateable blocks of a paddock that leaves On return Running (Table 19-5). -/
def Dev.clearGates (d : Dev) (ids : List Nat) : Dev :=
  d.modClk fun c => { c with gates := c.gates.filter (fun e => !ids.contains e.1) }

end Sys2Proof.Machine
end

