-- ==== Sys2Proof/Machine/Thermal.lean ====
section
/-! DEFINITION. Temperature sensors, compensation and throttling (R481 to R486). Readings are in steps of 0.125 °C. -/

namespace Sys2Proof.Machine

/-- Sensor s (1 to 7). -/
def Dev.sensor (d : Dev) (s : Nat) : Sensor := d.thm.sensors.get Sensor.init s
/-- Replaces a sensor. -/
def Dev.setSensor (d : Dev) (s : Nat) (x : Sensor) : Dev := { d with thm := { d.thm with sensors := d.thm.sensors.set s x } }

/-- A signed byte. -/
def signed8 (v : Nat) : Int := if v < 128 then (v : Int) else (v : Int) - 256

/-- The filtered reading: the mean of the last 8 samples, rounded toward minus infinity (R481). -/
def Sensor.reading (x : Sensor) : Int :=
  if x.samples = [] then 0 else (x.samples.foldl (· + ·) 0) / (x.samples.length : Int)

/-- The sensors that are in use: sampled and not ignored. -/
def ThmSt.valid (t : ThmSt) : List Sensor := (t.sensors.map (fun e => e.2)).filter (fun x => !x.fault && x.samples != [])

/-- The larger of two readings. -/
def maxInt (a b : Int) : Int := if a < b then b else a

/-- The largest of a list of readings. -/
def maxOf : List Int → Option Int
  | [] => none
  | a :: t => some (t.foldl maxInt a)

/-- The composite: the highest valid filtered reading, or the highest NAND die reading when every sensor is ignored (R481, R482). -/
def ThmSt.compositeOf (t : ThmSt) : Int :=
  match maxOf (t.valid.map Sensor.reading) with
  | some v => v
  | none => match maxOf (t.nand.map (fun e => e.2 * 8)) with
    | some v => v
    | none => 0

/-- Every sensor that has sampled is ignored. -/
def ThmSt.allIgnored (t : ThmSt) : Bool := t.sensors != [] && t.valid == []

/-- The band that holds a reading (R484), changed from the band in force only when the reading is 2 °C past its boundary. -/
def bandOf (cur : Nat) (v : Int) : Nat :=
  let b : Int := (v + 320) / 80
  let nb := if b < 0 then 0 else if 15 < b then 15 else b.toNat
  let lo : Int := -320 + 80 * (cur : Int)
  if v < lo - 16 ∨ lo + 80 + 16 ≤ v then nb else cur

/-- One sample of a sensor (R481, R482): the per-die offset of the trims in force is added; out-of-range samples count toward the fault. -/
def Sensor.sample (x : Sensor) (v : Int) : Sensor :=
  let bad := decide (v < -440) || decide (1200 < v)
  let nb := if bad then x.bad + 1 else 0
  let y := { x with samples := (x.samples ++ [v]).drop ((x.samples.length + 1) - 8), bad := nb, good := if bad then 0 else x.good + 1,
                    hot := if 1000 ≤ v then x.hot + 1 else 0, fault := x.fault || decide (4 ≤ nb) }
  { y with band := bandOf x.band y.reading }

/-- A sample of sensor s is taken: a pending LOAD is applied first (R484); a sensor that becomes ignored posts a record. -/
def Dev.takeSample (d : Dev) (s : Nat) (raw : Int) : Dev :=
  let t := if d.thm.loadDue then { d.thm with applied := d.thm.window, loadDue := false, loaded := true } else d.thm
  let d0 := { d with thm := t }
  let ofs := signed8 (t.applied.get 0 (0x100 + (s - 1)))
  let old := d.sensor s
  let x := old.sample (raw + ofs)
  let d1 := d0.setSensor s x
  let cool := d1.thm.valid.all (fun y => decide (y.reading < 760))
  let d2 := { d1 with thm := { d1.thm with composite := d1.thm.compositeOf,
                                           coolSince := if cool then (match d1.thm.coolSince with
                                             | some a => some a
                                             | none => some d.now) else none } }
  -- a die whose sensor is ignored takes the composite for its compensation (R482)
  let d3 := if x.fault then d2.setSensor s { x with band := bandOf old.band d2.thm.composite } else d2
  if x.fault && !old.fault then d3.post 0x00A s x.reading.toNat 0x0B 2 else d3
/-- TEMPERATURE_SAMPLE: sensor s + 1. -/
def execTemperatureSample (sn : Fin 7) (v : BitVec 16) (s : State) : Out :=
  s.apply fun d => if d.pwr.standby then d else d.takeSample (sn.val + 1) v.toInt

/-- The 100 ms self-check: a failure ignores the sensor; a pass returns it to use after 1,000 samples in range (R482). -/
def Dev.selfCheck (d : Dev) (s : Nat) (ok : Bool) : Dev :=
  let x := d.sensor s
  if !ok then
    let d1 := d.setSensor s { x with fault := true, good := 0 }
    if x.fault then d1 else d1.post 0x00A s x.reading.toNat 0x0B 2
  else d.setSensor s { x with fault := x.fault && decide (x.good < 1000) }
/-- SENSOR_SELF_CHECK. -/
def execSensorSelfCheck (sn : Fin 7) (ok : Bool) (s : State) : Out := s.apply fun d => d.selfCheck (sn.val + 1) ok

/-- A channel's state. -/
def Dev.chan (d : Dev) (c : Nat) : ChanSt := d.media.chans.get ChanSt.init c
/-- Replaces a channel's state. -/
def Dev.setChan (d : Dev) (c : Nat) (x : ChanSt) : Dev := { d with media := { d.media with chans := d.media.chans.set c x } }
/-- Changes a channel's state. -/
def Dev.modChan (d : Dev) (c : Nat) (f : ChanSt → ChanSt) : Dev := d.setChan c (f (d.chan c))

/-- The calibration policy reads a die's temperature: at NAND_HOT_C its channel is limited, and the limit is lifted when every die of the channel
reads 3 °C below (R483). -/
def Dev.nandTemp (d : Dev) (die : Nat) (v : Int) : Dev :=
  let d1 := { d with thm := { d.thm with nand := d.thm.nand.set die v } }
  let hot : Int := (d.cfgv 0x013 5 : Int)
  let c := die / 32
  let rs := (d1.thm.nand.filter (fun e => e.1 / 32 == c)).map (fun e => e.2)
  let d2 := if hot ≤ v then d1.modChan c (fun x => { x with hotLimited := true })
    else if rs.all (fun r => decide (r ≤ hot - 3)) then d1.modChan c (fun x => { x with hotLimited := false })
    else d1
  { d2 with thm := { d2.thm with composite := d2.thm.compositeOf } }
/-- NAND_TEMPERATURE_READ: the reading in °C. -/
def execNandTemperatureRead (die : DieId) (v : BitVec 8) (s : State) : Out := s.apply fun d => d.nandTemp die.toNat v.toInt

/-- TRIM_LOAD: THM.TRIMCTL.LOAD. -/
def execTrimLoad (s : State) : Out := s.apply fun d => { d with thm := { d.thm with loadDue := true } }

/-- The thermal management temperatures a host has set for level n (TMT1, TMT2), in Kelvin; 0 when none. -/
def Dev.tmt (d : Dev) (n : Nat) : Nat :=
  d.nvme.ctrls.foldl (fun m e =>
    let f := e.2.features.get 0 0x10
    let v := if n = 1 then bitsOf f 31 16 else bitsOf f 15 0
    if v = 0 then m else if m = 0 then v else Nat.min m v) 0

/-- Threshold of level n: THRn_C, or a lower TMT1 or TMT2 (R485). -/
def Dev.threshold (d : Dev) (n : Nat) : Int :=
  let base : Int := (d.cfgv 0x013 n : Int) * 8
  let t := d.tmt n
  if (n = 1 ∨ n = 2) ∧ t ≠ 0 ∧ ((t : Int) - 273) * 8 < base then ((t : Int) - 273) * 8 else base

/-- The throttle level of an evaluation (R482, R485). -/
def Dev.nextLevel (d : Dev) : Nat :=
  let c := d.thm.compositeOf
  let cur := d.thm.level
  let up := if d.threshold 3 ≤ c then 3 else if d.threshold 2 ≤ c then 2 else if d.threshold 1 ≤ c then 1 else 0
  let lv := if cur < up then up
    else if 0 < cur ∧ c < d.threshold cur - (d.cfgv 0x013 4 : Int) * 8 then cur - 1
    else cur
  if d.thm.allIgnored then Nat.max lv 2 else lv

/-- The evaluation every 10 ms: a rise asserts e12 on every Shepherd core and posts a record. -/
def Dev.thermalEvaluate (d : Dev) : Dev :=
  let lv := d.nextLevel
  let t := d.thm
  let up := decide (t.level < lv)
  let t1 := { t with level := lv, composite := t.compositeOf, alert := t.alert || up,
                     trans1 := t.trans1 + bit (up && decide (t.level < 1)), trans2 := t.trans2 + bit (up && decide (2 ≤ lv) && decide (t.level < 2)),
                     time1 := t.time1 + (if lv = 1 then 10 else 0), time2 := t.time2 + (if 2 ≤ lv then 10 else 0) }
  let d1 := { d with thm := t1 }
  if up then d1.post 0x00A lv (t1.composite.toNat / 8) 0x0A 2 else d1
/-- THERMAL_EVALUATION. -/
def execThermalEvaluation (s : State) : Out := s.apply Dev.thermalEvaluate

/-- The most TLC programs and erases a channel may run at once under throttling, a hot channel and PS1 (R459, R483, R486). -/
def Dev.progLimit (d : Dev) (c : Nat) : Nat :=
  let a := if 2 ≤ d.thm.level then 1 else if d.thm.level = 1 then 2 else 32
  let b := if (d.chan c).hotLimited then 1 else 32
  let e := if d.pwr.current = 1 then d.cfgv 0x00A 1 else 32
  Nat.min a (Nat.min b e)

/-- The most die operations of any kind in flight on a channel (R486, level 3). -/
def Dev.opLimit (d : Dev) : Nat := if d.thm.level = 3 then 8 else 256

end Sys2Proof.Machine
end

