-- ==== Sys2Proof/Machine/Pads.lean ====
section
/-! DEFINITION. Paddocks: the state of each, what a change of state keeps and loses, and the sets of the power states
(R454, R455, R457, R458; Tables 18-1 to 18-3). -/

namespace Sys2Proof.Machine

/-- The paddock of a channel, a core, a map-cache set, a staging address, a pen, a hurdle entry (Table 18-1). -/
def chanPad (c : Nat) : Nat := c + 1
/-- The paddock of a core. -/
def corePad (c : Nat) : Nat :=
  match kindOf c with
  | .fold => 227
  | .shepherd => 160 + c
  | .drover => 120 + c
/-- The paddock of a pen. -/
def penPad (p : Nat) : Nat := 209 + p / 2048
/-- The paddock of a hurdle entry. -/
def hurdlePad (p : Nat) : Nat := 217 + p / 4096

/-- The paddock of an SRAM address (Table 18-1). The eight lamb/parity banks share the accumulators in address order (DESIGN CHOICE,
assumption log 64). -/
def sramPad (a : Nat) : Nat :=
  if a < 0x1000000 then 227
  else if a < 0x1400000 then 209 + (a - 0x1000000) / 0x80000
  else if a < 0x1480000 then 217 + (a - 0x1400000) / 0x20000
  else if a < 0x2000000 then 201
  else if a < 0x4000000 then 185 + (a - stagingBase) / 0x200000
  else if a < 0x6000000 then 201 + (a - 0x4000000) / 0x300000
  else if a < 0x8000000 then 201 + (a - 0x6000000) / 0x180000
  else if a < 0x40000000 then 161 + (a - 0x8000000) / 0x100000
  else
    let k := (a - 0x40000000) / 0x10000000
    let o := a % 0x10000000
    if o < 0x1000000 then 129 + 8 * k + o / 0x40000 else chanPad (32 * k + (o - 0x1000000) / 0x80000)

/-- Every die of the channel has been looked for and none is present. -/
def Dev.chanEmpty (d : Dev) (c : Nat) : Bool :=
  (d.media.dies.get? (c * 32)).isSome && (List.range 32).all (fun i => (d.media.dies.get DieSt.init (c * 32 + i)).wl == 0)

/-- Paddocks that are Off in every state: channels without a die or declared failed whole, and unpopulated DRAM channels (R455). -/
def Dev.padDead (d : Dev) (p : Nat) : Bool :=
  if 1 ≤ p ∧ p ≤ 128 then d.chanEmpty (p - 1) || d.cfgv (0x100 + (p - 1)) 3 == 0xFFFFFFFF
  else if 221 ≤ p ∧ p ≤ 224 then decide (dramChannels d.pins.dramCfg ≤ p - 221)
  else false

/-- State of a paddock: 0 On, 1 Retention, 2 Off. -/
def Dev.pad (d : Dev) (p : Nat) : Nat := if d.padDead p then 2 else d.pwr.pads.get 0 p

/-- A paddock is On. -/
def Dev.padOn (d : Dev) (p : Nat) : Bool := d.pad p == 0

/-- The paddock may not be turned Off now: it is never Off but in Standby, or it holds work (R455, R457), or a channel's journal is not
empty (R463). -/
def Dev.padHeld (d : Dev) (p : Nat) : Bool :=
  if 1 ≤ p ∧ p ≤ 128 then
    d.drove.units != [] || d.media.dies.any (fun e => e.1 / 32 == p - 1 && e.2.ops.any (fun o => o.stage != .ended))
  else if (129 ≤ p ∧ p ≤ 168) ∨ p = 201 ∨ p = 227 then true
  else if 209 ≤ p ∧ p ≤ 216 then d.nvme.pens.any (fun e => e.1 / 2048 == p - 209)
  else if p = 228 then d.dig.any (fun e => e.2.st == .held)
  else if p = 229 then d.ilu.prog.isSome || d.ilu.erase.isSome || d.ilu.ports.any (fun e => e.2.wait.isSome)
  else p == 0

/-- A range of memory loses its content. -/
def Dev.loseRange (d : Dev) (a n : Nat) : Dev :=
  { d with mem := d.mem.filter (fun c => decide (c.1 < a) || decide (a + n ≤ c.1)),
           marks := d.marks.filter (fun w => decide (w < a) || decide (a + n ≤ w)) }

/-- A paddock loses its content (R455). DRAM devices keep theirs in self-refresh; the channel's training is lost. -/
def Dev.losePad (d : Dev) (p : Nat) : Dev :=
  if 1 ≤ p ∧ p ≤ 128 then
    let x := d.chan (p - 1)
    (d.setChan (p - 1) { ChanSt.init with onfiRate := x.onfiRate, extRates := x.extRates }).loseRange (chanBuffer (p - 1)) 0x80000
  else if 169 ≤ p ∧ p ≤ 184 then
    { d with mapc := { d.mapc with lines := d.mapc.lines.filter (fun e => e.1 / 16 % 16 != p - 169) } }
  else if 185 ≤ p ∧ p ≤ 200 then d.loseRange (stagingBase + (p - 185) * 0x200000) 0x200000
  else if 210 ≤ p ∧ p ≤ 216 ∨ p = 209 then d.loseRange (penBase ((p - 209) * 2048)) 0x80000
  else if 221 ≤ p ∧ p ≤ 224 then
    { d with dram := { d.dram with chans := d.dram.chans.modify DramChan.init (p - 221) (fun c => { c with up := false }) } }
  else if p = 228 then { d with dig := [] }
  else if p = 229 then { d with ilu := { d.ilu with ports := [], done0 := false } }
  else d

/-- The gateable blocks of a paddock (Table 19-6): the ECDSA, LMS/HSS and unwrap engines are the Fold's, and the I3C target is the hub base's
(DEDUCED, assumption log 62). -/
def padGates (p : Nat) : List Nat :=
  if 1 ≤ p ∧ p ≤ 128 then [p - 1, p + 127]
  else if 221 ≤ p ∧ p ≤ 224 then [p + 40]
  else match p with
    | 201 => [265]
    | 227 => [258, 259, 260]
    | 228 => [256, 257]
    | _ => []

/-- Takes a paddock to a state: a request for Off that may not be met is carried out as Retention. A
paddock that leaves On clears its gates (Table 19-5). -/
def Dev.setPad (d : Dev) (p st : Nat) : Dev :=
  let s1 := if st = 2 ∧ d.padHeld p then 1 else st
  let d0 := if s1 = 0 then d else d.clearGates (padGates p)
  let d1 := if s1 = 2 ∧ d.pwr.pads.get 0 p ≠ 2 then d0.losePad p else d0
  { d1 with pwr := { d1.pwr with pads := if s1 = 0 then d1.pwr.pads.erase p else d1.pwr.pads.set p s1 } }

/-- Takes each paddock of a list to the state a function gives it. -/
def Dev.setPads (d : Dev) (f : Nat → Nat) (ps : List Nat) : Dev := ps.foldl (fun d p => d.setPad p (f p)) d

/-- An access to a paddock that is not On returns it to On (R457). -/
def Dev.wakePad (d : Dev) (p : Nat) : Dev := if d.padDead p then d else d.setPad p 0

/-- The links of a port that are in use are all in L1.2. -/
def Dev.portL12 (d : Dev) (port : Nat) : Bool :=
  (d.links.get LinkSt.init (port * 2)).l12 && (!bitOf d.pins.bifur port || (d.links.get LinkSt.init (port * 2 + 1)).l12)

/-- State of a paddock in a power state (Table 18-3): 0 to 4, and 5 for Standby. -/
def Dev.padTarget (d : Dev) (ps p : Nat) : Nat :=
  if p = 0 ∨ ps = 0 then 0
  else if 5 ≤ ps then 2
  else if 165 ≤ p ∧ p ≤ 168 then 1
  else if ps = 1 then 0
  else if 162 ≤ p ∧ p ≤ 164 then 1
  else if 225 ≤ p ∧ p ≤ 226 then bit (d.portL12 (p - 225))
  else if p = 161 ∨ p = 227 ∨ p = 229 then (if ps = 2 then 0 else 1)
  else if p = 201 then (if ps = 4 then 1 else 0)
  else if p ≤ 128 ∨ p = 228 then (if ps = 2 then 1 else 2)
  else if (169 ≤ p ∧ p ≤ 184) ∨ (210 ≤ p ∧ p ≤ 224) then (if ps = 4 then 2 else 1)
  else 1

/-- The device state the controllers ask for: the lowest requested by an enabled controller outside D3hot, no higher than PS_FLOOR (R460).
With no controller taking part it is 0 (DESIGN CHOICE, assumption log 20). -/
def Dev.wantedState (d : Dev) : Nat :=
  let rs := (d.nvme.ctrls.filter (fun e => e.2.en && !e.2.d3hot)).map (fun e => e.2.reqPs)
  match rs with
  | [] => 0
  | a :: t => Nat.min (t.foldl Nat.min a) (d.cfgv 0x00A 2)

/-- The sequencer begins to enter or leave for a state; e11 is no longer asserted. -/
def Dev.beginEntry (d : Dev) (t : Nat) : Dev :=
  { d with pwr := { d.pwr with target := t, entering := true, suspended := false, step := 0, wakeEvt := false } }

/-- The controllers' requests have changed: the sequencer sets out for the wanted state if it is not there or on its way. -/
def Dev.retarget (d : Dev) : Dev :=
  let t := d.wantedState
  if d.pwr.standby || d.pwr.target == 5 && d.pwr.entering then d
  else if d.pwr.entering then (if d.pwr.target = t then d else d.beginEntry t)
  else if d.pwr.current = t then d else d.beginEntry t

/-- A wake is recorded (Table 18-8). -/
def Dev.noteWake (d : Dev) (cause port : Nat) : Dev :=
  { d with pwr := { d.pwr with wakeCause := cause, wakePort := port, wakes := sat 0xFFFF (d.pwr.wakes + 1) } }

/-- Garbage-collection cycles may start: PS0 or PS1 (R461). -/
def Dev.cyclesOn (d : Dev) : Bool := !d.pwr.standby && decide (d.pwr.current < 2) && !(d.pwr.entering && decide (1 < d.pwr.target))
/-- Rebuild and graze may run: PS0 or PS1, or the NOPPME time is running (R461). -/
def Dev.backgroundOn (d : Dev) : Bool := d.cyclesOn || (!d.pwr.standby && d.pwr.noppUntil.isSome)
/-- Graze reads may start: throttling pauses them from level 1 (R461, R486). -/
def Dev.grazeOn (d : Dev) : Bool := d.backgroundOn && d.thm.level == 0
/-- Member rebuild may go on: throttling pauses it from level 2 (R461, R486). -/
def Dev.rebuildOn (d : Dev) : Bool := d.backgroundOn && decide (d.thm.level < 2)

/-- A controller returns to its last operational state when its requested state is in effect (R460). -/
def Dev.ctrlOperational (d : Dev) (k : Nat) : Dev := d.modCtrl k (fun c => if 2 ≤ c.reqPs then { c with reqPs := c.opPs } else c)

/-- An I/O command has reached a controller (R460, R464, R466): during an entry it suspends the entry (ENTRY_SUSPEND does that); with a
non-operational state in effect the device sets out for the controller's operational state. -/
def Dev.ioWake (d : Dev) (k : Nat) : Dev :=
  if d.pwr.entering && decide (d.pwr.current < d.pwr.target) then d
  else if d.pwr.current < 2 ∨ (d.ctrl k).reqPs < 2 then d
  else ((d.ctrlOperational k).noteWake 1 (k / 64)).retarget

/-- Every controller of a port leaves its non-operational state, and with none enabled there every controller does. -/
def Dev.portWake (d : Dev) (port cause : Nat) : Dev :=
  if d.pwr.current < 2 ∨ d.pwr.standby then d
  else
    let here := d.enabledCtrls.filter (fun k => k / 64 == port)
    let ks := if here = [] then d.enabledCtrls else here
    ((ks.foldl (fun d k => d.ctrlOperational k) d).noteWake cause port).retarget

end Sys2Proof.Machine
end

