-- ==== Sys2Proof/Machine/Mapc.lean ====
section
/-! DEFINITION. The map in DRAM and the map cache: entries, lines, fills, write-backs, flush, clean and repair slots
(R216, R330, R351 to R359). -/

namespace Sys2Proof.Machine

/-! ### Entries (Table 8-1) -/

/-- A map entry of type, die and slot. -/
def mapEntry (type die slot : Nat) : Nat := type * 2 ^ 38 + die * 2 ^ 26 + slot
/-- TYPE of an entry. -/
def entType (e : Nat) : Nat := bitsOf e 39 38
/-- Slot key (die × 2^26 + slot) of an entry. -/
def entKey (e : Nat) : Nat := bitsOf e 37 0
/-- An entry names a slot. -/
def entNames (e key : Nat) : Bool := (entType e == 1 || entType e == 2) && entKey e == key
/-- Address of the entry of a DIU. -/
def entryAddr (diu : Nat) : Nat := dramBase + 5 * diu
/-- Map limit N_max of R220. -/
def Dev.mapLimit (d : Dev) : Nat := (d.dramSize - 0x400000000) / 5

/-! ### Lines -/

/-- Set of a line. -/
def setOf (l : Nat) : Nat := l % 8192
/-- Line of a DIU. -/
def lineOf (diu : Nat) : Nat := diu / 32
/-- DRAM address of a line. -/
def lineAddr (l : Nat) : Nat := dramBase + 160 * l
/-- An Invalid way. -/
def MapLine.init : MapLine := { line := 0, st := .invalid, data := [], marks := [], next := none, prefetch := false }
/-- The way at a key (set × 16 + way). -/
def Dev.way (d : Dev) (k : Nat) : MapLine := d.mapc.lines.get MapLine.init k
/-- Replaces a way; an Invalid way is not listed. -/
def Dev.setWay (d : Dev) (k : Nat) (w : MapLine) : Dev :=
  { d with mapc := { d.mapc with lines := if w.st = .invalid then d.mapc.lines.erase k else d.mapc.lines.set k w } }
/-- Keys of the ways of a set. -/
def waysOf (set : Nat) : List Nat := (List.range 16).map (fun w => set * 16 + w)
/-- The way that holds a line. -/
def Dev.findLine (d : Dev) (l : Nat) : Option Nat :=
  (waysOf (setOf l)).find? (fun k => (d.way k).st != .invalid && (d.way k).line == l)

/-- PLRU bits after a use of a way: the bits on its path point away from it (R353). Node n of the tree, from 1, is bit n − 1. -/
def plruTouch (bits way : Nat) : Nat :=
  (List.range 4).foldl (fun b lvl =>
    let node := 2 ^ lvl + way / 2 ^ (4 - lvl)
    let right := bitOf way (3 - lvl)
    setBits b (node - 1) (node - 1) (bit (!right))) bits
/-- The way the PLRU bits point to. -/
def plruVictim (bits : Nat) : Nat :=
  ((List.range 4).foldl (fun node _ => node * 2 + bit (bitOf bits (node - 1))) 1) - 16
/-- Notes a use of a way in its set's bits. -/
def Dev.touchWay (d : Dev) (k : Nat) : Dev :=
  { d with mapc := { d.mapc with plru := d.mapc.plru.modify 0 (k / 16) (fun b => plruTouch b (k % 16)) } }
/-- The victim of a miss: the lowest Invalid way, or the way the bits point to. -/
def Dev.victim (d : Dev) (set : Nat) : Nat :=
  match (waysOf set).find? (fun k => (d.way k).st == .invalid) with
  | some k => k
  | none => set * 16 + plruVictim (d.mapc.plru.get 0 set)

/-- The words of a line that an entry of it overlaps. -/
def entryWords (diu : Nat) : List Nat := addOnce ((diu % 32 * 5 + 4) / 8) [diu % 32 * 5 / 8]
/-- Marked words of a line as DRAM holds it. -/
def Dev.dramMarks (d : Dev) (l : Nat) : List Nat := (List.range 20).filter (fun w => d.marked (lineAddr l + 8 * w))
/-- The entry of a DIU in a line's data. -/
def entryIn (data : Bytes) (diu : Nat) : Nat := leAt data (diu % 32 * 5) 5
/-- The line's data with the entry of a DIU replaced. -/
def entryPut (data : Bytes) (diu e : Nat) : Bytes :=
  data.take (diu % 32 * 5) ++ leBytes 5 e ++ data.drop (diu % 32 * 5 + 5)

/-- Writes a line's data and marks to DRAM. -/
def Dev.writeLine (d : Dev) (l : Nat) (data : Bytes) (marks : List Nat) : Dev :=
  let d1 := (d.putBytes (lineAddr l) data).clearMarks (lineAddr l) 160
  marks.foldl (fun d w => d.mark (lineAddr l + 8 * w)) d1

/-- The bank of a set is Off: the set behaves as Disabled (R359). -/
def Dev.setOff (d : Dev) (set : Nat) : Bool := d.pad (169 + set % 16) == 2

/-! ### Repair slots (R356) -/

/-- A repair slot that is free. -/
def RepairSlot.init : RepairSlot := { valid := false, line := 0, word := 0 }
/-- Repair slot k. -/
def Dev.repairSlot (d : Dev) (k : Nat) : RepairSlot := d.mapc.repairs.get RepairSlot.init k
/-- A DIU waits for a repair. -/
def Dev.underRepair (d : Dev) (diu : Nat) : Bool :=
  (List.range 4).any (fun k =>
    (d.repairSlot k).valid && (d.repairSlot k).line == lineOf diu && (entryWords diu).contains (d.repairSlot k).word)
/-- Takes a repair slot for a word of a line; none when the four are in use. A word that already has one needs no other. -/
def Dev.takeRepair (d : Dev) (l w : Nat) : Option Dev :=
  if (List.range 4).any (fun k => (d.repairSlot k).valid && (d.repairSlot k).line == l && (d.repairSlot k).word == w) then some d
  else match (List.range 4).find? (fun k => !(d.repairSlot k).valid) with
    | none => none
    | some k => some { d with mapc := { d.mapc with repairs := d.mapc.repairs.set k { valid := true, line := l, word := w },
                                                    repairEvt := true } }

/-! ### Operations (R32, R352) -/

/-- The value an operation writes, given the entry it finds; none where it writes nothing. -/
def MapcReq.writes (r : MapcReq) (e : Nat) : Option Nat :=
  if r.op = 1 then some r.new else if r.op = 2 ∧ entNames e (entKey r.old) then some r.new else none

/-- Records the answer of an operation. -/
def Dev.mapcAnswer (d : Dev) (r : MapcReq) (e : Nat) : Dev :=
  { d with mapc := { d.mapc with answer := some (r.diu, e, (r.writes e).isSome) } }

/-- An operation is served from DRAM with no allocation, unless its entry lies in a marked word: that takes a repair slot. The Bool says
that the operation was served. -/
def Dev.mapcDirect (d : Dev) (r : MapcReq) : Dev × Bool :=
  match (entryWords r.diu).find? (fun w => d.marked (lineAddr (lineOf r.diu) + 8 * w)) with
  | some w => ((d.takeRepair (lineOf r.diu) w).getD d, false)
  | none =>
    let e := ofLe (d.bytes (entryAddr r.diu) 5)
    let d1 := d.mapcAnswer r e
    match r.writes e with
    | some v => (d1.putBytes (entryAddr r.diu) (leBytes 5 v), true)
    | none => (d1, true)

/-- An operation is served from the way that holds its line. -/
def Dev.mapcHit (d : Dev) (k : Nat) (r : MapcReq) : Dev :=
  let w := d.way k
  let e := entryIn w.data r.diu
  let d1 := (d.mapcAnswer r e).touchWay k
  match r.writes e with
  | some v => d1.setWay k { w with data := entryPut w.data r.diu v, st := .dirty }
  | none => d1

/-- A line begins to fill in a way, or waits there for the write-back of the dirty victim (R355). -/
def Dev.chooseFor (d : Dev) (k l : Nat) (pre : Bool) : Dev :=
  let v := d.way k
  if v.st = .dirty then d.setWay k { v with st := .evicting, next := some l, prefetch := pre }
  else d.setWay k { line := l, st := .filling, data := [], marks := [], next := none, prefetch := pre }

/-- A way is evicting for the fill of this line. -/
def Dev.fillWaits (d : Dev) (l : Nat) : Bool := d.mapc.lines.any (fun e => e.2.st == LineState.evicting && e.2.next == some l)

/-- The prefetch of the line after a missed one (R354). -/
def Dev.prefetchAfter (d : Dev) (l : Nat) : Dev :=
  let n := l + 1
  let k := d.victim (setOf n)
  let st := (d.way k).st
  if d.cfgv 0x008 1 = 1 ∧ (d.findLine n).isNone ∧ !d.fillWaits n ∧ 32 * n < d.mapLimit ∧ (st = .invalid ∨ st = .clean) ∧ !d.setOff (setOf n)
  then d.chooseFor k n true else d

/-- An operation that may not be served now queues at MAPC. -/
def Dev.mapcQueue (d : Dev) (r : MapcReq) : Dev := { d with mapc := { d.mapc with waiting := d.mapc.waiting ++ [r] } }

/-- A clean line with a marked word is invalidated; a dirty one takes a repair slot, is written back with its marks and invalidated. -/
def Dev.dropMarkedLine (d : Dev) (k : Nat) : Dev :=
  let w := d.way k
  if w.st = .dirty then
    match (w.marks.head?).bind (d.takeRepair w.line) with
    | some d1 => (d1.writeLine w.line w.data w.marks).setWay k MapLine.init
    | none => d
  else d.setWay k MapLine.init

/-- A miss chooses its victim; while the victim is filling or evicting the operation only waits. -/
def Dev.mapcMiss (d : Dev) (l : Nat) : Dev :=
  let k := d.victim (setOf l)
  let st := (d.way k).st
  if st = .filling ∨ st = .evicting then d
  else (({ d with mapc := { d.mapc with misses := sat 0xFFFFFFFF (d.mapc.misses + 1) } }).chooseFor k l false).prefetchAfter l

/-- Tries an operation whose turn has come; the Bool says that it was served. -/
def Dev.mapcTry (d : Dev) (r : MapcReq) : Dev × Bool :=
  let l := lineOf r.diu
  if d.underRepair r.diu then (d, false)
  else if d.mapc.state = 0 ∨ d.setOff (setOf l) then d.mapcDirect r
  else match d.findLine l with
    | some k =>
      let w := d.way k
      if w.st = .filling ∨ w.st = .evicting then (d, false)
      else if w.marks != [] then
        let d1 := d.dropMarkedLine k
        (if d1.underRepair r.diu ∨ d1.mapc.state ≠ 1 ∨ (d1.findLine l).isSome then d1 else d1.mapcMiss l, false)
      else (d.mapcHit k r, true)
    | none =>
      if d.mapc.state = 2 then d.mapcDirect r
      else (if d.fillWaits l then d else d.mapcMiss l, false)

/-- Serves the operations that wait, in their order; one that may not be served keeps its place and holds back later ones on its line. -/
def Dev.mapcServe (d : Dev) : Dev :=
  let r := d.mapc.waiting.foldl (fun (acc : Dev × List MapcReq) q =>
    if acc.2.any (fun o => lineOf o.diu == lineOf q.diu) then (acc.1, acc.2 ++ [q])
    else
      let t := acc.1.mapcTry q
      (t.1, if t.2 then acc.2 else acc.2 ++ [q])) (d, [])
  { r.1 with mapc := { r.1.mapc with waiting := r.2 } }

/-- MAPC receives an operation. -/
def Dev.mapcIssue (d : Dev) (r : MapcReq) : Dev :=
  let d1 := { d with mapc := { d.mapc with lookups := sat 0xFFFFFFFF (d.mapc.lookups + 1), answer := none } }
  if d1.mapc.waiting.any (fun o => lineOf o.diu == lineOf r.diu) then d1.mapcQueue r
  else
    let t := d1.mapcTry r
    if t.2 then t.1 else t.1.mapcQueue r

/-- The fill of a line returns: marked data takes a repair slot, other data makes the line Clean and serves what queued (R355, R356). -/
def Dev.fillReturn (d : Dev) (l : Nat) : Dev :=
  match d.findLine l with
  | none => d
  | some k =>
    let w := d.way k
    if w.st ≠ .filling then d
    else match d.dramMarks l with
      | m :: _ =>
        match d.takeRepair l m with
        | some d1 => (d1.setWay k MapLine.init).mapcServe
        | none => d
      | [] =>
        let d1 := d.setWay k { w with st := .clean, data := d.bytes (lineAddr l) 160, prefetch := false }
        (if w.prefetch then d1 else d1.touchWay k).mapcServe

/-- The dirty line that is written back next while Disabling. -/
def Dev.evictNext (d : Dev) : Dev :=
  if d.mapc.state ≠ 2 ∨ d.mapc.lines.any (fun e => e.2.st == LineState.evicting) then d
  else match d.mapc.lines.find? (fun e => e.2.st == LineState.dirty) with
    | some e => d.setWay e.1 { e.2 with st := .evicting, next := none }
    | none => d

/-- A line's write-back is accepted: DRAM holds it; the fill that waited for the way is issued; stalled operations look up again. -/
def Dev.writebackAccepted (d : Dev) (l : Nat) : Dev :=
  match d.findLine l with
  | none => d
  | some k =>
    let w := d.way k
    if w.st ≠ .evicting then d
    else
      let d1 := d.writeLine w.line w.data w.marks
      let d2 := match w.next with
        | some n => d1.setWay k { line := n, st := .filling, data := [], marks := [], next := none, prefetch := w.prefetch }
        | none => d1.setWay k MapLine.init
      d2.mapcServe.evictNext

/-- Completes what a line waits for: the write-back of its victim, its own write-back, its fill. -/
def Dev.settleLine (d : Dev) (l : Nat) : Dev :=
  let d1 := match d.mapc.lines.find? (fun e => e.2.st == LineState.evicting && e.2.next == some l) with
    | some e => d.writebackAccepted e.2.line
    | none => d
  let d2 := match d1.findLine l with
    | some k => if (d1.way k).st = LineState.evicting then d1.writebackAccepted l else d1
    | none => d1
  d2.fillReturn l

/-- An operation issued by hardware that runs it to its end: its answer, or none while the entry waits for a repair. -/
def Dev.mapcRun (d : Dev) (r : MapcReq) : Dev × Option (Nat × Bool) :=
  let d1 := (((d.settleLine (lineOf r.diu)).mapcIssue r).settleLine (lineOf r.diu)).settleLine (lineOf r.diu)
  match d1.mapc.answer with
  | some a => if a.1 = r.diu ∧ !d1.mapc.waiting.contains r then (d1, some a.2)
    else ({ d1 with mapc := { d1.mapc with waiting := dropAll r d1.mapc.waiting } }, none)
  | none => ({ d1 with mapc := { d1.mapc with waiting := dropAll r d1.mapc.waiting } }, none)

/-- Lookup of a DIU run to its end. -/
def Dev.mapLookup (d : Dev) (diu : Nat) : Dev × Option Nat :=
  let r := d.mapcRun { diu := diu, op := 0, new := 0, old := 0 }
  (r.1, r.2.map (fun a => a.1))
/-- Update of a DIU run to its end; the entry it replaced. -/
def Dev.mapUpdate (d : Dev) (diu e : Nat) : Dev × Option Nat :=
  let r := d.mapcRun { diu := diu, op := 1, new := e, old := 0 }
  (r.1, r.2.map (fun a => a.1))
/-- Conditional update of a DIU run to its end: it was applied. -/
def Dev.mapUpdateIf (d : Dev) (diu e oldKey : Nat) : Dev × Bool :=
  let r := d.mapcRun { diu := diu, op := 2, new := e, old := oldKey }
  (r.1, match r.2 with
    | some a => a.2
    | none => false)

/-- The entry of a DIU as MAPC serves it, without an operation. -/
def Dev.mapPeek (d : Dev) (diu : Nat) : Nat :=
  match d.findLine (lineOf diu) with
  | some k => if (d.way k).st = .filling then ofLe (d.bytes (entryAddr diu) 5) else entryIn (d.way k).data diu
  | none => ofLe (d.bytes (entryAddr diu) 5)

/-! ### Enable, flush and clean (R357 to R359) -/

/-- ENABLE cleared: clean and filling lines go, dirty lines are written back in set order. -/
def Dev.mapcDisable (d : Dev) : Dev :=
  if d.mapc.state ≠ 1 then { d with mapc := { d.mapc with enable := false } }
  else
    let keep := d.mapc.lines.filter (fun e => e.2.st == LineState.dirty || e.2.st == LineState.evicting)
    let d1 := { d with mapc := { d.mapc with enable := false, state := 2, lines := Tab.mapVals (fun _ w => { w with next := none }) keep } }
    d1.mapcServe.evictNext

/-- ENABLE set while Disabled: every line Invalid. While Disabling it has no effect. -/
def Dev.mapcEnable (d : Dev) : Dev :=
  if d.mapc.state = 0 then { d with mapc := { d.mapc with enable := true, state := 1, lines := [] } } else d

/-- The flush has ended when no line is dirty or evicting. -/
def Dev.mapcFlushDone (d : Dev) : Dev :=
  if d.mapc.state = 2 ∧ d.mapc.lines = [] then { d with mapc := { d.mapc with state := 0, flushDone := true } } else d

/-- CLEAN: every dirty line is written back and stays valid. -/
def Dev.mapcClean (d : Dev) : Dev :=
  if d.mapc.state ≠ 1 then d
  else
    let d1 := (d.mapc.lines.filter (fun e => e.2.st == LineState.dirty)).foldl (fun d e =>
      (d.writeLine e.2.line e.2.data e.2.marks).setWay e.1 { e.2 with st := .clean }) d
    { d1 with mapc := { d1.mapc with cleanDone := true } }

/-- Writes back every dirty line of the cache and leaves every line Invalid: a bank goes Off (R359). -/
def Dev.mapcFlushBanks (d : Dev) : Dev :=
  let d1 := (d.mapc.lines.filter (fun e => e.2.st == LineState.dirty || e.2.st == LineState.evicting)).foldl (fun d e => d.writeLine e.2.line e.2.data e.2.marks) d
  { d1 with mapc := { d1.mapc with lines := [] } }.mapcServe

/-- RELEASE of a repair slot. -/
def Dev.repairRelease (d : Dev) (k : Nat) : Dev :=
  { d with mapc := { d.mapc with repairs := d.mapc.repairs.erase k } }.mapcServe

/-- MAPC.STAT.DIRTY: lines Dirty or Evicting. -/
def Dev.dirtyLines (d : Dev) : Nat := (d.mapc.lines.filter (fun e => e.2.st == LineState.dirty || e.2.st == LineState.evicting)).length
/-- Repair slots in use. -/
def Dev.repairsUsed (d : Dev) : Nat := ((List.range 4).filter (fun k => (d.repairSlot k).valid)).length

/-! ### The rows -/

/-- A DIU within the map. -/
def Dev.diuOk (d : Dev) (diu : Nat) : Bool := decide (diu < d.mapLimit)

/-- MAPC_LOOKUP. -/
def execMapcLookup (diu : BitVec 36) (s : State) : Out :=
  s.apply fun d => if d.diuOk diu.toNat then d.mapcIssue { diu := diu.toNat, op := 0, new := 0, old := 0 } else d
/-- MAPC_UPDATE. -/
def execMapcUpdate (diu : BitVec 36) (entry : BitVec 40) (s : State) : Out :=
  s.apply fun d => if d.diuOk diu.toNat then d.mapcIssue { diu := diu.toNat, op := 1, new := entry.toNat, old := 0 } else d
/-- MAPC_CONDITIONAL_UPDATE: the entry is written only if it still names the source slot. -/
def execMapcConditionalUpdate (diu : BitVec 36) (entry : BitVec 40) (source : BitVec 38) (s : State) : Out :=
  s.apply fun d => if d.diuOk diu.toNat then d.mapcIssue { diu := diu.toNat, op := 2, new := entry.toNat, old := source.toNat } else d
/-- MAP_CACHE_FILL_RETURN for a line. -/
def execMapCacheFillReturn (line : BitVec 31) (s : State) : Out := s.apply fun d => d.fillReturn line.toNat
/-- MAP_CACHE_WRITEBACK_ACCEPTED for a line. -/
def execMapCacheWritebackAccepted (line : BitVec 31) (s : State) : Out := s.apply fun d => d.writebackAccepted line.toNat
/-- MAPC_ENABLE_CLEAR. -/
def execMapcEnableClear (s : State) : Out := s.apply Dev.mapcDisable
/-- MAPC_ENABLE_SET. -/
def execMapcEnableSet (s : State) : Out := s.apply Dev.mapcEnable
/-- MAPC_FLUSH_DONE. -/
def execMapcFlushDone (s : State) : Out := s.apply Dev.mapcFlushDone
/-- CLEAN. -/
def execClean (s : State) : Out := s.apply Dev.mapcClean
/-- REPAIR_RELEASE of a slot. -/
def execRepairRelease (slot : Fin 4) (s : State) : Out := s.apply fun d => d.repairRelease slot.val

end Sys2Proof.Machine
end

