-- ==== Sys2Proof/Machine/Tally.lean ====
section
/-! DEFINITION. Lifecycle state and derived keys, the Tally: record layout, LMS leaves, appends and refusals
(R363, R365, R369, R370, R397 to R408). -/

namespace Sys2Proof.Machine

/-- Number of bits of a state field that read 1 (R363). -/
def stateOnes (b : BitVec 8) : Nat := countOnes 8 b.toNat
/-- A state field is taken as set when at least 5 of its 8 bits read 1 (R363). -/
def fieldSet (b : BitVec 8) : Bool := decide (5 ≤ stateOnes b)
/-- A state field with 3 or 4 bits set is an OTP integrity tamper (R363). -/
def fieldWeak (b : BitVec 8) : Bool := stateOnes b == 3 || stateOnes b == 4

/-- Lifecycle state (Table 14-5): 0 Blank, 1 Vendor-Provisioned, 2 Owned, 3 Decommissioned. -/
def FoldSt.lc (f : FoldSt) : Nat :=
  if fieldSet f.otp.decom then 3
  else if fieldSet f.otp.vp then (if f.ownerCtr % 2 = 0 then 1 else 2)
  else 0

/-- The active owner record: the copy whose GEN equals the counter (R370). -/
def FoldSt.owner (f : FoldSt) : Option OwnerRec :=
  if f.lc ≠ 2 then none
  else match f.ownerA, f.ownerB with
    | some a, b => if a.gen = f.ownerCtr then some a else (match b with
      | some b => if b.gen = f.ownerCtr then some b else none
      | none => none)
    | none, some b => if b.gen = f.ownerCtr then some b else none
    | none, none => none

/-- OWNERLOST: Owned, and neither copy is active (R370). -/
def FoldSt.ownerLost (f : FoldSt) : Bool := f.lc == 2 && f.owner.isNone

/-- COSIGN of the active owner record. -/
def FoldSt.cosign (f : FoldSt) : Bool :=
  match f.owner with
  | some o => bitOf o.policy 0
  | none => false

/-- SHA-384. -/
def sha384 (b : Bytes) : Bytes := padTo 48 (Config.digest 2 48 b)

/-- The UDS: unwrapped under the PUF key; none when the integrity check fails (R364). -/
def udsOf (o : OtpSt) : Option Bytes := Config.aesKwUnwrap Config.pufKey o.udsWrap

/-- Labels of R365, as ASCII bytes. -/
def lblId : Bytes := [0x4E, 0x4C, 0x2D, 0x45, 0x4F, 0x54, 0x49, 0x4E, 0x2D, 0x49, 0x44]
def lblHssSeed : Bytes := [0x4E, 0x4C, 0x2D, 0x45, 0x4F, 0x54, 0x49, 0x4E, 0x2D, 0x48, 0x53, 0x53, 0x2D, 0x53, 0x45, 0x45, 0x44]
def lblHssI : Bytes := [0x4E, 0x4C, 0x2D, 0x45, 0x4F, 0x54, 0x49, 0x4E, 0x2D, 0x48, 0x53, 0x53, 0x2D, 0x49]
def lblSeal : Bytes := [0x4E, 0x4C, 0x2D, 0x53, 0x45, 0x41, 0x4C]
def lblBlob : Bytes := [0x4E, 0x4C, 0x2D, 0x42, 0x4C, 0x4F, 0x42]
def lblMedia : Bytes := [0x4E, 0x4C, 0x2D, 0x4D, 0x45, 0x44, 0x49, 0x41]
def lblCdi1 : Bytes := [0x4E, 0x4C, 0x2D, 0x43, 0x44, 0x49, 0x31]
def lblAlias1 : Bytes := [0x4E, 0x4C, 0x2D, 0x41, 0x4C, 0x49, 0x41, 0x53, 0x31]
def lblCdi2 : Bytes := [0x4E, 0x4C, 0x2D, 0x43, 0x44, 0x49, 0x32]
def lblAlias2 : Bytes := [0x4E, 0x4C, 0x2D, 0x41, 0x4C, 0x49, 0x41, 0x53, 0x32]

/-- HMAC-SHA-384. -/
def hmac384 (k b : Bytes) : Bytes := padTo 48 (Config.hmac 2 k b)

/-- Bytes 0x000 to 0x0AF of an owner record (Table 14-6). -/
def OwnerRec.signed (o : OwnerRec) : Bytes :=
  leBytes 4 0x524E574F ++ leBytes 2 1 ++ zeros 2 ++ leBytes 8 o.gen ++ leBytes 4 o.policy ++ padTo 97 o.ecdsa ++ padTo 52 o.hss ++ zeros 7

/-- An owner record with its MAC under k_seal. -/
def OwnerRec.toBytes (kSeal : Bytes) (o : OwnerRec) : Bytes := o.signed ++ hmac384 kSeal o.signed

/-- owner_digest: SHA-384 of the active owner record, or 48 zero bytes (R365). -/
def FoldSt.ownerDigest (f : FoldSt) : Bytes :=
  match f.owner with
  | some o => sha384 (o.toBytes f.kSeal)
  | none => zeros 48

/-- The DEVICE bytes: the first 16 of SHA-384 of the Eotin identity public key (Table 15-2). -/
def FoldSt.device (f : FoldSt) : Bytes := (sha384 (Config.ecdsaPublic f.idPriv)).take 16

/-- Key-ID pair of a vendor pair: the first 16 bytes of each key hash (Table 2-13, Table 14-2). -/
def FoldSt.vendorKid (f : FoldSt) (i : Nat) : Bytes × Bytes :=
  (sliceOf f.otp.vendorKeys (96 * i) 16, sliceOf f.otp.vendorKeys (96 * i + 48) 16)

/-- Unrevoked vendor key-ID pairs. -/
def FoldSt.vendorPairs (f : FoldSt) : List (Bytes × Bytes) :=
  ((List.range 2).filter (fun i => !bitOf f.otp.vrevoke i)).map f.vendorKid

/-- Key-ID pair of the active owner's keys. -/
def FoldSt.ownerKid (f : FoldSt) : Option (Bytes × Bytes) :=
  f.owner.map (fun o => ((sha384 o.ecdsa).take 16, (sha384 o.hss).take 16))

/-- Fold core TIME (R42). -/
def Dev.foldTime (d : Dev) : Nat := (d.run - (d.core 0).releasedAt) / 4 * 4

/-! ### LMS leaves (R407, R408) -/

/-- A reservation of 256 leaves; it fails past 2^30. -/
def LmsSt.reserve (l : LmsSt) : Option LmsSt :=
  if 2 ^ 30 < l.cur + 256 then none
  else some { l with gen := l.gen + 1, next := l.cur + 256, lim := l.cur + 256 }

/-- Takes the next leaf: it is spent even if the append fails. -/
def LmsSt.take (l : LmsSt) : Option (Nat × LmsSt) :=
  match (if l.cur = l.lim then l.reserve else some l) with
  | none => none
  | some l1 => some (l1.cur, { l1 with cur := l1.cur + 1, builtTo := Nat.max l1.builtTo (l1.cur / 32768) })

/-! ### Records -/

/-- The header of Table 15-2 for a body of `n` bytes. -/
def Dev.recordHeader (d : Dev) (kind leaf ring n : Nat) : Bytes :=
  let f := d.fold
  let host := match d.nvme.timestamp with
    | some (ms, at_) => ms + (d.now - at_) / 1000000
    | none => 0
  leBytes 4 0x594C4154 ++ leBytes 2 1 ++ leBytes 1 kind ++ leBytes 1 f.lc ++ leBytes 8 (f.tally.rseq + 1) ++ leBytes 8 f.bootCtr
    ++ padTo 48 f.tally.prev ++ leBytes 4 (0x80 + n) ++ leBytes 4 (0x80 + n + 3396) ++ leBytes 8 leaf ++ leBytes 8 d.foldTime
    ++ leBytes 8 host ++ leBytes 2 ring ++ zeros 6 ++ padTo 16 f.device

/-- The body of a runtime entry (Table 15-8), padded to a multiple of 8. -/
def entryBody (e : Entry) : Bytes :=
  let dl := e.data.length
  leBytes 1 e.etype ++ leBytes 1 e.detail ++ leBytes 2 e.cntlid ++ leBytes 4 e.cid ++ leBytes 4 e.secver ++ leBytes 4 e.inst
    ++ leBytes 8 e.ref ++ padTo 48 e.digest ++ padTo 64 e.kids ++ leBytes 4 dl ++ leBytes 4 e.eflags
    ++ padTo (roundUp dl 8) e.data

/-- The bytes of a signed record (Tables 15-2 and 15-3). -/
def Dev.signedRecord (d : Dev) (kind leaf ring : Nat) (body : Bytes) : Bytes :=
  let b := d.recordHeader kind leaf ring body.length ++ body
  b ++ padTo 96 (Config.ecdsaSign d.fold.alias1 (sha384 b) d.free) ++ leBytes 4 3292 ++ zeros 4
    ++ padTo 3292 (Config.hssSign (d.fold.hssSeed ++ d.fold.hssI) leaf b)

/-- The sector after the one that receives its first record is erased (R397). -/
def TallySt.makeRoom (t : TallySt) (slot : Nat) : TallySt :=
  if slot % 8 = 0 then
    let nx := (slot / 8 + 1) % 512
    let hit := t.recs.any (fun e => e.1 / 8 == nx)
    { t with recs := t.recs.filter (fun e => e.1 / 8 != nx), wrapped := t.wrapped || hit }
  else t

/-- One attempt of an append: a leaf, a slot, and whether the read-back matches. -/
def Dev.appendOnce (d : Dev) (kind : Nat) (body : Bytes) (good : Bool) : Option Dev :=
  match d.fold.lms.take with
  | none => none
  | some (leaf, l) =>
    let t := d.fold.tally
    let slot := t.nextSlot
    let bytes := d.signedRecord kind leaf slot body
    let r : TallyRec := { rseq := t.rseq + 1, rkind := kind, bodyLen := 0x80 + body.length, bytes := bytes, good := good }
    let t1 := t.makeRoom slot
    let t2 := { t1 with recs := t1.recs.set slot r, nextSlot := (slot + 1) % 4096 }
    let t3 := if good then
        { t2 with head := slot, rseq := t.rseq + 1, prev := sha384 (bytes.take (0x80 + body.length)),
                  bootSlot := if kind = 1 then some slot else t2.bootSlot }
      else t2
    some { d.tickFree with fold := { d.fold with lms := l, tally := t3 } }

/-- The Fold can append: it runs, holds Alias 1, is not Decommissioned, and the store takes programs. -/
def Dev.canAppend (d : Dev) : Bool :=
  d.fold.lc != 3 && d.fold.alias1 != [] && !d.ilu.rstHold && !d.ilu.pfHold && d.pwr.pf == .idle

/-- An append fails: APPFAIL counts one and RSEQ is not consumed (R398). -/
def Dev.appendFailed (d : Dev) : Dev :=
  { d with fold := { d.fold with tally := { d.fold.tally with appFail := sat 0xFF (d.fold.tally.appFail + 1) } } }

/-- An append with `fails` slots whose read-back differs; the answer says whether it succeeded (R398). -/
def Dev.append (d : Dev) (kind : Nat) (body : Bytes) (fails : TallyFails) : Dev × Bool :=
  if !d.canAppend then (d.appendFailed, false)
  else match d.appendOnce kind body (fails == 0) with
    | none => (d.appendFailed, false)
    | some d1 =>
      if fails = 0 then (d1, true)
      else match d1.appendOnce kind body (fails == 1) with
        | none => (d1.appendFailed, false)
        | some d2 => if fails = 1 then (d2, true) else (d2.appendFailed, false)

/-- An append of a runtime entry. -/
def Dev.appendEntry (d : Dev) (e : Entry) (fails : TallyFails) : Dev × Bool := d.append 2 (entryBody e) fails

/-- An entry with every optional field zero. -/
def Entry.blank (etype : Nat) : Entry :=
  { etype := etype, detail := 0, cntlid := 0, cid := 0, secver := 0, inst := 0, ref := 0, digest := [], kids := [], data := [], eflags := 0 }

/-- CNTLID of a submitter: port × 64 + function + 1 (R131), or 0 for internal requests. -/
def cntlidOf (ctrl : Option Nat) : Nat :=
  match ctrl with
  | some k => k + 1
  | none => 0

/-- TALLY_APPEND: the Fold serves a request for a runtime entry. -/
def execTallyAppend (e : Entry) (fails : TallyFails) (s : State) : Out := s.apply fun d => (d.appendEntry e fails).1

/-- BOTTOM_TREE_BUILD: the next bottom tree is built once 16,384 leaves or fewer of the current one remain (R407). -/
def Dev.buildTree (d : Dev) : Dev :=
  let l := d.fold.lms
  if l.builtTo = l.cur / 32768 ∧ 16384 ≤ l.cur % 32768 then
    { d with fold := { d.fold with lms := { l with builtTo := l.builtTo + 1 } } }
  else d
/-- BOTTOM_TREE_BUILD. -/
def execBottomTreeBuild (s : State) : Out := s.apply Dev.buildTree

/-- A module refused with code 0x0A to 0x0D: an entry of type 0x02, or one more refusal counted within 60 s of the last (R405). -/
def Dev.recordRefusal (d : Dev) (e : Entry) (fails : TallyFails) : Dev :=
  let t := d.fold.tally
  let recent := match t.lastRefusal with
    | some a => decide (d.now < a + 60000000000)
    | none => false
  if recent then
    { d with fold := { d.fold with refusals := d.fold.refusals + 1, tally := { t with coalesced := sat 0xFF (t.coalesced + 1) } } }
  else
    let r := d.appendEntry { e with etype := 2, data := leBytes 8 d.fold.refusals } fails
    if r.2 then
      { r.1 with fold := { r.1.fold with refusals := 0, tally := { r.1.fold.tally with lastRefusal := some d.now, coalesced := 0 } } }
    else r.1

/-- Record digest of what a slot holds; zeros where it holds none (R400). -/
def TallySt.digestHead (t : TallySt) (slot : Option Nat) : Bytes :=
  match slot.bind (fun i => t.recs.get? i) with
  | some r => if r.good then sha384 (r.bytes.take r.bodyLen) else zeros 48
  | none => zeros 48

/-- LEAFLOW: fewer than 2^24 leaves remain (R408). -/
def LmsSt.low (l : LmsSt) : Bool := decide (2 ^ 30 - l.cur < 2 ^ 24)

/-! ### Anti-rollback counters (R395, R396) -/

/-- A component's counter; none for an owner component that has none while all 512 are in use. -/
def FoldSt.counter (f : FoldSt) (cid : Nat) : Option Nat :=
  if bitOf cid 31 then
    match f.ownerCtrs.get? cid with
    | some v => some v
    | none => if f.ownerCtrs.length < 512 then some 0 else none
  else some (f.vendorCtrs.get 0 cid)

/-- Raises a component's counter, its entry appended first; a counter that would not rise is left unchanged with no entry. The answer says
whether nothing failed. -/
def Dev.raiseCounter (d : Dev) (cid v : Nat) (cntlid : Nat) (fails : TallyFails) : Dev × Bool :=
  match d.fold.counter cid with
  | none => (d, false)
  | some old =>
    if v ≤ old then (d, true)
    else
      let r := d.appendEntry { Entry.blank 0x0A with cntlid := cntlid, cid := cid, secver := v, ref := old } fails
      if r.2 then
        let f := r.1.fold
        ({ r.1 with fold := if bitOf cid 31 then { f with ownerCtrs := f.ownerCtrs.set cid v }
                            else { f with vendorCtrs := f.vendorCtrs.set cid v } }, true)
      else (r.1, false)

end Sys2Proof.Machine
end

