-- ==== Sys2Proof/Machine/Dram.lean ====
section
/-! DEFINITION. The DRAM controller, the error-correcting codes' outcomes, the remap tables and the initialisation fill
(R320 to R324, R331 to R334, R339 to R350). -/

namespace Sys2Proof.Machine

/-! ### Addresses (R341) -/

/-- The device coordinates of a DRAM address. -/
structure DramAddr where
  ch : Nat
  bg : Nat
  col : Nat
  ba : Nat
  rk : Nat
  row : Nat
  deriving DecidableEq, Repr

/-- Two ranks by the strap. -/
def dramRanks (cfg : Nat) : Nat := if cfg = 2 ∨ cfg = 4 then 2 else 1
/-- Width of ROW by the strap. -/
def rowBits (cfg : Nat) : Nat := if cfg = 3 ∨ cfg = 5 then 17 else 16

/-- Takes fields of given widths from a number, lowest first. -/
def takeFields : List Nat → Nat → List Nat
  | [], _ => []
  | w :: ws, v => v % 2 ^ w :: takeFields ws (v / 2 ^ w)

/-- Decodes an address by the mapping order in use (Table 13-2). -/
def dramDecode (cfg order a : Nat) : DramAddr :=
  let v := (a - dramBase) / 128
  let c := if dramChannels cfg = 4 then 2 else 1
  let r := dramRanks cfg - 1
  match order with
  | 1 =>
    let f := takeFields [c, 7, 3, 2, r, rowBits cfg] v
    { ch := f.getD 0 0, col := f.getD 1 0, bg := f.getD 2 0, ba := f.getD 3 0, rk := f.getD 4 0, row := f.getD 5 0 }
  | 2 =>
    let f := takeFields [7, c, 3, 2, r, rowBits cfg] v
    { col := f.getD 0 0, ch := f.getD 1 0, bg := f.getD 2 0, ba := f.getD 3 0, rk := f.getD 4 0, row := f.getD 5 0 }
  | o =>
    let f := takeFields [c, 3, 7, 2, r, rowBits cfg] v
    let row := f.getD 5 0
    let x := if o = 3 then row else 0
    { ch := f.getD 0 0, bg := f.getD 1 0 ^^^ (x % 8), col := f.getD 2 0, ba := f.getD 3 0 ^^^ (x / 8 % 4), rk := f.getD 4 0, row := row }

/-- A row of a channel as one number: ROW, BANK, BG, RANK as a DRAM.REMAP entry lays them out. -/
def DramAddr.rowKey (x : DramAddr) : Nat := x.row + x.ba * 2 ^ 18 + x.bg * 2 ^ 20 + x.rk * 2 ^ 23

/-- A DRAM channel's state. -/
def Dev.dch (d : Dev) (n : Nat) : DramChan := d.dram.chans.get DramChan.init n
/-- Changes a DRAM channel's state. -/
def Dev.modDch (d : Dev) (n : Nat) (f : DramChan → DramChan) : Dev :=
  { d with dram := { d.dram with chans := d.dram.chans.set n (f (d.dch n)) } }
/-- The populated DRAM channels. -/
def Dev.dramPresent (d : Dev) : List Nat := List.range (dramChannels d.pins.dramCfg)

/-! ### Remap tables (R333, R334) -/

/-- SRAM macro group of an address, with the group's first address (R334); none outside SRAM. -/
def sramGroup (a : Nat) : Option (Nat × Nat) :=
  let mib := 0x100000
  if 0x80000 ≤ a ∧ a < 0x100000 then some (103, 0x80000)
  else if 0x1000000 ≤ a ∧ a < 0x1400000 then some (90 + (a - 0x1000000) / mib, a / mib * mib)
  else if 0x1400000 ≤ a ∧ a < 0x1480000 then some (104, 0x1400000)
  else if 0x1480000 ≤ a ∧ a < 0x14C0000 then some (105, 0x1480000)
  else if 0x2000000 ≤ a ∧ a < 0x4000000 then some (22 + (a - 0x2000000) / mib, a / mib * mib)
  else if 0x4000000 ≤ a ∧ a < 0x5800000 then some (54 + (a - 0x4000000) / mib, a / mib * mib)
  else if 0x6000000 ≤ a ∧ a < 0x6C00000 then some (78 + (a - 0x6000000) / mib, a / mib * mib)
  else if 0x8000000 ≤ a ∧ a < 0x8800000 then some (94 + (a - 0x8000000) / mib, a / mib * mib)
  else if 0x40000000 ≤ a ∧ a < 0x80000000 then
    let k := (a - 0x40000000) / 0x10000000
    let o := a % 0x10000000
    if o < 0x200000 then some (106 + 40 * k + o / 0x40000, a / 0x40000 * 0x40000)
    else if 0x1000000 ≤ o ∧ o < 0x2000000 then some (114 + 40 * k + (o - 0x1000000) / 0x80000, a / 0x80000 * 0x80000)
    else none
  else none

/-- HUB.SRAMREMAP word of group g, entry i. -/
def Dev.sramEntry (d : Dev) (g i : Nat) : Nat := d.integ.sramRemap.get 0 (g * 32 + i)
/-- DRAM.REMAP word of channel n, entry i. -/
def Dev.dramEntry (d : Dev) (n i : Nat) : Nat := d.dram.remap.get 0 (n * 64 + i)
/-- Valid entries of a DRAM channel. -/
def Dev.dramRemaps (d : Dev) (n : Nat) : Nat := ((List.range 64).filter (fun i => bitOf (d.dramEntry n i) 31)).length
/-- Valid SRAM entries of all groups, and groups with no free spare (Table 12-8). -/
def Dev.sramUsed (d : Dev) : Nat := (d.integ.sramRemap.filter (fun e => bitOf e.2 31)).length
/-- Groups with no free spare. -/
def Dev.sramFull (d : Dev) : Nat :=
  ((List.range 266).filter (fun g => (List.range 32).all (fun i => bitOf (d.sramEntry g i) 31))).length

/-- The 64 words, SEQ and CRC of a Fold remap record (R334). -/
def Dev.foldRemapBytes (d : Dev) (seq : Nat) : Bytes :=
  let b := (List.range 64).flatMap (fun k => leBytes 4 (d.sramEntry (102 + k / 32) (k % 32))) ++ leBytes 8 seq
  b ++ leBytes 4 (crc32c b)
/-- SEQ of the Fold remap record in a store sector, when its CRC verifies. -/
def IluSt.foldRemapSeq (i : IluSt) (s : Nat) : Option Nat :=
  let b := i.read (s * 65536) 268
  if crc32c (b.take 264) = leAt b 264 4 then some (leAt b 256 8) else none
/-- The Fold writes its remap record into the older of its two copies. -/
def Dev.saveFoldRemap (d : Dev) : Dev :=
  let a := (d.ilu.foldRemapSeq 14).getD 0
  let b := (d.ilu.foldRemapSeq 15).getD 0
  let s := if a ≤ b then 14 else 15
  (d.norErase s).norProgram (s * 65536) (d.foldRemapBytes (Nat.max a b + 1))

/-- Body of the remap record (RTYPE 0x03 of R447): the SRAM words with zeros for groups 102 and 103, then the DRAM words. -/
def Dev.remapBody (d : Dev) : Bytes :=
  (List.range (266 * 32)).flatMap (fun k => leBytes 4 (if k / 32 = 102 ∨ k / 32 = 103 then 0 else d.integ.sramRemap.get 0 k))
    ++ (List.range 256).flatMap (fun k => leBytes 4 (d.dram.remap.get 0 k))
/-- V firmware writes the remap record: the record, its measurement at the Fold, then COMMIT (R447). -/
def Dev.saveRemap (d : Dev) : Dev :=
  let b := d.remapBody
  let r := d.writeRecord calbMagic 1062 1093 3 0 0 b false
  let e := { Entry.blank 3 with detail := 3, digest := sha384 b, inst := coreIdOf 4 }
  let a := r.1.appendEntry e 0
  if a.2 then a.1.commitRecord r.2.1 r.2.2 else a.1

/-- A hard fault of an SRAM word takes the group's next free spare; an entry that served the word is flagged BAD (R334). -/
def Dev.sramHard (d : Dev) (g base a : Nat) : Dev :=
  let w := (a - base) / 8
  let tab := d.integ.sramRemap.mapVals (fun k v => if k / 32 = g ∧ bitOf v 31 ∧ !bitOf v 30 ∧ bitsOf v 16 0 = w then v + 2 ^ 30 else v)
  let d0 := { d with integ := { d.integ with hard := sat 0xFF (d.integ.hard + 1), sramRemap := tab } }
  match (List.range 32).find? (fun i => !bitOf (d0.sramEntry g i) 31) with
  | some i =>
    let d1 := ({ d0 with integ := { d0.integ with sramRemap := d0.integ.sramRemap.set (g * 32 + i) (2 ^ 31 + w) } }).post
      (if 106 ≤ g then 0x018 + (g - 106) / 40 else 0x00E) a (g * 32 + i) 0x03 1
    if g = 102 ∨ g = 103 then d1.saveFoldRemap else d1.saveRemap
  | none => d0.post (if 106 ≤ g then 0x018 + (g - 106) / 40 else 0x00E) g 0 0x02 2

/-! ### Outcomes of reads (R323, R324) -/

/-- Creates a raddle mark: SMART Media and Data Integrity Errors, and a record of the memory's source. -/
def Dev.createMark (d : Dev) (src obj : Nat) : Dev :=
  { d with integ := { d.integ with mdi := d.integ.mdi + 1 } }.post src obj 0 0x01 2

/-- The unit in staging at an address of the staging SRAM, and its codeword there. Units lie one after another, data before spares
(DESIGN CHOICE, assumption log 64). A word of the metadata codeword belongs to the codeword whose metadata it holds (R223). -/
def Dev.stagedAt (d : Dev) (a : Nat) : Option (UnitSt × Nat) :=
  let o := (a - stagingBase) % 198144
  if a < stagingBase then none
  else (d.drove.units[(a - stagingBase) / 198144]?).map (fun u =>
    let k := if o < 196608 then o / 4096 else (o - 196608) / 32
    (u, if u.metaCw ∧ k = 47 ∧ o < 196608 then o % 4096 / 48 else k))
/-- A word of a unit in staging is marked: the codeword that holds it is. -/
def Dev.markStaged (d : Dev) (a : Nat) : Dev :=
  match d.stagedAt a with
  | none => d
  | some (u, k) => { d with drove := { d.drove with units := d.drove.units.map (fun v =>
      if v.serial = u.serial ∧ v.row = u.row ∧ v.member = u.member then
        { v with cws := v.cws.mapVals (fun j c => if j = k then { c with marked := true } else c) }
      else v) } }

/-- A marked word of the namespace table, which rebuild's pass descriptors lie with, brings device fatal (R330). -/
def Dev.lostTable (d : Dev) (src a : Nat) : Dev :=
  if d.reservedBase ≤ a ∧ a < d.reservedBase + 0x1000000 then d.enterFatal 5 src else d
/-- Marks both words of the 16-byte DRAM codeword of an address (R323). -/
def Dev.markDram (d : Dev) (a : Nat) : Dev := (d.mark (a / 16 * 16)).mark (a / 16 * 16 + 8)

/-- A row of a DRAM channel enters a remap entry for a device; with the entries used up a record is posted (R333). -/
def Dev.dramRemapRow (d : Dev) (n : Nat) (x : DramAddr) (dev : Nat) : Dev :=
  let key := x.rowKey + dev * 2 ^ 24
  if (List.range 64).any (fun i => bitOf (d.dramEntry n i) 31 && d.dramEntry n i % 2 ^ 29 == key) then d
  else match (List.range 64).find? (fun i => !bitOf (d.dramEntry n i) 31) with
    | none => d.post 0x036 n 0 0x02 2
    | some i =>
      let ppr := bitOf (d.dch n).ppr (x.rk * 8 + x.bg)
      { d with dram := { d.dram with remap := d.dram.remap.set (n * 64 + i) (key + 2 ^ 31 + bit ppr * 2 ^ 29) } }.saveRemap

/-- The marker for an uncorrectable error in the log of a row's errors. -/
def ueDevice : Nat := 31

/-- The graze policy's rule for a corrected error of a row (R333): ROW_CE_LIMIT errors of one device within 24 h, or a corrected error
in a row where an uncorrectable one was found. -/
def Dev.dramCeRule (d : Dev) (n : Nat) (x : DramAddr) (dev : Nat) : Dev :=
  let day := 86400000000000
  let log := (d.dram.ceLog ++ [(n, x.rowKey, dev, d.now)]).filter (fun e => e.2.2.1 == ueDevice || decide (d.now < e.2.2.2 + day))
  let d1 := { d with dram := { d.dram with ceLog := log } }
  let same := (log.filter (fun e => e.1 == n && e.2.1 == x.rowKey && e.2.2.1 == dev)).length
  let ue := log.any (fun e => e.1 == n && e.2.1 == x.rowKey && e.2.2.1 == ueDevice)
  if d.cfgv 0x016 6 ≤ same ∨ ue then d1.dramRemapRow n x dev else d1

/-- A read of memory at an address has an outcome: an uncorrectable unit is written back marked, a corrected one is written back. -/
def Dev.memFault (d : Dev) (a : Nat) (f : MemFault) : Dev :=
  if dramBase ≤ a then
    if dramBase + d.dramSize ≤ a then d
    else
      let x := dramDecode d.pins.dramCfg d.dram.order a
      match f with
      | .clean => d
      | .corrected dev _ => (d.modDch x.ch (fun c => { c with ce := sat 0xFFFF (c.ce + 1) })).dramCeRule x.ch x dev.toNat
      | .uncorrectable =>
        let d1 := (d.modDch x.ch (fun c => { c with ue := sat 0xFF (c.ue + 1) })).markDram a
        { d1 with dram := { d1.dram with ceLog := d1.dram.ceLog ++ [(x.ch, x.rowKey, ueDevice, d.now)] } }.createMark (0x014 + x.ch) a |>.lostTable (0x014 + x.ch) a
  else match sramGroup a with
    | none => d
    | some (g, base) =>
      let src := if 106 ≤ g then 0x018 + (g - 106) / 40 else 0x00E
      match f with
      | .clean => d
      | .corrected _ hard =>
        let d1 := { d with integ := { d.integ with ce := sat 0xFFFF (d.integ.ce + 1) } }
        if hard then d1.sramHard g base a else d1
      | .uncorrectable =>
        let d1 := if inStaging a 1 then d.markStaged a else d
        { d1.mark a with integ := { d.integ with ue := sat 0xFF (d.integ.ue + 1) } }.createMark src a

/-- A read of a word of a map cache line has an outcome. -/
def Dev.mapLineFault (d : Dev) (line word : Nat) (f : MemFault) : Dev :=
  match d.findLine line with
  | none => d
  | some k =>
    match f with
    | .clean => d
    | .corrected _ _ => { d with integ := { d.integ with ce := sat 0xFFFF (d.integ.ce + 1) } }
    | .uncorrectable =>
      let w := d.way k
      { d.setWay k { w with marks := addOnce word w.marks } with integ := { d.integ with ue := sat 0xFF (d.integ.ue + 1) } }.createMark
        0x00E (lineAddr line + 8 * word)

/-! ### Requests, refresh and training (R343 to R350) -/

/-- A request of a port is accepted, scheduled and ends after a latency (R344, R345): the port's registers, and the codeword's outcome. -/
def Dev.dramRequest (d : Dev) (port a lat : Nat) (f : MemFault) : Dev :=
  let x := dramDecode d.pins.dramCfg d.dram.order a
  if a < dramBase ∨ dramBase + d.dramSize ≤ a ∨ !(d.dch x.ch).up then d
  else
    let d0 := d.wakePad (221 + x.ch)
    let late := decide (d.cfgv 0x009 (0x10 + port) ≤ lat)
    { d0 with dram := { d0.dram with
        maxlat := d0.dram.maxlat.modify 0 port (fun v => Nat.max v (sat 0xFFFF lat)),
        late := d0.dram.late.modify 0 port (fun v => sat 0xFFFF (v + bit late)) } }.memFault a f
/-- DRAM_REQUEST: the port, the address, the latency in ns from acceptance to end, and what the codeword read as. -/
def execDramRequest (port : Fin 8) (a : BitVec 48) (lat : BitVec 16) (f : MemFault) (s : State) : Out :=
  s.apply fun d => d.dramRequest port.val a.toNat lat.toNat f

/-- An all-bank refresh: a ZQ result is latched (R347, R349). -/
def Dev.dramRefresh (d : Dev) (n : Nat) : Dev :=
  if (d.dch n).up && d.pad (221 + n) == 0 then d.modDch n (fun c => { c with refreshes := c.refreshes + 1, zqPending := false }) else d
/-- DRAM_REFRESH of a channel. -/
def execDramRefresh (n : Fin 4) (s : State) : Out := s.apply fun d => d.dramRefresh n.val

/-- ZQ calibration starts. -/
def Dev.zqStart (d : Dev) (n : Nat) : Dev := if (d.dch n).up then d.modDch n (fun c => { c with zqPending := true }) else d
/-- ZQ_CALIBRATION of a channel. -/
def execZqCalibration (n : Fin 4) (s : State) : Out := s.apply fun d => d.zqStart n.val

/-- The MR4 poll: `need` is the strongest requirement any device reports: 0 for 1×, 1 for 2×, 2 for above 2×, at channel n (R347). -/
def Dev.mr4Poll (d : Dev) (need n : Nat) : Dev :=
  if need = 0 then
    let k := d.dram.ok1x + 1
    { d with dram := { d.dram with ok1x := k, ref2x := d.dram.ref2x && decide (k < 2) } }
  else
    let d1 := { d with dram := { d.dram with ok1x := 0, ref2x := true } }
    if need = 1 then d1
    else ({ d1 with thm := { d1.thm with alert := true } }).post (0x014 + n) n need 0x0A 2
/-- MR4_POLL. -/
def execMr4Poll (need : Fin 3) (n : Fin 4) (s : State) : Out :=
  s.apply fun d => if d.dramPresent.any (fun c => (d.dch c).up) then d.mr4Poll need.val n.val else d

/-- The drift check: drift beyond the delay lines' range makes a retrain due (R349). -/
def Dev.driftCheck (d : Dev) (n : Nat) (beyond : Bool) : Dev :=
  if beyond && (d.dch n).up && !(d.dch n).due then d.modDch n (fun c => { c with due := true, dueAt := d.now }) else d
/-- DRIFT_CHECK of a channel. -/
def execDriftCheck (n : Fin 4) (beyond : Bool) (s : State) : Out := s.apply fun d => d.driftCheck n.val beyond

/-- START of a channel: it retrains, or waits while another channel does; ignored when no retrain is due. -/
def Dev.retrainStart (d : Dev) (n : Nat) : Dev :=
  let c := d.dch n
  if !c.due || c.busy then d
  else if d.dram.chans.any (fun e => e.2.busy) then d.modDch n (fun c => { c with startQueued := true })
  else d.modDch n (fun c => { c with busy := true, startQueued := false })
/-- RETRAIN_START of a channel. -/
def execRetrainStart (n : Fin 4) (s : State) : Out := s.apply fun d => d.retrainStart n.val
/-- TRAIN_DEFER_EXPIRY: TRAIN_DEFER_MS after a retrain became due hardware starts it. -/
def execTrainDeferExpiry (n : Fin 4) (s : State) : Out :=
  s.apply fun d => if (d.dch n.val).due && !(d.dch n.val).busy
    then (d.advanceTo ((d.dch n.val).dueAt + d.cfgv 0x009 0x22 * 1000000)).retrainStart n.val else d

/-- A training of a channel ends after a number of failed attempts: three at 8,000 MT/s, then three at 6,400 MT/s; after six the channel is
FAILED and the device enters device fatal (R348, R349, R513). -/
def Dev.dramTraining (d : Dev) (n fails ppr : Nat) : Dev :=
  let c := d.dch n
  if dramChannels d.pins.dramCfg ≤ n ∨ c.failed ∨ (c.up && !c.busy) then d
  else
    let retrain := c.busy
    let tried := if retrain && c.stepped then fails + 3 else fails
    let c1 := { c with up := decide (tried < 6), failed := decide (6 ≤ tried), stepped := c.stepped || (decide (3 ≤ tried) && decide (tried < 6)),
                       busy := false, due := false, startQueued := false, ppr := if retrain then c.ppr else ppr % (if dramRanks d.pins.dramCfg = 1 then 0x100 else 0x10000) }
    let d1 := d.modDch n (fun _ => c1)
    let d2 := if retrain then { d1 with dram := { d1.dram with retrains := sat 0xFF (d1.dram.retrains + 1) } } else d1
    let d3 := if 0 < fails then d2.post (0x014 + n) n fails 0x06 2 else d2
    let d4 := if 6 ≤ tried then d3.enterFatal 5 (0x014 + n) else d3
    match d4.dram.chans.find? (fun e => e.2.startQueued) with
    | some e => d4.retrainStart e.1
    | none => d4
/-- DRAM_TRAINING: the channel, its failed attempts, and the hPPR resources its devices report (R350). -/
def execDramTraining (n : Fin 4) (fails : Fin 7) (ppr : BitVec 16) (s : State) : Out :=
  s.apply fun d => if d.clk.started then d.dramTraining n.val fails.val ppr.toNat else d

/-! ### Initialisation fill (R331, Table 12-4) -/

/-- Loads the remap tables of step 3: the newest committed remap record, and the newer verifying Fold copy for groups 102 and 103. -/
def Dev.loadRemaps (d : Dev) : Dev :=
  let rs := d.ilu.calb.filter (fun r => r.rtype == 3 && r.commit && !r.void)
  let rec? := (rs.find? (fun r => r.seq == maxSeq rs)).bind (fun r => if r.crcOk then some r.body else none)
  let a := d.ilu.foldRemapSeq 14
  let b := d.ilu.foldRemapSeq 15
  let fold? : Option Nat := match a, b with
    | some x, some y => some (if x < y then 15 else 14)
    | some _, none => some 14
    | none, some _ => some 15
    | none, none => none
  let body := rec?.getD []
  let word := fun k => leAt body (4 * k) 4
  let sram : Tab Nat := ((List.range (266 * 32)).filter (fun k => k / 32 != 102 && k / 32 != 103 && word k != 0)).map (fun k => (k, word k))
  let dram : Tab Nat := ((List.range 256).filter (fun k => word (266 * 32 + k) != 0)).map (fun k => (k, word (266 * 32 + k)))
  let fw : List (Nat × Nat) := match fold? with
    | some s => (List.range 64).map (fun k => (102 * 32 + k, leAt (d.ilu.read (s * 65536) 268) (4 * k) 4))
    | none => []
  let sram1 := (fw.filter (fun e => e.2 != 0)).foldl (fun (t : Tab Nat) e => t.set e.1 e.2) sram
  { d with integ := { d.integ with sramRemap := sram1, remapErr := rec?.isNone || fold?.isNone },
           dram := { d.dram with remap := dram } }

/-- Steps 2 to 4: Fold scratch and key store, the remap tables, all other SRAM. The mapping order is fixed here, before training (R342). -/
def Dev.fillSram (d : Dev) : Dev :=
  let o := d.ilu.canonical.get 0 (cfgId 0x009 1)
  let d1 := d.loadRemaps.setRoField (cfgId 0x009 2) o
  { d1 with integ := { d1.integ with foldSram := true, sram := true }, dram := { d1.dram with order := o } }

/-- Steps 5 and 6: hPPR of the entries that ask for it, then the DRAM fill; a warm reset keeps DRAM and skips step 6 (R520). -/
def Dev.fillDram (d : Dev) (fails : List Nat) : Dev :=
  let asks := fun (e : Nat × Nat) => bitOf e.2 31 && bitOf e.2 29
  let tab := d.dram.remap.filter (fun e => !asks e || fails.contains e.1)
  let d1 := { d with dram := { d.dram with remap := tab }, integ := { d.integ with dram := true, pprFail := tab.any asks } }
  if d.evt.rstInplace then d1 else d1.loseRange dramBase d.dramSize
/-- INITIALISATION_FILL: the SRAM steps, and once every populated DRAM channel is trained the DRAM steps. `pprFails` numbers the entries
(channel × 64 + entry) whose hPPR fails. A reserved DRAM_CFG value stops the
sequence and is reported as device fatal (R339). -/
def execInitialisationFill (pprFails : List (BitVec 8)) (s : State) : Out :=
  s.apply fun d =>
    if !d.clk.started || d.pwr.standby then d
    else if 6 ≤ d.pins.dramCfg then (if d.evt.fatal then d else d.enterFatal 5 0x014)
    else
      let d1 := if d.integ.sram then d else d.fillSram
      if !d1.integ.dram && d1.dramPresent.all (fun n => (d1.dch n).up) then d1.fillDram (pprFails.map BitVec.toNat) else d1

/-- NAND_GRAZE_LATE: the current NAND pass has run over GRAZE_NAND_DAYS (R336). -/
def Dev.nandGrazeLate (d : Dev) : Dev :=
  match d.integ.passStart with
  | none => d
  | some t =>
    if d.integ.nandLate then d
    else
      let limit := t + d.cfgv 0x016 1 * 86400000000000
      { d.advanceTo limit with integ := { d.integ with nandLate := true } }.post 0x036 0 (d.cfgv 0x016 1) 0x0A 2
/-- NAND_GRAZE_LATE. -/
def execNandGrazeLate (s : State) : Out := s.apply Dev.nandGrazeLate

end Sys2Proof.Machine
end

