-- ==== Sys2Proof/Machine/Gf.lean ====
section
/-! DEFINITION. Parity arithmetic over GF(2^8) with field polynomial 0x11D and generator 2 (R95, R248, R250). -/

namespace Sys2Proof.Machine

/-- One doubling in the field. -/
def gdouble (a : Nat) : Nat := if 128 ≤ a then (a * 2) ^^^ 0x11D else a * 2

/-- Product: `n` bits of `b` are left, `a` has been doubled for those taken. -/
def gmulFuel : Nat → Nat → Nat → Nat
  | 0, _, _ => 0
  | n + 1, a, b => (if b % 2 = 1 then a else 0) ^^^ gmulFuel n (gdouble a) (b / 2)

/-- gfmul. -/
def gmul (a b : Nat) : Nat := gmulFuel 8 a b

/-- g^n for g = 2. -/
def gpow : Nat → Nat
  | 0 => 1
  | n + 1 => gdouble (gpow n)

/-- Power of an element. -/
def gexp (a : Nat) : Nat → Nat
  | 0 => 1
  | n + 1 => gmul a (gexp a n)

/-- Inverse: a^254. -/
def ginv (a : Nat) : Nat := gexp a 254

/-- Bytewise XOR; the shorter list counts as followed by zeros. -/
def xorBytes : Bytes → Bytes → Bytes
  | [], b => b
  | a, [] => a
  | x :: a, y :: b => (x ^^^ y) :: xorBytes a b

/-- A byte string times a coefficient. -/
def scaleBytes (c : Nat) (b : Bytes) : Bytes :=
  if c = 0 then zeros b.length else if c = 1 then b else b.map (fun x => BitVec.ofNat 8 (gmul c x.toNat))

/-- The levels of protection (R248). -/
inductive PLevel where
  | p | q | lamb
  deriving DecidableEq, Repr

/-- Coefficient of data member i at a level; k is the number of parity members. -/
def coefOf (k : Nat) (l : PLevel) (i : Nat) : Nat :=
  match l with
  | .p => 1
  | .q => gpow i
  | .lamb => if k = 2 then gexp 4 i else gpow i

/-- Determinant of a square matrix of at most 3 rows. -/
def gdet : List (List Nat) → Nat
  | [[a]] => a
  | [[a, b], [c, d]] => gmul a d ^^^ gmul b c
  | [[a, b, c], [d, e, f], [g, h, i]] =>
    gmul a (gmul e i ^^^ gmul f h) ^^^ gmul b (gmul d i ^^^ gmul f g) ^^^ gmul c (gmul d h ^^^ gmul e g)
  | _ => 0

/-- A list without its j-th element. -/
def dropIdx {α : Type} (j : Nat) (l : List α) : List α := l.take j ++ l.drop (j + 1)

/-- Cofactor of row i and column j; in characteristic 2 it carries no sign. -/
def gcofactor (m : List (List Nat)) (i j : Nat) : Nat :=
  if m.length = 1 then 1 else gdet ((dropIdx i m).map (dropIdx j))

/-- Solves for the lost members' words from as many syndromes: one per level, each the level's word with every surviving member's term
removed. None when the levels do not cover the losses. -/
def solveLost (k : Nat) (levels : List (PLevel × Bytes)) (lost : List Nat) : Option (List (Nat × Bytes)) :=
  let ls := levels.take lost.length
  if ls.length < lost.length ∨ 3 < lost.length then none
  else
    let m := ls.map (fun l => lost.map (coefOf k l.1))
    let det := gdet m
    if lost = [] then some []
    else if det = 0 then none
    else
      let inv := ginv det
      some ((List.range lost.length).map (fun j =>
        (lost.getD j 0, (List.range ls.length).foldl (fun acc i =>
          xorBytes acc (scaleBytes (gmul inv (gcofactor m i j)) ((ls.getD i (.p, [])).2))) [])))

end Sys2Proof.Machine
end

