-- ==== Sys2Proof/Machine/KeyStore.lean ====
section
/-! DEFINITION. The key store, the private key bus, the unwrap engine, entropy and the channel-die DRBGs
(R382 to R388, R412 to R414, R419 to R421). -/

namespace Sys2Proof.Machine

/-- A key slot. -/
def Dev.slot (d : Dev) (i : Nat) : KeySlot := d.keys.slots.get KeySlot.init i
/-- Replaces a key slot; an Empty slot with no use is not listed. -/
def Dev.setSlot (d : Dev) (i : Nat) (x : KeySlot) : Dev :=
  { d with keys := { d.keys with slots := if x = KeySlot.init then d.keys.slots.erase i else d.keys.slots.set i x } }

/-- A KEK slot (R421). -/
def kekSlot (i : Nat) : Bool := decide (16368 ≤ i)

/-- A FOP may name the slot: Loaded and not a KEK slot (R204, R421). -/
def Dev.slotUsable (d : Dev) (i : Nat) : Bool := (d.slot i).st == .loaded && !kekSlot i

/-- The in-use count rises at a FOP issue that names the slot (R383). -/
def Dev.slotUse (d : Dev) (i : Nat) : Dev := d.setSlot i { d.slot i with inUse := (d.slot i).inUse + 1 }
/-- The in-use count falls at that operation's completion. -/
def Dev.slotDrop (d : Dev) (i : Nat) : Dev :=
  if (d.slot i).inUse = 0 then d else d.setSlot i { d.slot i with inUse := (d.slot i).inUse - 1 }

/-- KEY.CMD clear of a slot (Table 14-14): slot 0 is refused, an Empty slot completes at once, a Loaded slot goes to Clearing. -/
def Dev.keyClear (d : Dev) (i : Nat) : Dev :=
  let d0 := { d with keys := { d.keys with cmdSlot := i } }
  if d.keys.busy || i == 0 || (d.slot i).st != .loaded then d0
  else
    let d1 := d0.setSlot i { d.slot i with st := .clearing }
    { d1 with keys := { d1.keys with busy := true } }

/-- A Clearing slot whose in-use count is 0 becomes Empty: its cache entries are invalidated and the clear completes. -/
def Dev.slotEmpty (d : Dev) (i : Nat) : Dev :=
  if (d.slot i).st = .clearing ∧ (d.slot i).inUse = 0 then
    let d1 := d.setSlot i KeySlot.init
    { d1 with keys := { d1.keys with busy := d1.keys.slots.any (fun e => e.2.st == .clearing),
                                     caches := d1.keys.caches.mapVals (fun _ l => dropAll i l) } }
  else d

/-- Zeroize: every slot Empty, every engine cache invalidated (R386). -/
def Dev.zeroize (d : Dev) : Dev :=
  { d with keys := { d.keys with slots := [], caches := [], busy := false } }

/-- A write of KEY.CMD: SLOT is kept; OP 0b01 clears, 0b10 zeroizes, others are ignored, all ignored while BUSY (Table 14-19). -/
def Dev.keyCmd (d : Dev) (v : Nat) : Dev :=
  let s := bitsOf v 13 0
  if d.keys.busy then { d with keys := { d.keys with cmdSlot := s } }
  else if bitsOf v 15 14 = 1 then d.keyClear s
  else if bitsOf v 15 14 = 2 then { d.zeroize with keys := { d.zeroize.keys with cmdSlot := s } }
  else { d with keys := { d.keys with cmdSlot := s } }

/-- KEY_CLEAR. -/
def execKeyClear (slot : Fin 16384) (s : State) : Out := s.apply fun d => d.keyCmd (slot.val + 0x4000)
/-- ZEROIZE. -/
def execZeroize (s : State) : Out := s.apply fun d => d.keyCmd (d.keys.cmdSlot + 0x8000)
/-- SLOT_IN_USE_ZERO. -/
def execSlotInUseZero (slot : Fin 16384) (s : State) : Out := s.apply fun d => d.slotEmpty slot.val

/-- AES.STAT.MISSES and AES.STALL.NS of a channel rise at an engine cache miss (Tables 16-1, 16-2). -/
def Dev.countMiss (d : Dev) (ch ns : Nat) : Dev :=
  { d with aes := { d.aes with misses := d.aes.misses.set ch (sat 0xFFFF (d.aes.misses.get 0 ch + 1)),
                               stalls := d.aes.stalls.set ch (sat 0xFFFFFFFF (d.aes.stalls.get 0 ch + ns)) } }

/-- An engine of a channel asks for a slot (R384, R414): a cached key costs nothing; a miss loads the slot, replacing the least recently used of
8 entries, in 7 ns. A Clearing slot is served only for operations issued before the clear, a KEK slot never, and nothing is served
while the Fold is in reset (R362). -/
def Dev.keyBus (d : Dev) (ch eng slot : Nat) : Dev :=
  let k := ch * 8 + eng
  let c := d.keys.caches.get [] k
  let x := d.slot slot
  if c.contains slot then { d with keys := { d.keys with caches := d.keys.caches.set k (dropAll slot c ++ [slot]) } }
  else if d.fold.inReset || kekSlot slot || x.st == .empty || (x.st == .clearing && x.inUse == 0) then d
  else
    let c1 := if c.length < 8 then c else c.drop 1
    ({ d with keys := { d.keys with caches := d.keys.caches.set k (c1 ++ [slot]) } } : Dev).countMiss ch 7
/-- KEY_BUS_REQUEST. -/
def execKeyBusRequest (ch : Chan) (eng : Fin 8) (slot : Fin 16384) (s : State) : Out := s.apply fun d => d.keyBus ch.val eng.val slot.val

/-! ### The unwrap engine (R420, R421) -/

/-- The descriptor at an offset of Fold scratch. -/
def Dev.unwrapDesc (d : Dev) (off : Nat) : UnwrapOp :=
  let b := d.bytes (scratchBase 0 + off) 64
  { op := leAt b 0 1, gen := leAt b 1 1, slot := leAt b 2 2, kek := leAt b 4 2, nsid := leAt b 6 2, startWsn := leAt b 8 8,
    src := leAt b 0x10 8, dst := leAt b 0x18 8,
    bad := !allZero (b.drop 0x20) || leAt b 0 1 == 0 || decide (4 < leAt b 0 1) }

/-- The direct address of an operand of the unwrap engine: in Fold scratch or staging. -/
def unwrapAddr (a n : Nat) : Option Nat :=
  match inScratch 0 a n with
  | some x => some x
  | none => if inStaging a n then some a else none

/-- A write of KEY.UADDR: ignored while an operation is in progress or off a multiple of 64 outside Fold scratch. -/
def Dev.unwrapStart (d : Dev) (off : Nat) : Dev :=
  if d.keys.uop.isSome then d
  else
    let o := d.unwrapDesc off
    { d with keys := { d.keys with uaddr := off, uop := some { o with bad := o.bad || off % 64 != 0 || decide (0x80000 < off + 64) } } }

/-- Bytes 0x00 to 0x5F of a key blob (Table 16-5). -/
def blobSigned (kBlob : Bytes) (kind gen slot nsid wsn : Nat) (key : Bytes) : Bytes :=
  leBytes 4 0x424C424B ++ leBytes 2 1 ++ leBytes 1 kind ++ leBytes 1 gen ++ leBytes 2 slot ++ leBytes 2 nsid ++ zeros 4
    ++ leBytes 8 wsn ++ padTo 72 (Config.aesKwWrap kBlob key)

/-- A key blob: 0x90 bytes with its MAC. -/
def FoldSt.blob (f : FoldSt) (kind gen slot nsid wsn : Nat) (key : Bytes) : Bytes :=
  let b := blobSigned f.kBlob kind gen slot nsid wsn key
  b ++ hmac384 f.kSeal b

/-- Checks a blob and unwraps its 64 bytes: KIND and key. -/
def FoldSt.openBlob (f : FoldSt) (b : Bytes) : Option (Nat × Bytes) :=
  if leAt b 0 4 ≠ 0x424C424B ∨ leAt b 4 2 ≠ 1 ∨ hmac384 f.kSeal (b.take 0x60) ≠ sliceOf b 0x60 48 then none
  else (Config.aesKwUnwrap f.kBlob (sliceOf b 0x18 72)).map (fun k => (leAt b 6 1, padTo 64 k))

/-- The two halves of a media key are equal (R382). -/
def halvesEqual (k : Bytes) : Bool := k.take 32 == (k.drop 32).take 32

/-- Loads a key into a slot. -/
def Dev.loadSlot (d : Dev) (i : Nat) (key : Bytes) : Dev := d.setSlot i { st := .loaded, inUse := 0, content := ofLe (padTo 64 key) }

/-- Fold DRBG output is available (R388). -/
def Dev.drbgOk (d : Dev) : Bool := d.fold.healthy && d.fold.failedAt.isNone

/-- The slot a descriptor names cannot take the key: status 0x03. A media key goes to slots 1 to 16,367, a KEK to a KEK slot. -/
def Dev.slotRefused (d : Dev) (i : Nat) (kek : Bool) : Bool :=
  (d.slot i).st != .empty || kekSlot i != kek || i == 0

/-- A load refused under R382 or R383 sets KEY.STATUS.REFUSED. -/
def Dev.refuseLoad (d : Dev) (st : Nat) : Dev × Nat := ({ d with keys := { d.keys with refused := true } }, st)

/-- The key an operation obtains, or its failing status: op 0x01 draws it, 0x02 opens a blob, 0x03 unwraps under a KEK, 0x04 takes 32 bytes. -/
def Dev.unwrapKey (d : Dev) (o : UnwrapOp) (src : Nat) : Except Nat (Nat × Bytes) :=
  match o.op with
  | 1 => if d.drbgOk then .ok (1, d.drawn 64) else .error 6
  | 2 => match d.fold.openBlob (d.bytes src 0x90) with
    | some k => .ok k
    | none => .error 1
  | 3 => match Config.aesKwUnwrap ((leBytes 64 (d.slot o.kek).content).take 32) (d.bytes src 72) with
    | some k => .ok (1, padTo 64 k)
    | none => .error 1
  | _ => .ok (2, d.bytes src 32 ++ zeros 32)

/-- The operation in progress is carried out: the device and its status (Tables 16-6 and 16-7). Nothing changes unless the status is 0x00. -/
def Dev.unwrapRun (d : Dev) (o : UnwrapOp) : Dev × Nat :=
  let n := match o.op with
    | 2 => 0x90
    | 3 => 72
    | 4 => 32
    | _ => 0
  let src := if o.op = 1 then some 0 else if o.op = 4 then (if inStaging o.src 32 then some o.src else none) else unwrapAddr o.src n
  let dst := if o.op = 2 then some 0 else unwrapAddr o.dst 0x90
  match o.bad, src, dst with
  | false, some a, some b =>
    if o.op ≠ 2 && d.slotRefused o.slot (o.op == 4) then d.refuseLoad 3
    else if o.op = 3 && (!kekSlot o.kek || (d.slot o.kek).st != .loaded) then (d, 4)
    else if o.op ≠ 1 && d.markedRun a n then (d, 5)
    else match d.unwrapKey o a with
      | .error st => (d, st)
      | .ok (kind, key) =>
        if o.op = 2 && d.slotRefused o.slot (kind == 2) then d.refuseLoad 3
        else if kind = 1 && halvesEqual key then d.refuseLoad 2
        else
          let d1 := (if o.op = 1 then d.tickFree else d).loadSlot o.slot key
          let blob := if kind = 2 then d.fold.blob 2 0 o.slot 0 0 key else d.fold.blob 1 o.gen o.slot o.nsid o.startWsn key
          let d2 := if o.op = 2 then d1 else (d1.putBytes b blob).clearMarks b 0x90
          (if o.op = 4 then d2.fillBytes a (zeros 32) else d2, 0)
  | _, _, _ => (d, 7)

/-- UNWRAP_COMPLETE: the operation ends, KEY.USTAT holds its status and e3 of the Fold core is asserted. -/
def Dev.unwrapComplete (d : Dev) : Dev :=
  match d.keys.uop with
  | none => d
  | some o =>
    let r := d.unwrapRun o
    { r.1 with keys := { r.1.keys with uop := none, ustatus := r.2, done := true } }

/-- A write of KEY.UADDR whose descriptor names one operation. -/
def Dev.unwrapStartOp (d : Dev) (op off : Nat) : Dev := if (d.unwrapDesc off).op = op then d.unwrapStart off else d

/-- UNWRAP_GENERATE. -/
def execUnwrapGenerate (off : BitVec 24) (s : State) : Out := s.apply fun d => d.unwrapStartOp 1 off.toNat
/-- UNWRAP_LOAD. -/
def execUnwrapLoad (off : BitVec 24) (s : State) : Out := s.apply fun d => d.unwrapStartOp 2 off.toNat
/-- UNWRAP_INJECT. -/
def execUnwrapInject (off : BitVec 24) (s : State) : Out := s.apply fun d => d.unwrapStartOp 3 off.toNat
/-- UNWRAP_LOAD_KEK. -/
def execUnwrapLoadKek (off : BitVec 24) (s : State) : Out := s.apply fun d => d.unwrapStartOp 4 off.toNat
/-- UNWRAP_COMPLETE. -/
def execUnwrapComplete (s : State) : Out := s.apply Dev.unwrapComplete

/-! ### Keys of namespaces in slots and in the store (R416 to R419) -/

/-- Store sectors of the blob copies (Table 17-2): the units of copy 0, and copy 1 at 144 sectors above. -/
def blobUnits : Nat := 144 * 128

/-- The store unit (0 to 18,431) of a copy that holds a slot's blob. -/
def Dev.blobUnitOf (d : Dev) (copy slot : Nat) : Option Nat :=
  let first := 48 + 144 * copy
  (d.ilu.unitAddrs first (first + 143)).findSome? (fun a =>
    let b := d.ilu.read a 16
    if leAt b 0 4 = 0x424C424B ∧ leAt b 8 2 = slot then some (a / 512 - first * 128) else none)

/-- The first erased unit of a blob copy. -/
def Dev.freeBlobUnit (d : Dev) (copy : Nat) : Option Nat :=
  let first := 48 + 144 * copy
  let used := (d.ilu.unitAddrs first (first + 143)).map (fun a => a / 512 - first * 128)
  (List.range blobUnits).find? (fun u => !used.contains u)

/-- Writes a blob to both copies. -/
def Dev.storeBlob (d : Dev) (b : Bytes) : Dev :=
  [0, 1].foldl (fun d c =>
    match d.freeBlobUnit c with
    | some u => d.norProgramUnit (48 + 144 * c + u / 128) (u % 128) b
    | none => d) d

/-- Erases a blob from both copies by programming its unit to zeros (R433). -/
def Dev.eraseBlob (d : Dev) (slot : Nat) : Dev :=
  [0, 1].foldl (fun d c =>
    match d.blobUnitOf c slot with
    | some u =>
      let p := d.ilu.phys (48 + 144 * c + u / 128)
      { d with ilu := { d.ilu with nor := d.ilu.nor.set (p * 128 + u % 128) (zeros 512) } }
    | none => d) d

/-- The lowest Empty media slot (DESIGN CHOICE, assumption log 13). -/
def Dev.freeSlot (d : Dev) : Option Nat :=
  (List.range 16367).findSome? (fun i => if (d.slot (i + 1)).st = .empty then some (i + 1) else none)

/-- Generates a key for a generation into a free slot and stores its blob; the slot, when one was free and the DRBG gave output. -/
def Dev.generateKey (d : Dev) (nsid gen wsn : Nat) : Dev × Option Nat :=
  match d.freeSlot with
  | none => (d, none)
  | some i =>
    if !d.drbgOk then (d, none)
    else
      let key := d.drawn 64
      ((d.tickFree.loadSlot i key).storeBlob (d.fold.blob 1 gen i nsid wsn key), some i)

/-- At boot every blob is loaded from copy 0 or copy 1 (R419); slots whose blobs both fail stay Empty and post a record. -/
def Dev.loadBlobs (d : Dev) : Dev :=
  let addrs := d.ilu.unitAddrs 48 335
  addrs.foldl (fun d a =>
    let b := d.ilu.read a 0x90
    if leAt b 0 4 ≠ 0x424C424B then d
    else
      let i := leAt b 8 2
      if (d.slot i).st ≠ .empty then d
      else match d.fold.openBlob b with
        | some (_, key) => d.loadSlot i key
        | none => if 192 ≤ a / 65536 then d.post 0x001 i 0 0x10 2 else d) d

/-! ### Entropy (R387, R388) -/

/-- DRBG_RESEED: the Fold DRBG takes new seed while its source is healthy. -/
def Dev.drbgReseed (d : Dev) : Dev :=
  if d.fold.failedAt.isSome then d
  else { d with fold := { d.fold with healthy := true, reseeds := sat 0xFFFF (d.fold.reseeds + 1), reseedAt := d.now } }
/-- DRBG_RESEED. -/
def execDrbgReseed (s : State) : Out := s.apply Dev.drbgReseed

/-- HEALTH_TEST_FAIL: a test fails, output stops and FOLD.RNG records it. -/
def Dev.healthFail (d : Dev) (rct : Bool) : Dev :=
  { d with fold := { d.fold with healthy := false, rctFail := d.fold.rctFail || rct, aptFail := d.fold.aptFail || !rct,
                                 failedAt := match d.fold.failedAt with
                                   | some t => some t
                                   | none => some d.now } }
/-- HEALTH_TEST_FAIL: `rct` for the repetition count test, else the adaptive proportion test. -/
def execHealthTestFail (rct : Bool) (s : State) : Out := s.apply fun d => d.healthFail rct

/-- HEALTH_TEST_RECOVERY: the source passes both tests again within 100 ms; the DRBG is reseeded and output resumes. -/
def Dev.healthRecover (d : Dev) : Dev :=
  match d.fold.failedAt with
  | some t => if d.now ≤ t + 100000000 then ({ d with fold := { d.fold with failedAt := none } } : Dev).drbgReseed else d
  | none => d
/-- HEALTH_TEST_RECOVERY. -/
def execHealthTestRecovery (s : State) : Out := s.apply Dev.healthRecover

/-- A channel die's DRBG. -/
def Dev.aesDie (d : Dev) (k : Nat) : AesDie := d.aes.dies.get AesDie.init k
/-- Replaces a channel die's DRBG. -/
def Dev.setAesDie (d : Dev) (k : Nat) (x : AesDie) : Dev := { d with aes := { d.aes with dies := d.aes.dies.set k x } }

/-- A channel-die DRBG reseeds, or retries while no seed is delivered (R413). At instantiation it runs its known-answer test. -/
def Dev.dieReseed (d : Dev) (k : Nat) (katOk : Bool) : Dev :=
  let x := d.aesDie k
  if x.halted then d
  else if !x.rngOk && !katOk then (d.setAesDie k { x with halted := true }).post (0x018 + k) k 0 0x0F 3
  else if d.fold.inReset || !d.drbgOk then
    d.setAesDie k { x with late := x.late || decide (x.reseedAt + 1000000000 < d.now) }
  else d.setAesDie k { x with rngOk := true, late := false, starved := false, reseedAt := d.now }
/-- DIE_DRBG_RESEED. -/
def execDieDrbgReseed (k : Fin 4) (katOk : Bool) (s : State) : Out := s.apply fun d => d.dieReseed k.val katOk

/-- No reseed for 60 s: the die's engines start no new data units (R413). -/
def Dev.dieStarved (d : Dev) (k : Nat) : Dev :=
  let x := d.aesDie k
  if x.rngOk && x.late then
    (d.advanceTo (x.reseedAt + 60000000000)).setAesDie k { x with starved := true }
  else d
/-- DIE_DRBG_STARVED. -/
def execDieDrbgStarved (k : Fin 4) (s : State) : Out := s.apply fun d => d.dieStarved k.val

end Sys2Proof.Machine
end

