-- ==== Sys2Proof/Machine/Flash.lean ====
section
/-! DEFINITION. Dies, channels, die operations, suspension, and the rings between drove engine and Drover cores
(R89 to R92, R180 to R213). -/

namespace Sys2Proof.Machine

/-! ### Dies and slots -/

/-- A die's state. -/
def Dev.die (d : Dev) (i : Nat) : DieSt := d.media.dies.get DieSt.init i
/-- Changes a die's state. -/
def Dev.modDie (d : Dev) (i : Nat) (f : DieSt → DieSt) : Dev :=
  { d with media := { d.media with dies := d.media.dies.set i (f (d.die i)) } }
/-- The die is present and supported (CHN.DIEMAP). -/
def Dev.diePresent (d : Dev) (i : Nat) : Bool := bitOf (d.chan (i / 32)).diemap (i % 32)
/-- The die is declared failed (R211). -/
def Dev.dieFailed (d : Dev) (i : Nat) : Bool := bitOf (d.cfgv (0x100 + i / 32) 3) (i % 32)
/-- Pages per block of a die. -/
def Dev.dieP (d : Dev) (i : Nat) : Nat := 3 * (d.die i).wl
/-- Slot within a die of a codeword (R218). -/
def slotOfCw (pages block page cw : Nat) : Nat := (block * pages + page) * 4 + cw
/-- Slot key of a codeword of a die. -/
def slotKey (die slot : Nat) : Nat := die * 2 ^ 26 + slot
/-- Slot of codeword k of word line r of block group g (R224). -/
def Dev.unitKey (d : Dev) (die g r k : Nat) : Nat :=
  slotKey die (slotOfCw (d.dieP die) (4 * g + k / 4 % 4) (3 * r + k / 16) (k % 4))
/-- Block group, word line and unit position of a slot key (the inverse of the above). -/
def Dev.unslot (d : Dev) (key : Nat) : Nat × Nat × Nat :=
  let s := key % 2 ^ 26
  let p := d.dieP (key / 2 ^ 26)
  let page := s / 4 % p
  (s / 4 / p / 4, page / 3, page % 3 * 16 + s / 4 / p % 4 * 4 + s % 4)
/-- The codeword written at a slot. -/
def Dev.cwAt (d : Dev) (key : Nat) : Option Codeword := d.media.nand.get? key
/-- Writes a codeword. -/
def Dev.putCw (d : Dev) (key : Nat) (c : Codeword) : Dev := { d with media := { d.media with nand := d.media.nand.set key c } }
/-- Erases a block group of a die. -/
def Dev.eraseGroup (d : Dev) (die g : Nat) : Dev :=
  let lo := slotKey die (slotOfCw (d.dieP die) (4 * g) 0 0)
  let hi := slotKey die (slotOfCw (d.dieP die) (4 * g + 4) 0 0)
  { d with media := { d.media with nand := d.media.nand.filter (fun e => decide (e.1 < lo) || decide (hi ≤ e.1)) } }

/-- Slot of data unit i of a read or program descriptor (R190, R224). -/
def Dev.opSlot (d : Dev) (x : FopDesc) (i : Nat) : Nat :=
  let p := d.dieP x.die
  if x.op = 2 then slotOfCw p (x.block + i / 4 % 4) (x.page + i / 16) (i % 4)
  else slotOfCw p (x.block + x.planeList.getD (i / 4) 0) x.page (i % 4)
/-- XTS data unit number of data unit i: for the drove engine's items the number of R411, for a FOP of firmware TWEAK + i (R203). -/
def Dev.opTweak (d : Dev) (o : DieOp) (i : Nat) : Nat :=
  match o.origin with
  | .work _ => slotKey o.desc.die (d.opSlot o.desc i)
  | .fop => o.desc.tweak + i

/-! ### Cipher and code (R197, R203, R205, R225) -/

/-- Bytes as a cipher with a key and data unit number turns them; opaque, position by position. -/
def cipherBytes (key tweak : Nat) (b : Bytes) : Bytes :=
  (List.range b.length).map (fun i => Config.wrongKeyByte key tweak i (b.getD i 0))
/-- DATA of a codeword as a read delivers it: in clear under the key and number it was written with, otherwise not. -/
def Codeword.deliver (c : Codeword) (bypass : Bool) (key tweak : Nat) : Bytes :=
  match c.sealed with
  | none => if bypass then c.data else cipherBytes key tweak c.data
  | some s =>
    if bypass then cipherBytes s.key s.tweak c.data
    else if s.key = key ∧ s.tweak = tweak then c.data
    else cipherBytes key tweak (cipherBytes s.key s.tweak c.data)
/-- An erased codeword: it decodes to all ones (R225). -/
def erasedCw : Codeword := { data := List.replicate 4096 0xFF, spare := List.replicate 32 0xFF, sealed := none, cond := .good }
/-- The codeword a read senses at a slot. One whose program failed or was cut reads as erased or as the content it was to hold; which,
is a free value (R197). -/
def Dev.sense (d : Dev) (key : Nat) : Codeword :=
  match d.cwAt key with
  | none => erasedCw
  | some c => if c.cond = .uncertain && Config.freeBool d.free then erasedCw else c
/-- A raw codeword: DATA, SPARE and 480 bytes of LDPC parity, which the manual does not give. -/
def Dev.rawCw (d : Dev) (c : Codeword) : Bytes :=
  let data := match c.sealed with
    | none => c.data
    | some s => cipherBytes s.key s.tweak c.data
  padTo 4096 data ++ padTo 32 c.spare ++ (List.range 480).map (Config.freeByte d.free)

/-! ### Issue (R90, R191, R204, R211) -/

/-- Operations that occupy queue positions of a die. -/
def Dev.dieOps (d : Dev) (die : Nat) : List DieOp := (d.die die).ops
/-- An operation uses the cipher. -/
def FopDesc.ciphers (x : FopDesc) : Bool := (x.isRead || x.isProgram) && !x.aesBypass
/-- Issue status of FOP for a Drover core index (R90); conditions in the order 2, 4, 3, 1 (DESIGN CHOICE, assumption log 22). A die whose
FAIL_MASK bit was cleared takes only a reset until one has ended (R211; DEDUCED, assumption log 51). -/
def Dev.fopStatus (d : Dev) (drv : Nat) (x : FopDesc) : Nat :=
  let ch := x.die / 32
  if 4096 ≤ x.die ∨ ch / 4 ≠ drv then 2
  else if x.invalid || (x.ciphers && !d.slotUsable x.keyslot) then 4
  else if d.dieFailed x.die || ((d.die x.die).needsReset && x.op != 5) || !(d.chan ch).up || !d.padOn (chanPad ch) then 3
  else if 8 ≤ (d.dieOps x.die).length then 1
  else 0
/-- A die operation joins its die's queue. -/
def Dev.enqueue (d : Dev) (x : FopDesc) (o : OpOrigin) (core : Nat) : Dev :=
  let op : DieOp := { desc := x, origin := o, core := core, stage := .queued, startedAt := 0, ranNs := 0, suspensions := 0, readsRun := 0,
                      bypassed := 0, transferred := false, data := [], status := 0, steps := 0 }
  let d1 := d.modDie x.die (fun e => { e with ops := e.ops ++ [op] })
  if x.ciphers then d1.slotUse x.keyslot else d1
/-- FOP: issue status and the device after it. -/
def Dev.fop (d : Dev) (core : Nat) (x : FopDesc) (o : OpOrigin) : Dev × Nat :=
  let st := d.fopStatus (core - 9) x
  (if st = 0 then d.enqueue x o core else d, st)

/-! ### Ends of operations -/

/-- Replaces the operation at position i of a die's queue. -/
def Dev.setOp (d : Dev) (die i : Nat) (o : DieOp) : Dev := d.modDie die (fun e => { e with ops := e.ops.set i o })
/-- Operation i of a die ends: its slot use ends, a FOP's completion record is queued at its core, and the counters move. -/
def Dev.endOp (d : Dev) (die i status steps : Nat) : Dev :=
  match (d.dieOps die)[i]? with
  | none => d
  | some o =>
    if o.stage = .ended then d
    else
      let d1 := d.setOp die i { o with stage := .ended, status := status, steps := steps }
      let d2 := if o.desc.ciphers then d1.slotDrop o.desc.keyslot else d1
      let rec_ : FopRec := { tag := o.desc.tag, die := die, status := status, retries := steps }
      let d3 : Dev := match o.origin with
        | .fop => d2.modCore o.core (fun k => { k with fopDone := k.fopDone ++ [rec_] })
        | .work _ => d2
      d3.modChan (die / 32) (fun c => { c with
        retried := if o.desc.op = 1 ∧ status = 1 then sat 0xFFFF (c.retried + 1) else c.retried,
        hardfail := if o.desc.op = 1 ∧ status = 2 then sat 0xFFFF (c.hardfail + 1) else c.hardfail,
        softok := if o.desc.op = 9 ∧ status = 0 then sat 0xFFFF (c.softok + 1) else c.softok,
        softfail := if o.desc.op = 9 ∧ status = 3 then sat 0xFFFF (c.softfail + 1) else c.softfail,
        decodeFail := c.decodeFail || (o.desc.op == 1 && status == 2) })
/-- A program cut before its end leaves its codewords as R197 bounds them; a cut erase leaves the block erase-incomplete. -/
def Dev.cutMedia (d : Dev) (o : DieOp) : Dev :=
  if o.stage = .queued || o.stage = .ended then d
  else if o.desc.isProgram && o.transferred then
    (List.range (o.desc.len / o.desc.unitLen)).foldl (fun d i =>
      d.putCw (slotKey o.desc.die (d.opSlot o.desc i))
        { data := sliceOf o.data (4096 * i) 4096, spare := sliceOf o.data (o.desc.len + 32 * i) 32,
          sealed := if o.desc.aesBypass then none else some ⟨(d.slot o.desc.keyslot).content, d.opTweak o i⟩, cond := .uncertain }) d
  else d
/-- Cancels every operation of a die with status 0x07. -/
def Dev.cancelDie (d : Dev) (die : Nat) : Dev :=
  (List.range (d.dieOps die).length).foldl (fun d i =>
    match (d.dieOps die)[i]? with
    | some o => (d.cutMedia o).endOp die i 7 0
    | none => d) d
/-- Cancels every operation of a channel. -/
def Dev.cancelChan (d : Dev) (ch : Nat) : Dev := (List.range 32).foldl (fun d i => if (d.dieOps (ch * 32 + i)).isEmpty then d else d.cancelDie (ch * 32 + i)) d
/-- Operations lost without a record: power-fail, a channel turned off, or reset (R197). -/
def Dev.dropOps (d : Dev) (die : Nat) : Dev :=
  let d1 := (d.dieOps die).foldl (fun d o => d.cutMedia o) d
  let d2 := (d.dieOps die).foldl (fun d o => if o.desc.ciphers && o.stage != .ended then d.slotDrop o.desc.keyslot else d) d1
  d2.modDie die (fun e => { e with ops := [] })
/-- The dies of a channel lose their operations. -/
def Dev.dropChanOps (d : Dev) (ch : Nat) : Dev :=
  (List.range 32).foldl (fun d i => if (d.dieOps (ch * 32 + i)).isEmpty then d else d.dropOps (ch * 32 + i)) d

/-! ### Starting and suspending (R191, R194 to R196) -/

/-- An array operation that runs or is being suspended. -/
def DieOp.active (o : DieOp) : Bool := o.stage == .running || o.stage == .suspending
/-- A program or an erase. -/
def DieOp.isPE (o : DieOp) : Bool := o.desc.isProgram || o.desc.op == 4
/-- The position of the suspended operation of a die. -/
def Dev.suspendedAt (d : Dev) (die : Nat) : Option Nat := (d.dieOps die).findIdx? (fun o => o.stage == .suspended)
/-- The queued operation that would start next with nothing running (R191). -/
def Dev.nextQueued (d : Dev) (die : Nat) : Option Nat :=
  let ops := d.dieOps die
  match ops.findIdx? (fun o => o.stage == .queued) with
  | none => none
  | some i =>
    let o := ops.getD i { desc := FopDesc.ofBytes [], origin := .fop, core := 0, stage := .queued, startedAt := 0, ranNs := 0, suspensions := 0,
                          readsRun := 0, bypassed := 0, transferred := false, data := [], status := 0, steps := 0 }
    if o.isPE ∧ (o.desc.op = 4 ∨ o.bypassed < d.cfgv (0x100 + die / 32) 6) then
      match ops.findIdx? (fun x => x.stage == .queued && x.desc.isRead) with
      | some j => some j
      | none => some i
    else some i
/-- A commit drains a channel: no new array operation starts, and suspended ones are resumed (R111, R188). -/
def Dev.chanDrains (d : Dev) (ch : Nat) : Bool := d.cfg.txns.any (fun t => match t.phase with
  | .draining l => l.contains (0x100 + ch)
  | _ => false)
/-- The read that may run while an operation is suspended: the operation that R191 would start next, where that is a read, unless it reads
the suspended block, SUSP_READS have run or the channel drains. -/
def Dev.suspendedRead (d : Dev) (die : Nat) (s : DieOp) : Option Nat :=
  match d.nextQueued die with
  | none => none
  | some j =>
    match (d.dieOps die)[j]? with
    | some r =>
      if !r.desc.isRead || r.desc.block / 4 == s.desc.block / 4 || decide (d.cfgv (0x100 + die / 32) 0xB ≤ s.readsRun) || d.chanDrains (die / 32) then none
      else some j
    | none => none
/-- The array operations of a channel in flight, and those that program TLC or erase. -/
def Dev.inFlight (d : Dev) (ch : Nat) : List DieOp := (List.range 32).flatMap (fun i => (d.dieOps (ch * 32 + i)).filter DieOp.active)
/-- The channel may start an operation: it is up and On, no commit drains it (R188), its engines take new data units (R413), and the
throttle, hot-channel and PS1 limits leave room (R459, R483, R486). -/
def Dev.mayStart (d : Dev) (die : Nat) (o : DieOp) : Bool :=
  let ch := die / 32
  let x := d.aesDie (ch / 32)
  let fl := d.inFlight ch
  (d.chan ch).up && d.padOn (chanPad ch)
  && !d.chanDrains ch
  && (!o.desc.ciphers || (x.rngOk && !x.halted && !x.starved))
  && decide (fl.length < d.opLimit)
  && (!(o.desc.op == 2 || o.desc.op == 4) || decide ((fl.filter (fun y => y.desc.op == 2 || y.desc.op == 4)).length < d.progLimit ch))
/-- Starts the queued operation at a position; a program whose buffer range holds a marked word does not start and fails (R327). -/
def Dev.startOp (d : Dev) (die i : Nat) : Dev :=
  match (d.dieOps die)[i]? with
  | none => d
  | some o =>
    let a := chanBuffer (die / 32) + o.desc.buf
    if !d.mayStart die o then d
    else if o.desc.isProgram && d.markedRun a (o.desc.len + o.desc.spareLen) then
      (d.endOp die i 4 0).post (0x100 + die / 32) die 4 0x04 2
    else
      let d1 := d.setOp die i { o with stage := .running, startedAt := d.now }
      d1.modDie die (fun e => { e with ops := (e.ops.take i).map (fun p =>
          if p.stage = .queued ∧ p.isPE then { p with bypassed := p.bypassed + 1 } else p) ++ e.ops.drop i })
/-- A die starts its next operation: with one suspended, the next read; otherwise by R191. -/
def Dev.arrayStart (d : Dev) (die : Nat) : Dev :=
  if (d.dieOps die).any DieOp.active then d
  else match d.suspendedAt die with
    | some s => match (d.dieOps die)[s]? with
      | some so => match d.suspendedRead die so with
        | some j =>
          let d1 := d.startOp die j
          if ((d1.dieOps die).any DieOp.active) then d1.setOp die s { so with readsRun := so.readsRun + 1 } else d1
        | none => d
      | none => d
    | none => match d.nextQueued die with
      | some i => d.startOp die i
      | none => d
/-- ARRAY_OPERATION_START of a die. -/
def execArrayOperationStart (die : DieId) (s : State) : Out := s.apply fun d => d.arrayStart die.toNat

/-- A program's data and spare bytes have been transferred: its TAG goes to the buffer-release FIFO (R193). -/
def Dev.transferred (d : Dev) (die : Nat) : Dev :=
  match (d.dieOps die).findIdx? (fun o => o.desc.isProgram && !o.transferred && (o.stage == .running)) with
  | none => d
  | some i =>
    match (d.dieOps die)[i]? with
    | none => d
    | some o =>
      let b := d.bytes (chanBuffer (die / 32) + o.desc.buf) (o.desc.len + o.desc.spareLen)
      (d.setOp die i { o with transferred := true, data := b }).modChan (die / 32) (fun c =>
        match o.origin with
        | .fop => { c with release := c.release ++ [o.desc.tag] }
        | .work _ => c)
/-- PROGRAM_DATA_TRANSFERRED at a die. -/
def execProgramDataTransferred (die : DieId) (s : State) : Out := s.apply fun d => d.transferred die.toNat

/-- The oldest released TAG leaves the FIFO; the value CHN.RELEASE reads. -/
def Dev.releaseRead (d : Dev) (ch : Nat) : Dev × Nat :=
  match (d.chan ch).release with
  | [] => (d, 0)
  | t :: r => (d.modChan ch (fun c => { c with release := r }), t + 2 ^ 31)
/-- CHN_RELEASE_READ of a channel by a core. -/
def execChnReleaseRead (core : CoreId) (ch : Chan) (s : State) : Out :=
  s.apply fun d =>
    let r := d.releaseRead ch.val
    r.1.emit (.regRead core.val (0x48000000 + ch.val / 32 * 0x10000000 + ch.val % 32 * 0x10000 + 0xC) r.2)

/-- The suspendable operation of a die that R194 allows to be suspended now. -/
def Dev.maySuspend (d : Dev) (die : Nat) (o : DieOp) : Bool :=
  let b := 0x100 + die / 32
  let prog := o.desc.isProgram
  o.stage == .running && o.isPE && o.desc.suspendable
  && (d.dieOps die).any (fun r => r.stage == .queued && r.desc.isRead)
  && decide ((d.cfgv b (if prog then 7 else 8)) * 1000 ≤ d.now - o.startedAt)
  && decide (o.suspensions < d.cfgv b (if prog then 9 else 0xA))
/-- PROGRAM_SUSPEND: the suspend command is issued to a die once the minimum running time is reached. -/
def Dev.progSuspend (d : Dev) (die : Nat) : Dev :=
  match (d.dieOps die).findIdx? (fun o => o.stage == .running && o.isPE) with
  | none => d
  | some i =>
    match (d.dieOps die)[i]? with
    | none => d
    | some o =>
      let t := o.startedAt + (d.cfgv (0x100 + die / 32) (if o.desc.isProgram then 7 else 8)) * 1000
      let d1 := d.advanceTo t
      if d1.maySuspend die o then d1.setOp die i { o with stage := .suspending } else d
/-- PROGRAM_SUSPEND. -/
def execProgramSuspend (die : DieId) (s : State) : Out := s.apply fun d => d.progSuspend die.toNat

/-- The die reports the suspended state: time up to the report counted as running (R196). -/
def Dev.suspendAck (d : Dev) (die : Nat) : Dev :=
  d.modDie die (fun e => { e with ops := e.ops.map (fun o =>
    if o.stage = .suspending then { o with stage := .suspended, ranNs := o.ranNs + (d.now - o.startedAt), suspensions := o.suspensions + 1, readsRun := 0 }
    else o) })
/-- SUSPEND_ACKNOWLEDGED. -/
def execSuspendAcknowledged (die : DieId) (s : State) : Out := s.apply fun d => d.suspendAck die.toNat
/-- No suspended report within 100 µs: the operation continues, the suspension counts, a fault record is posted. -/
def Dev.suspendTimeout (d : Dev) (die : Nat) : Dev :=
  if (d.dieOps die).any (fun o => o.stage == .suspending) then
    let d1 := d.modDie die (fun e => { e with ops := e.ops.map (fun o =>
      if o.stage = .suspending then { o with stage := .running, suspensions := o.suspensions + 1 } else o) })
    (d1.modChan (die / 32) (fun c => { c with faultSusp := true })).post (0x100 + die / 32) die 100 0x05 2
  else d
/-- SUSPEND_TIMEOUT. -/
def execSuspendTimeout (die : DieId) (s : State) : Out := s.apply fun d => d.suspendTimeout die.toNat
/-- The channel resumes a suspended operation when SUSP_READS reads have run or no read can run (R194). -/
def Dev.progResume (d : Dev) (die : Nat) : Dev :=
  match d.suspendedAt die with
  | none => d
  | some i =>
    match (d.dieOps die)[i]? with
    | none => d
    | some o =>
      if (d.dieOps die).any DieOp.active ∨ (d.suspendedRead die o).isSome then d
      else d.setOp die i { o with stage := .running, startedAt := d.now }
/-- PROGRAM_RESUME. -/
def execProgramResume (die : DieId) (s : State) : Out := s.apply fun d => d.progResume die.toNat

/-! ### Completion (R198 to R201, R210) -/

/-- Delivers the data units of a read that decoded. -/
def Dev.deliverRead (d : Dev) (o : DieOp) (bad : Nat) : Dev :=
  let n := o.desc.len / o.desc.unitLen
  let base := chanBuffer (o.desc.die / 32) + o.desc.buf
  let d1 := (List.range n).foldl (fun d i =>
    if bitOf bad i then d
    else
      let c := d.sense (slotKey o.desc.die (d.opSlot o.desc i))
      if o.desc.ldpcBypass then d.tickFree.putBytes (base + i * 4608) (d.rawCw c)
      else (d.putBytes (base + i * 4096) (padTo 4096 (c.deliver o.desc.aesBypass (d.slot o.desc.keyslot).content (d.opTweak o i)))).putBytes
        (base + o.desc.len + 32 * i) (padTo 32 c.spare)) d
  d1.tickFree.clearMarks base (o.desc.len + (if o.desc.ldpcBypass then 0 else 32 * n))
/-- Writes the codewords of a program that succeeded, or whose outcome is open. -/
def Dev.programMedia (d : Dev) (o : DieOp) (cond : CwCond) : Dev :=
  let n := o.desc.len / o.desc.unitLen
  (List.range n).foldl (fun d i =>
    let key := slotKey o.desc.die (d.opSlot o.desc i)
    if o.desc.ldpcBypass then
      let r := sliceOf o.data (4608 * i) 4608
      d.putCw key { data := r.take 4096, spare := sliceOf r 4096 32, sealed := none, cond := .uncertain }
    else
      d.putCw key { data := sliceOf o.data (4096 * i) 4096, spare := sliceOf o.data (o.desc.len + 32 * i) 32,
                    sealed := if o.desc.aesBypass then none else some ⟨(d.slot o.desc.keyslot).content, d.opTweak o i⟩, cond := cond }) d
/-- A channel fault (R212): every operation is cancelled and UP clears. -/
def Dev.channelFault (d : Dev) (ch : Nat) : Dev :=
  ((d.cancelChan ch).modChan ch (fun c => { c with up := false, faultLink := true, crcErrs := 0, downAt := some d.now })).post (0x100 + ch) ch 0 0x06 2
/-- The bits of a read's outcome: status, retry steps, failing units. A read with RLSET other than 0 is not retried (R199). -/
def Dev.readResult (d : Dev) (o : DieOp) (x : DieOutcome) : Nat × Nat × Nat :=
  let steps := d.cfgv (0x100 + o.desc.die / 32) 4
  match x with
  | .ok => (0, 0, 0)
  | .retried n => if o.desc.op = 9 ∨ n = 0 then (0, 0, 0) else if o.desc.rlset ≠ 0 then (2, 0, 2 ^ 48 - 1)
    else if n.toNat ≤ steps then (1, n.toNat, 0) else (2, steps, 2 ^ 48 - 1)
  | .failed u => (if o.desc.op = 9 then 3 else 2, if o.desc.op = 9 ∨ o.desc.rlset ≠ 0 then 0 else steps, u.toNat)
/-- The running operation of a die ends. -/
def Dev.opComplete (d : Dev) (die : Nat) (x : DieOutcome) : Dev :=
  match (d.dieOps die).findIdx? DieOp.active with
  | none => d
  | some i =>
    match (d.dieOps die)[i]? with
    | none => d
    | some o0 =>
      let d0 := if o0.desc.isProgram && !o0.transferred then d.transferred die else d
      let o := ((d0.dieOps die)[i]?).getD o0
      let d1 := d0.modDie die (fun e => { e with timeouts := 0 })
      let src := 0x100 + die / 32
      let fail := match x with
        | .failed _ => true
        | _ => false
      match o.desc.op with
      | 2 | 3 =>
        if fail then ((d1.programMedia o .uncertain).endOp die i 4 0).post src die 4 0x04 2
        else (d1.programMedia o .good).endOp die i 0 0
      | 4 =>
        if fail then (d1.endOp die i 5 0).post src die 5 0x04 2
        else (d1.eraseGroup die (o.desc.block / 4)).endOp die i 0 0
      | 5 =>
        if fail then ((d1.modDie die (fun e => { e with lost := true })).endOp die i 0 0).post src die 0 0x10 2
        else (d1.modDie die (fun e => { e with needsReset := false })).endOp die i 0 0
      | 6 => (d1.tickFree.fillBytes (chanBuffer (die / 32) + o.desc.buf) ((List.range 4).map (Config.freeByte d1.free))).endOp die i 0 0
      | 7 => d1.endOp die i 0 0
      | 8 =>
        if fail then
          let d2 := (d1.modChan (die / 32) (fun c => { c with crcErrs := c.crcErrs + 1 })).endOp die i 0 0
          if 3 ≤ (d2.chan (die / 32)).crcErrs then d2.channelFault (die / 32) else d2
        else ((d1.modChan (die / 32) (fun c => { c with crcErrs := 0 })).tickFree.fillBytes (chanBuffer (die / 32) + o.desc.buf)
          ((List.range o.desc.len).map (Config.freeByte d1.free))).endOp die i 0 0
      | _ =>
        let r := d1.readResult o x
        (d1.deliverRead o r.2.2).endOp die i r.1 r.2.1
/-- DIE_OPERATION_COMPLETE of the operation a die runs. -/
def execDieOperationComplete (die : DieId) (x : DieOutcome) (s : State) : Out := s.apply fun d => d.opComplete die.toNat x

/-- Time-out of an operation in µs (Table 7-4). -/
def Dev.opLimitUs (d : Dev) (o : DieOp) : Nat :=
  let b := 0x100 + o.desc.die / 32
  if o.desc.op = 9 then 3 * d.cfgv b 0xC
  else if o.desc.isProgram then d.cfgv b 0xD
  else if o.desc.op = 4 then d.cfgv b 0xE
  else if o.desc.op = 5 then 10000
  else d.cfgv b 0xC
/-- A busy time-out: the operation ends with status 0x06, the die is reset and its queue is cancelled; after TIMEOUT_SUSPECT in a row the die is
suspect (R210). -/
def Dev.busyTimeout (d : Dev) (die : Nat) : Dev :=
  match (d.dieOps die).findIdx? DieOp.active with
  | none => d
  | some i =>
    match (d.dieOps die)[i]? with
    | none => d
    | some o =>
      let us := d.opLimitUs o
      let ch := die / 32
      let d1 := d.advanceTo (o.startedAt + (us * 1000 - o.ranNs))
      let d2 := ((d1.cutMedia o).endOp die i 6 0).post (0x100 + ch) die us 0x05 2
      let d3 := (d2.cancelDie die).modDie die (fun e => { e with timeouts := e.timeouts + 1, lost := e.lost || o.desc.op == 5 })
      let lim := d3.cfgv (0x100 + ch) 0xF
      if lim ≤ (d3.die die).timeouts ∧ !bitOf (d3.chan ch).suspect (die % 32) then
        (d3.modChan ch (fun c => { c with suspect := c.suspect + 2 ^ (die % 32) })).post (0x100 + ch) die lim 0x0A 2
      else d3
/-- DIE_BUSY_TIMEOUT of a die. -/
def execDieBusyTimeout (die : DieId) (s : State) : Out := s.apply fun d => d.busyTimeout die.toNat

/-- Commit of FAIL_MASK: the operations of a die newly declared complete with status 0x07; a die returned to service needs a reset. -/
def Dev.failMaskApplied (d : Dev) (ch old new : Nat) : Dev :=
  (List.range 32).foldl (fun d i =>
    if bitOf new i && !bitOf old i then (d.cancelDie (ch * 32 + i)).post 6 (ch * 32 + i) 0 0x0D 2
    else if bitOf old i && !bitOf new i then d.modDie (ch * 32 + i) (fun e => { e with needsReset := true, lost := false, timeouts := 0 })
    else d) d

/-! ### Bring-up and training (R184 to R187, R212) -/

/-- The rates of a channel from the highest down: the extended rates that all dies share where they are allowed, then the ONFI rates from the
highest that every die supports down to 0x3; a channel whose dies share only a rate below 0x3 has that one (R183, R186, R187). -/
def Dev.chanRates (d : Dev) (ch : Nat) : List Nat :=
  let c := d.chan ch
  let mx := d.cfgv (0x100 + ch) 1
  let ext := d.cfgv (0x100 + ch) 2 == 1
  let top := Nat.min c.onfiRate (Nat.min mx 7)
  let fast := (if ext && decide (9 ≤ mx) && bitOf c.extRates 1 then [9] else []) ++ (if ext && decide (8 ≤ mx) && bitOf c.extRates 0 then [8] else [])
  fast ++ (if 3 ≤ top then (List.range (top - 2)).map (fun i => top - i) else if fast = [] ∧ top ≠ 0 then [top] else [])
/-- The rates training may take: a step-down is kept until the next bring-up (R187). -/
def Dev.trainRates (d : Dev) (ch : Nat) : List Nat :=
  if (d.chan ch).stepped then (d.chanRates ch).filter (fun r => decide (r ≤ (d.chan ch).rate)) else d.chanRates ch
/-- Training of a channel ends after a number of failed runs: the third failure at a rate steps down to the next; after the last rate the
channel stays down (R187). -/
def Dev.trainChan (d : Dev) (ch fails : Nat) : Dev :=
  let rs := d.trainRates ch
  let d1 := d.modChan ch (fun c => { c with retrains := sat 0xFF (c.retrains + Nat.min (fails + 1) (3 * rs.length)) })
  match rs[fails / 3]? with
  | none => (d1.modChan ch (fun c => { c with up := false, rate := rs.getLastD 0, ext := false, stepped := c.stepped || decide (1 < rs.length),
                                              faultTrain := true })).post (0x100 + ch) ch (Nat.min fails (3 * rs.length)) 0x06 2
  | some r =>
    d1.modChan ch (fun c => { c with up := true, rate := r, ext := decide (8 ≤ r), stepped := c.stepped || decide (3 ≤ fails), downAt := none })
/-- Channel bring-up by its Drover core (R184). -/
def Dev.bringUp (d : Dev) (ch : Nat) (ds : List DieInfo) (fails : Nat) : Dev :=
  let c := d.chan ch
  let core := d.core (droverOf ch)
  if c.up || !core.released || !d.padOn (corePad (droverOf ch)) then d
  else
    let d0 := { d with pwr := { d.pwr with pads := d.pwr.pads.erase (chanPad ch) } }
    let d1 := (List.range 32).foldl (fun d i => d.modDie (ch * 32 + i) (fun e => { e with ops := [] })) d0
    let use := ds.filter (fun x => x.ready && x.supported)
    let d2 := ds.foldl (fun d x =>
      let die := ch * 32 + x.index.val
      let old := (d.die die).id
      if !x.ready then (d.modDie die (fun e => { e with lost := true })).post (0x100 + ch) die 10000 0x05 2
      else if !x.supported then d.post (0x100 + ch) die 0 0x10 2
      else
        let e := (d.modDie die (fun e => { e with wl := x.wordLines.toNat, nblocks := x.blocks.toNat, id := x.ident.toNat, timeouts := 0,
                                                  needsReset := false, lost := old != 0 && old != x.ident.toNat }))
        if old != 0 && old != x.ident.toNat then e.post (0x100 + ch) die 0 0x10 2 else e) d1
    let map := use.foldl (fun m x => setBits m x.index.val x.index.val 1) 0
    let onfi := use.foldl (fun m x => Nat.min m x.onfi.val) 7
    let ext := use.foldl (fun m x => m &&& x.ext.toNat) 3
    let d3 := d2.modChan ch (fun c => { c with diemap := map, onfiRate := onfi, extRates := if use = [] then 0 else ext, stepped := false })
    if use = [] then d3 else d3.trainChan ch fails
/-- CHANNEL_BRING_UP: the channel, what its LUNs report, and the training runs that fail. -/
def execChannelBringUp (ch : Chan) (dies : List DieInfo) (fails : BitVec 5) (s : State) : Out :=
  s.apply fun d => d.bringUp ch.val dies fails.toNat
/-- The periodic DQS check: a loss of training is a channel fault, after which the channel trains again (R212). -/
def Dev.dqsCheck (d : Dev) (ch : Nat) (lost : Bool) (fails : Nat) : Dev :=
  if (d.chan ch).up then (if lost then (d.channelFault ch).trainChan ch fails else d)
  else if (d.chan ch).faultLink && (d.chan ch).downAt.isSome then d.trainChan ch fails
  else d
/-- DQS_CHECK of a channel. -/
def execDqsCheck (ch : Chan) (lost : Bool) (fails : BitVec 5) (s : State) : Out := s.apply fun d => d.dqsCheck ch.val lost fails.toNat

/-! ### Rings (R206 to R209) -/

/-- State of Drover core index v. -/
def Dev.drv (d : Dev) (v : Nat) : DrvSt := d.media.drvs.get DrvSt.init v
/-- Changes the state of Drover core index v. -/
def Dev.modDrv (d : Dev) (v : Nat) (f : DrvSt → DrvSt) : Dev := { d with media := { d.media with drvs := d.media.drvs.set v (f (d.drv v)) } }
/-- Address of a work ring entry and of a result ring entry. -/
def workAddr (v i : Nat) : Nat := chanBuffer (4 * v) + 0x70000 + i * 64
/-- Address of a result ring entry. -/
def resultAddr (v i : Nat) : Nat := chanBuffer (4 * v) + 0x6C000 + i * 16
/-- The bytes of a work item (Table 7-5). -/
def WorkItem.toBytes (w : WorkItem) : Bytes :=
  leBytes 1 w.kind ++ leBytes 1 w.flags ++ leBytes 2 w.die ++ leBytes 4 w.block ++ leBytes 2 w.page ++ leBytes 1 w.planes ++ leBytes 1 0
    ++ leBytes 2 w.keyslot ++ leBytes 2 0 ++ leBytes 4 w.buf ++ leBytes 4 w.len ++ leBytes 8 w.tweak ++ leBytes 8 w.stage ++ leBytes 4 w.ticket
    ++ zeros 20
/-- Reads a work item. -/
def WorkItem.ofBytes (b : Bytes) : WorkItem where
  kind := leAt b 0 1
  flags := leAt b 1 1
  die := leAt b 2 2
  block := leAt b 4 4
  page := leAt b 8 2
  planes := leAt b 10 1
  keyslot := leAt b 12 2
  buf := leAt b 16 4
  len := leAt b 20 4
  tweak := leAt b 24 8
  stage := leAt b 32 8
  ticket := leAt b 40 4
/-- A work item whose KIND is unknown or whose reserved bytes or bits are not zero. -/
def workInvalid (b : Bytes) : Bool :=
  let w := WorkItem.ofBytes b
  w.kind == 0 || decide (5 < w.kind) || decide (8 ≤ w.flags) || leAt b 11 1 != 0 || leAt b 14 2 != 0 || !allZero (sliceOf b 0x2C 20)
/-- The FOP a channel program issues for a work item; `soft` for the soft read of R200. -/
def WorkItem.fop (w : WorkItem) (soft : Bool) : FopDesc where
  op := match w.kind with
    | 2 => 2
    | 3 => 3
    | 4 => 4
    | _ => if soft then 9 else 1
  flags := bit (bitOf w.flags 2) + 2 * bit (w.kind == 5) + 8 * bit (bitOf w.flags 1) + 16 * bit (bitOf w.flags 0)
  die := w.die
  planes := w.planes
  rlset := 0
  keyslot := w.keyslot
  block := w.block
  page := w.page
  tag := 0
  buf := w.buf
  len := w.len
  tweak := w.tweak

/-- Buffer pieces of 16,512 bytes a channel's outstanding items hold. -/
def Dev.bufUsed (d : Dev) (ch : Nat) : List Nat :=
  (d.media.jobs.filter (fun j => j.item.die / 32 == ch && j.posted && !j.released)).flatMap (fun j =>
    (List.range ((j.item.len + j.item.len / 4096 * 32 + 16511) / 16512)).map (fun i => j.item.buf / 16512 + i))
/-- A free run of pieces for an item: programs from the bottom, reads from the top (DESIGN CHOICE, assumption log 23). -/
def Dev.bufFind (d : Dev) (ch : Nat) (w : WorkItem) : Option Nat :=
  let used := d.bufUsed ch
  let n := (w.len + w.len / 4096 * 32 + 16511) / 16512
  let starts := (List.range (27 - n)).filter (fun s => (List.range n).all (fun i => !used.contains (s + i)))
  if n = 0 then some 0
  else if w.kind = 2 ∨ w.kind = 3 then (starts.head?).map (· * 16512) else (starts.getLast?).map (· * 16512)

/-- The data and spare bytes of a staged unit in unit order. -/
def UnitSt.bytes (u : UnitSt) : Bytes :=
  (List.range 48).flatMap (fun k => match u.cws.get? k with
      | some c => padTo 4096 c.data
      | none => zeros 4096)
    ++ (List.range 48).flatMap (fun k => match u.cws.get? k with
      | some c => padTo 32 c.spare
      | none => zeros 32)
/-- The unit in staging that an item programs. -/
def Dev.jobUnit (d : Dev) (j : WorkJob) : Option UnitSt :=
  match j.kind with
  | .unit serial row member => d.drove.units.find? (fun u => u.serial == serial && u.row == row && u.member == member)
  | _ => none
/-- A unit's bytes go into the channel buffer with its item, and the mark of a codeword with them (R327). -/
def Dev.putJob (d : Dev) (a : Nat) (j : WorkJob) : Dev :=
  match d.jobUnit j with
  | none => d
  | some u => (u.cws.filter (fun e => e.2.marked)).foldl (fun (x : Dev) e => x.mark (a + 4096 * e.1)) (d.fillBytes a u.bytes)
/-- Posts a waiting item to its Drover core's work ring when the ring and the channel buffer have room and the core is not quiesced. -/
def Dev.postJob (d : Dev) (t : Nat) : Dev :=
  match d.media.jobs.find? (fun j => j.item.ticket == t && !j.posted) with
  | none => d
  | some j =>
    let ch := j.item.die / 32
    let v := ch / 4
    let x := d.drv v
    match d.bufFind ch j.item with
    | none => d
    | some buf =>
      if (x.workTail + 1) % 1024 = x.workHead ∨ x.quiesced then d
      else
        let w := { j.item with buf := buf }
        let d0 := (d.fillBytes (workAddr v x.workTail) w.toBytes).putJob (chanBuffer ch + buf) j
        let d1 := d0.modDrv v (fun y => { y with workTail := (y.workTail + 1) % 1024 })
        { d1 with media := { d1.media with jobs := d1.media.jobs.map (fun e =>
            if e.item.ticket = t then { e with item := w, posted := true } else e) } }
/-- Posts every waiting item that can be posted, oldest first. -/
def Dev.pumpJobs (d : Dev) : Dev := ((d.media.jobs.filter (fun j => !j.posted)).map (fun j => j.item.ticket)).foldl (fun d t => d.postJob t) d
/-- The drove engine makes a work item; its ticket. -/
def Dev.addJob (d : Dev) (w : WorkItem) (k : JobKind) (epoch : Option Nat) : Dev × Nat :=
  let t := d.drove.ticket
  let j : WorkJob := { item := { w with ticket := t }, kind := k, epoch := epoch, posted := false, released := false }
  let d1 := { d with drove := { d.drove with ticket := (t + 1) % 2 ^ 32 }, media := { d.media with jobs := d.media.jobs ++ [j] } }
  (d1.postJob t, t)

/-- Issues the FOP of a consumed item: queued, held for a queue position (status 1), or ended with a result. -/
def Dev.issueItem (d : Dev) (v : Nat) (w : WorkItem) : Dev × Bool :=
  let r := d.fop (9 + v) (w.fop false) (.work w.ticket)
  match r.2 with
  | 0 => (r.1, true)
  | 1 => (d, false)
  | 3 => (d.modDrv v (fun x => { x with early := x.early ++ [(w.ticket, 7)] }), true)
  | _ => (d.modDrv v (fun x => { x with early := x.early ++ [(w.ticket, 0xFF)] }), true)
/-- The first held item whose die has a queue position free and holds back no earlier item. -/
def Dev.heldNext (d : Dev) (v : Nat) : List Nat → List WorkItem → Option WorkItem
  | _, [] => none
  | full, w :: t =>
    if full.contains w.die then d.heldNext v full t
    else if d.fopStatus v (w.fop false) = 1 then d.heldNext v (w.die :: full) t
    else some w
/-- A Drover core consumes a work item: a held one first; later items of its die are held back (R209). -/
def Dev.workItem (d : Dev) (v : Nat) : Dev :=
  let x := d.drv v
  let c := d.core (9 + v)
  if !c.released || !d.padOn (corePad (9 + v)) || x.quiesced || d.pwr.pfEvt then d
  else match d.heldNext v [] x.held with
    | some w =>
      let r := d.issueItem v w
      if r.2 then r.1.modDrv v (fun y => { y with held := y.held.erase w }) else d
    | none =>
      if x.workHead = x.workTail then d
      else
        let a := workAddr v x.workHead
        let b := d.bytes a 64
        let w := WorkItem.ofBytes b
        let d1 := d.modDrv v (fun y => { y with workHead := (y.workHead + 1) % 1024 })
        if workInvalid b || d.markedRun a 64 then d1.modDrv v (fun y => { y with early := y.early ++ [(w.ticket, 0xFF)] })
        else
          let r := if x.held.any (fun u => u.die == w.die) then (d1, false) else d1.issueItem v w
          if r.2 then r.1 else d1.modDrv v (fun y => { y with held := y.held ++ [w] })
/-- WORK_ITEM at Drover core v. -/
def execWorkItem (v : Fin 32) (s : State) : Out := s.apply fun d => d.workItem v.val

/-- Writes a result entry (Table 7-6) and lets the drove engine consume it. -/
def Dev.putResult (d : Dev) (v ticket phase status steps die : Nat) : Dev :=
  let x := d.drv v
  let b := leBytes 4 ticket ++ leBytes 1 phase ++ leBytes 1 status ++ leBytes 1 steps ++ leBytes 1 0 ++ leBytes 2 die ++ zeros 6
  (d.fillBytes (resultAddr v x.resTail) b).modDrv v (fun y =>
    { y with resTail := (y.resTail + 1) % 1024, resHead := (y.resTail + 1) % 1024 })
/-- Removes a finished item and the operation that ran it. -/
def Dev.dropJob (d : Dev) (ticket : Nat) : Dev :=
  match d.media.jobs.find? (fun j => j.item.ticket == ticket) with
  | none => d
  | some j =>
    let d1 := d.modDie j.item.die (fun e => { e with ops := e.ops.filter (fun o => o.origin != .work ticket) })
    { d1 with media := { d1.media with jobs := d1.media.jobs.filter (fun k => k.item.ticket != ticket) } }
/-- The MOVE of a read's data and spare from the channel buffer to STAGE, with its marks; a metadata scan moves the spare only (R209, R327). -/
def Dev.moveToStage (d : Dev) (w : WorkItem) : Dev :=
  let a := chanBuffer (w.die / 32) + w.buf
  let n := w.len / 4096 * 32
  if w.kind = 5 then (d.fillBytes w.stage (d.bytes (a + w.len) n)).carryRun (a + w.len) w.stage n
  else (d.fillBytes w.stage (d.bytes a (w.len + n))).carryRun a w.stage (w.len + n)
/-- What posting a result brings: the device, and for a final result the job with its status and retry steps. -/
def Dev.postResult (d : Dev) (ticket : Nat) : Dev × Option (WorkJob × Nat × Nat) :=
  match d.media.jobs.find? (fun j => j.item.ticket == ticket && j.posted) with
  | none => (d, none)
  | some j =>
    let v := j.item.die / 128
    let x := d.drv v
    match x.early.find? (fun e => e.1 == ticket) with
    | some e =>
      let d1 := ((d.modDrv v (fun y => { y with early := y.early.filter (fun q => q.1 != ticket) })).putResult v ticket 1 e.2 0 j.item.die).dropJob ticket
      (d1, some (j, e.2, 0))
    | none =>
      match (d.dieOps j.item.die).find? (fun o => o.origin == .work ticket) with
      | none => (d, none)
      | some o =>
        if o.desc.isProgram && o.transferred && !j.released then
          let d1 := d.putResult v ticket 0 0 0 j.item.die
          ({ d1 with media := { d1.media with jobs := d1.media.jobs.map (fun e => if e.item.ticket = ticket then { e with released := true } else e) } }, none)
        else if o.stage ≠ .ended then (d, none)
        else if o.desc.op = 1 ∧ o.status = 2 then
          let d1 := d.modDie j.item.die (fun e => { e with ops := e.ops.filter (fun q => q.origin != .work ticket) })
          let d2 := d1.modChan (j.item.die / 32) (fun c => { c with decodeFail := false })
          let r := d2.fop (9 + v) (j.item.fop true) (.work ticket)
          if r.2 = 0 then (r.1, none)
          else ((d2.putResult v ticket 1 3 o.steps j.item.die).dropJob ticket, some (j, 3, o.steps))
        else
          let d1 := if o.desc.isRead && (o.status = 0 || o.status = 1) then d.moveToStage j.item else d
          ((d1.putResult v ticket 1 o.status o.steps j.item.die).dropJob ticket, some (j, o.status, o.steps))

end Sys2Proof.Machine
end

