-- ==== Sys2Proof/Machine/Blocks.lean ====
section
/-! DEFINITION. Blocks: the block table, the areas set aside on the dies, free space, spare capacity, and the erase log
(R226, R234, R253, R263, R275 to R278, R286 to R290, R293, R299, R307). -/

namespace Sys2Proof.Machine

/-! ### Block groups (R218, R219) -/

/-- Block groups a die may use: BLOCK below 16,384 and slots below 2^26. -/
def Dev.dieGroups (d : Dev) (die : Nat) : Nat :=
  let p := d.dieP die
  if p = 0 then 0 else Nat.min (Nat.min ((d.die die).nblocks / 4) 4096) (2 ^ 26 / (16 * p))
/-- The dies that are present, in ascending order. -/
def Dev.presentDies (d : Dev) : List Nat := (d.media.dies.map (fun e => e.1)).filter (fun i => d.diePresent i)
/-- The dies that are present and not declared failed. -/
def Dev.liveDies (d : Dev) : List Nat := d.presentDies.filter (fun i => !d.dieFailed i)
/-- The live dies of a channel. -/
def Dev.chanDies (d : Dev) (ch : Nat) : List Nat := d.liveDies.filter (fun i => i / 32 == ch)
/-- Summary word lines of a block of `w` word lines: the smallest s with H + E ≤ 48 s (R226). -/
def summaryLines (w : Nat) : Nat :=
  ((List.range (w + 1)).find? (fun s =>
    let e := (48 * (w - s) + 169) / 170
    let h := (64 + 8 * e + 4095) / 4096
    decide (h + e ≤ 48 * s))).getD w

/-! ### The block table (Table 8-10) -/

/-- Address of a block's entry. -/
def Dev.blkAddr (d : Dev) (die g : Nat) : Nat := d.reservedBase + 0x20000000 + 32 * (die * 4096 + g)
/-- A field of a block's entry: offset and size. -/
def Dev.blkGet (d : Dev) (die g off n : Nat) : Nat := ofLe (d.bytes (d.blkAddr die g + off) n)
/-- Writes a field of a block's entry. -/
def Dev.blkPut (d : Dev) (die g off n v : Nat) : Dev := d.fillBytes (d.blkAddr die g + off) (leBytes n v)
/-- STATE. -/
def Dev.blkState (d : Dev) (die g : Nat) : Nat := d.blkGet die g 0 1
/-- VALID, WRITTEN and ERASES. -/
def Dev.blkValid (d : Dev) (die g : Nat) : Nat := d.blkGet die g 4 4
/-- WRITTEN. -/
def Dev.blkWritten (d : Dev) (die g : Nat) : Nat := d.blkGet die g 8 4
/-- ERASES. -/
def Dev.blkErases (d : Dev) (die g : Nat) : Nat := d.blkGet die g 0xC 4
/-- MINWSN. -/
def Dev.blkMin (d : Dev) (die g : Nat) : Nat := d.blkGet die g 0x18 8
/-- Sets STATE. -/
def Dev.setBlkState (d : Dev) (die g st : Nat) : Dev := d.blkPut die g 0 1 st
/-- A block is taken by a drove: open, with nothing written. -/
def Dev.openBlk (d : Dev) (die g : Nat) : Dev :=
  ((((d.setBlkState die g 2).blkPut die g 1 1 0).blkPut die g 4 8 0).blkPut die g 0x10 8 0).blkPut die g 0x18 8 ones64
/-- A map entry names one IU more or one less of the block that holds a slot. -/
def Dev.addValid (d : Dev) (key : Nat) : Dev :=
  let u := d.unslot key
  d.blkPut (key / 2 ^ 26) u.1 4 4 (d.blkValid (key / 2 ^ 26) u.1 + 1)
/-- A map entry no longer names a slot. -/
def Dev.subValid (d : Dev) (e : Nat) : Dev :=
  if entType e = 1 ∨ entType e = 2 then
    let key := entKey e
    let u := d.unslot key
    d.blkPut (key / 2 ^ 26) u.1 4 4 (d.blkValid (key / 2 ^ 26) u.1 - 1)
  else d
/-- A user-data IU with a WSN is written to the block of a slot. -/
def Dev.addWritten (d : Dev) (key wsn : Nat) : Dev :=
  let die := key / 2 ^ 26
  let g := (d.unslot key).1
  (d.blkPut die g 8 4 (d.blkWritten die g + 1)).blkPut die g 0x18 8 (Nat.min (d.blkMin die g) wsn)

/-! ### Areas (R252, R253, R263, R286); where their blocks lie is the model's choice (assumption log 24) -/

/-- The lowest-numbered present die of a channel that is not declared failed. -/
def Dev.firstDie (d : Dev) (ch : Nat) : Option Nat := (d.chanDies ch).head?
/-- Channels with a live die, ascending. -/
def Dev.liveChans (d : Dev) : List Nat := d.liveDies.foldl (fun l i => addOnce (i / 32) l) []
/-- A channel is out of service for a live update of its Drover core (R318). -/
def Dev.chanQuiesced (d : Dev) (ch : Nat) : Bool :=
  let x := d.media.drvs.get DrvSt.init (ch / 4)
  x.quiescing || x.quiesced
/-- The lowest-numbered present die of a channel. -/
def Dev.lowDie (d : Dev) (ch : Nat) : Option Nat := (d.presentDies.filter (fun i => i / 32 == ch)).head?
/-- The block is one of the two erase-log blocks of its channel (R286). -/
def Dev.isLogBlk (d : Dev) (die g : Nat) : Bool := decide (g < 2) && d.lowDie (die / 32) == some die
/-- Block i of the lamb area. -/
def Dev.lambBlock (d : Dev) (i : Nat) : Option (Nat × Nat) :=
  let cs := d.liveChans
  if cs = [] then none else (d.firstDie (cs.getD (i % cs.length) 0)).map (fun die => (die, 2 + i / cs.length))
/-- Blocks of the lamb area. -/
def Dev.lambBlocks (d : Dev) : Nat := d.cfgv 7 5
/-- Block groups of a channel's lowest die that hold lamb slots: 2 up to this. -/
def Dev.lambTop (d : Dev) : Nat :=
  let n := d.liveChans.length
  if n = 0 then 2 else 2 + (d.lambBlocks + n - 1) / n
/-- Channel masks of dump sets A and B. -/
def Dev.dumpMask (d : Dev) (b : Bool) : Nat :=
  if b then d.cfgv 7 0x12 + d.cfgv 7 0x13 * 2 ^ 64 else d.cfgv 7 0x10 + d.cfgv 7 0x11 * 2 ^ 64
/-- The channels of a dump set: those of its mask that can be used, and with fewer than 16 the lowest-numbered healthy channels of the same
channel dies. -/
def Dev.dumpChans (d : Dev) (b : Bool) : List Nat :=
  let m := d.dumpMask b
  let ok := fun ch => (d.firstDie ch).isSome && !d.chanQuiesced ch
  let own := (List.range 128).filter (fun ch => bitOf m ch && ok ch)
  let dies := (List.range 4).filter (fun k => (m >>> (32 * k)) % 2 ^ 32 != 0)
  let more := (List.range 128).filter (fun ch => !bitOf m ch && dies.contains (ch / 32) && ok ch && !bitOf (d.dumpMask (!b)) ch)
  if 16 ≤ own.length then own else own ++ more.take (16 - own.length)
/-- A set is armed: at least 16 channels, and a generation that holds no unconsumed dump. -/
def Dev.dumpArmed (d : Dev) (b : Bool) : Bool := decide (16 ≤ (d.dumpChans b).length) && decide (d.drove.gensHeld < 2)
/-- The block is a dump block: one of the two last groups of the first eight dies of a channel of a dump set. -/
def Dev.isDumpBlk (d : Dev) (die g : Nat) : Bool :=
  let ch := die / 32
  decide (d.dieGroups die ≤ g + 2) && (bitOf (d.dumpMask false) ch || bitOf (d.dumpMask true) ch || (d.dumpChans false).contains ch || (d.dumpChans true).contains ch)
    && ((d.chanDies ch).take 8).contains die
/-- The block is a lamb or an erase-log block. -/
def Dev.isLowBlk (d : Dev) (die g : Nat) : Bool := d.isLogBlk die g || (decide (2 ≤ g) && d.firstDie (die / 32) == some die && decide (g < d.lambTop))

/-! ### Pools, groups, free space -/

/-- A drove header that is not Released names a block of a die other than as a rebuilt member. -/
def Dev.dieNamed (d : Dev) (die : Nat) : Bool :=
  d.drove.droves.any (fun e => e.2.state != 7 && e.2.members.any (fun m => m.2.die == die && m.2.mstate != 0 && m.2.mstate != 5))
/-- A drove header that is not Released names a block. -/
def Dev.blkNamed (d : Dev) (die g : Nat) : Bool :=
  d.drove.droves.any (fun e => e.2.state != 7 && e.2.members.any (fun m => m.2.die == die && m.2.grp == g && m.2.mstate != 0))
/-- The die is in its group's spare pool (R307, R319). -/
def Dev.poolDie (d : Dev) (die : Nat) : Bool := bitOf (d.cfgv 0x014 (0x100 + die / 32)) (die % 32) && !d.dieNamed die
/-- A channel belongs to a drove group. -/
def Dev.inGroup (d : Dev) (g ch : Nat) : Bool := bitOf (d.cfgv 7 (0x20 + 2 * g + ch / 64)) (ch % 64)
/-- Group of a placement stream (R544). -/
def Dev.streamGroup (d : Dev) (h : Nat) : Nat := d.cfgv 0x010 (0x10 + h)
/-- A block is usable (R276). -/
def Dev.usable (d : Dev) (die g : Nat) : Bool :=
  d.diePresent die && !d.dieFailed die && decide (g < d.dieGroups die) && d.blkState die g != 4 && !d.isLowBlk die g
    && !d.isDumpBlk die g && !d.poolDie die
/-- The usable blocks of the dies a predicate picks. -/
def Dev.usableOf (d : Dev) (p : Nat → Bool) : List (Nat × Nat) :=
  (d.liveDies.filter p).flatMap (fun die => ((List.range (d.dieGroups die)).filter (d.usable die)).map (fun g => (die, g)))
/-- Free fraction of a group, per mille; 1,000 for a group with no usable block. -/
def Dev.freePm (d : Dev) (grp : Nat) : Nat :=
  let bs := d.usableOf (fun die => d.inGroup grp (die / 32))
  if bs = [] then 1000 else 1000 * (bs.filter (fun b => decide (d.blkState b.1 b.2 < 2))).length / bs.length
/-- The free, erased block of a die for a drove: the lowest ERASES, or the highest for wear levelling, ties to the lower address (R275). -/
def Dev.pickBlock (d : Dev) (die : Nat) (wear : Bool) : Option Nat :=
  let gs := (List.range (d.dieGroups die)).filter (fun g =>
    d.blkState die g == 0 && !d.isLowBlk die g && !d.isDumpBlk die g && !d.blkNamed die g)
  gs.foldl (fun best g => match best with
    | none => some g
    | some b =>
      let e := d.blkErases die g
      let eb := d.blkErases die b
      if (if wear then decide (eb < e) else decide (e < eb)) then some g else some b) none
/-- C_data of R278 in KiB, from the blocks usable now. -/
def Dev.dataKib (d : Dev) : Nat :=
  let n := d.cfgv 7 4
  let k := d.cfgv 7 2 + 1
  let w := (d.liveDies.map (fun i => (d.die i).wl)).foldl (fun m x => if m = 0 then x else Nat.min m x) 0
  (d.usableOf (fun _ => true)).length * n * (w - summaryLines w) * 192 / (n + k)
/-- IU size in KiB. -/
def Dev.iuKib (d : Dev) : Nat := if d.cfgv 8 0x11 = 1 then 16 else 4
/-- 4 KiB parts of an IU. -/
def Dev.iuParts (d : Dev) : Nat := d.iuKib / 4
/-- IU_BASE and IU_COUNT of a namespace. -/
def Dev.iuBase (d : Dev) (n : Nat) : Nat := d.cfgv (0x1FF + n) 0x10
/-- IU_COUNT of a namespace. -/
def Dev.iuCount (d : Dev) (n : Nat) : Nat := d.cfgv (0x1FF + n) 0x11
/-- The namespaces that exist, by NSID. -/
def Dev.namespaces (d : Dev) : List Nat := (d.nvme.ns.filter (fun e => e.2.exists_)).map (fun e => e.1)
/-- Total IU_COUNT. -/
def Dev.iuUsed (d : Dev) : Nat := (d.namespaces.map d.iuCount).foldl (· + ·) 0
/-- The spare S of R299 in KiB for a number of IUs. -/
def Dev.spareFor (d : Dev) (used : Nat) : Int :=
  (d.dataKib : Int) - (used * d.iuKib * (1000 + d.cfgv 0x012 0x15) / 1000 : Nat)
/-- The media is read-only (R299). -/
def Dev.readOnly (d : Dev) : Bool := decide (d.iuUsed ≠ 0) && decide (d.spareFor d.iuUsed < 0)
/-- Lowest MINWSN among open and closed blocks that hold a stale entry (R231). -/
def Dev.lowWsn (d : Dev) : Nat :=
  ((d.media.dies.flatMap (fun e => (List.range (d.dieGroups e.1)).map (fun g => (e.1, g)))).filter (fun b =>
      (d.blkState b.1 b.2 == 2 || d.blkState b.1 b.2 == 3)
      && decide (d.blkValid b.1 b.2 < d.blkWritten b.1 b.2))).foldl (fun m b => Nat.min m (d.blkMin b.1 b.2)) ones64
/-- Wear spread of a group over its usable blocks (R291). -/
def Dev.wearSpread (d : Dev) (grp : Nat) : Nat :=
  let es := (d.usableOf (fun die => d.inGroup grp (die / 32))).map (fun b => d.blkErases b.1 b.2)
  es.foldl Nat.max 0 - es.foldl Nat.min (es.foldl Nat.max 0)
/-- Mean ERASES of usable TLC blocks, as SMART Percentage Used (R292). -/
def Dev.percentUsed (d : Dev) : Nat :=
  let es := (d.usableOf (fun _ => true)).map (fun b => d.blkErases b.1 b.2)
  if es = [] then 0 else Nat.min 255 (100 * es.foldl (· + ·) 0 / (es.length * d.cfgv 0x011 3))

/-! ### The erase log (R286 to R290) -/

/-- Block b (0 to 127) of a ring in order of use, BLOCK/4 and then channel; none on a die or channel declared
failed or quiesced (R286, R318). -/
def Dev.ringBlock (d : Dev) (r b : Nat) : Option (Nat × Nat) :=
  match d.lowDie (64 * r + b % 64) with
  | some die => if d.dieFailed die || d.chanQuiesced (die / 32) then none else some (die, b / 64 % 2)
  | none => none
/-- The blocks of a ring in order of use. -/
def Dev.ringBlocks (d : Dev) (r : Nat) : List (Nat × Nat) := (List.range 128).filterMap (d.ringBlock r)
/-- The bytes of a record (Table 10-4). -/
def ElogRec.toBytes (r : ElogRec) : Bytes :=
  leBytes 1 r.type ++ leBytes 1 r.reason ++ leBytes 2 r.die ++ leBytes 2 r.grp ++ leBytes 1 (bit r.slc) ++ leBytes 1 0 ++ leBytes 4 r.count
    ++ leBytes 4 0 ++ leBytes 8 r.serial ++ zeros 8
/-- Reads a record. -/
def ElogRec.ofBytes (b : Bytes) : ElogRec where
  type := leAt b 0 1
  reason := leAt b 1 1
  die := leAt b 2 2
  grp := leAt b 4 2
  slc := bitOf (leAt b 6 1) 0
  count := leAt b 8 4
  serial := leAt b 16 8
  createdAt := 0
/-- A record waits for a page. -/
def Dev.logRec (d : Dev) (type reason die g count serial : Nat) : Dev :=
  let r : ElogRec := { type := type, reason := reason, die := die, grp := g, slc := d.isLowBlk die g || d.isDumpBlk die g, count := count,
                       serial := serial, createdAt := d.now }
  { d with drove := { d.drove with elog := { d.drove.elog with pending := d.drove.elog.pending ++ [r] } } }
/-- The 16,384 bytes of a log page (Table 10-3). -/
def elogPage (ptype copy seq base nrec cpart cpages cfirst cnum : Nat) (payload : Bytes) : Bytes :=
  let h := leBytes 4 0x474F4C45 ++ leBytes 2 1 ++ leBytes 1 ptype ++ leBytes 1 copy ++ leBytes 8 seq ++ leBytes 8 base ++ leBytes 2 nrec
    ++ leBytes 2 cpart ++ leBytes 2 cpages ++ leBytes 2 0 ++ leBytes 4 cfirst ++ leBytes 4 cnum ++ zeros 20
  let p := padTo 16320 payload
  h ++ leBytes 4 (crc32c (h ++ p)) ++ p
/-- Slot keys of the four codewords of page `p` of a log block. -/
def Dev.elogKeys (d : Dev) (die g p : Nat) : List Nat :=
  (List.range 4).map (fun c => slotKey die (slotOfCw (d.dieP die) (4 * g + p % 4) (p / 4) c))
/-- The ring's block in use or, where that cannot be used or is retired, the next one: its number and place. -/
def Dev.ringNext (d : Dev) (r b : Nat) : Option (Nat × Nat × Nat) :=
  ((List.range 128).map (fun j => (b + j) % 128)).findSome? (fun n => match d.ringBlock r n with
    | some x => if d.blkState x.1 x.2 = 4 then none else some (n, x)
    | none => none)
/-- A log block may be erased for reuse: it is not the one in use, it holds pages, and each of them has a SEQ below the BASE of the newest
record page (R289). -/
def Dev.logReusable (d : Dev) (die g : Nat) : Bool :=
  let r := die / 2048
  let e := d.drove.elog
  let cw := (d.media.nand.filter (fun x => x.1 / 2 ^ 26 == die && (d.unslot x.1).1 == g)).map (fun x => x.2)
  d.isLogBlk die g && cw != [] && ((d.ringNext r ((if r = 0 then e.pos0 else e.pos1) / 4096)).map (fun x => x.2)) != some (die, g)
    && cw.all (fun c => decide (leAt c.spare 0 8 < e.base))
/-- Programs a log page at a position of a ring; the device, or none when the ring has no erased page there. A page whose program fails is
programmed again in the ring's next block, and the failed block is retired with reason 0x01. -/
def Dev.elogWrite (d : Dev) (r pos seq : Nat) (page : Bytes) : Option (Dev × Nat) :=
  match d.ringNext r (pos / 4096) with
  | none => none
  | some (n, b) =>
    let at_ := if n = pos / 4096 % 128 then pos % 4096 else 0
    let per := 4 * (d.die b.1).wl
    let ks := d.elogKeys b.1 b.2 at_
    if ks.any (fun k => (d.cwAt k).isSome) ∨ d.blkState b.1 b.2 = 1 then none
    else
      let d1 := (List.range 4).foldl (fun (d : Dev) c =>
        d.putCw (ks.getD c 0) { data := sliceOf page (4096 * c) 4096,
                                spare := leBytes 8 seq ++ leBytes 1 c ++ leBytes 1 r ++ zeros 5 ++ leBytes 1 8 ++ zeros 16,
                                sealed := none, cond := .good }) d
      some ({ d1 with drove := { d1.drove with mediaBytes := d1.drove.mediaBytes + 16384 } },
            if at_ + 1 < Nat.min per 4096 then n * 4096 + at_ + 1 else (n + 1) % 128 * 4096)
/-- Programs one page in both rings. With a ring that has no usable block the log goes on with one copy; with none the log stalls. -/
def Dev.elogProgram (d : Dev) (mk : Nat → Bytes) : Dev × Bool :=
  let e := d.drove.elog
  let a := d.elogWrite 0 e.pos0 e.seq (mk 0)
  let d1 := (a.map (fun x => x.1)).getD d
  let b := d1.elogWrite 1 e.pos1 e.seq (mk 1)
  let d2 := (b.map (fun x => x.1)).getD d1
  let none0 := (d.ringNext 0 0).isNone
  let none1 := (d.ringNext 1 0).isNone
  if (a.isNone && !none0) || (b.isNone && !none1) || (none0 && none1) then
    ({ d with drove := { d.drove with elog := { e with stalled := true } } }, false)
  else
    let one := none0 || none1
    let e1 := { e with seq := e.seq + 1, stalled := false, oneCopy := one, pos0 := (a.map (fun x => x.2)).getD e.pos0,
                       pos1 := (b.map (fun x => x.2)).getD e.pos1 }
    let d3 := { d2 with drove := { d2.drove with elog := e1 } }
    (if one && !e.oneCopy then d3.post 6 0 0 0x10 2 else d3, true)
/-- A RETIRE record is on flash: the block is retired (R293). -/
def Dev.retireDone (d : Dev) (r : ElogRec) : Dev :=
  if r.type = 4 then
    let d1 := d.setBlkState r.die r.grp 4
    ({ d1 with drove := { d1.drove with retiredCount := sat 0xFFFF (d1.drove.retiredCount + 1) } }).post
      6 (r.die * 2 ^ 32 + r.grp) r.reason 0x0D 2
  else d
/-- Blocks of the die list in census order, with their block-table indices. -/
def Dev.censusPages (d : Dev) : List (Nat × Nat) :=
  d.presentDies.flatMap (fun die =>
    let n := d.dieGroups die
    (die * 4096, Nat.min n 4080) :: (if 4080 < n then [(die * 4096 + 4080, n - 4080)] else []))
/-- A census entry (Table 10-6). -/
def Dev.censusEntry (d : Dev) (i : Nat) : Nat :=
  let die := i / 4096
  let g := i % 4096
  let reason := if d.blkState die g = 4 then (d.drove.retireMarks.get 1 i) else 0
  Nat.min (d.blkErases die g) (2 ^ 28 - 1) + bit (d.blkState die g == 1) * 2 ^ 28 + reason * 2 ^ 29
/-- The next page of a census in progress is programmed; with the last one BASE moves to this census. -/
def Dev.censusStep (d : Dev) : Dev :=
  let e := d.drove.elog
  if !e.census then d
  else
    let ps := d.censusPages
    let k := ps.length - e.censusLeft
    let p := ps.getD k (0, 0)
    let first := if k = 0 then e.seq else e.censusFirst
    let body := (List.range p.2).flatMap (fun j => leBytes 4 (d.censusEntry (p.1 + j)))
    let r := d.elogProgram (fun copy => elogPage 2 copy e.seq first 0 k ps.length p.1 p.2 body)
    if !r.2 then r.1
    else
      let last := decide (e.censusLeft ≤ 1)
      let e1 := r.1.drove.elog
      { r.1 with drove := { r.1.drove with elog :=
        { e1 with censusFirst := first, censusLeft := e.censusLeft - 1, census := !last, base := if last then first else e1.base,
                  anyCensus := e1.anyCensus || last } } }
/-- Starts a census. -/
def Dev.censusStart (d : Dev) : Dev :=
  let n := d.censusPages.length
  if d.drove.elog.census ∨ n = 0 then d
  else { d with drove := { d.drove with elog := { d.drove.elog with census := true, censusLeft := n, pagesSince := 0 } } }
/-- A log page is due: 510 records, or the period of the oldest has passed. -/
def Dev.elogDue (d : Dev) : Bool :=
  match d.drove.elog.pending with
  | [] => false
  | r :: _ => decide (510 ≤ d.drove.elog.pending.length) || decide (r.createdAt + d.cfgv 7 0x30 * 1000 ≤ d.now)
/-- Programs up to 510 pending records as a page in both copies, then a page of a census in progress. -/
def Dev.elogPageProgram (d : Dev) : Dev :=
  let e := d.drove.elog
  if d.drove.stopped then d
  else if e.pending = [] then d.censusStep
  else
    let rs := e.pending.take 510
    let r := d.elogProgram (fun copy => elogPage 1 copy e.seq e.base rs.length 0 0 0 0 (rs.flatMap ElogRec.toBytes))
    if !r.2 then r.1
    else
      let e1 := r.1.drove.elog
      let d1 := { r.1 with drove := { r.1.drove with elog :=
        { e1 with pending := e.pending.drop 510, pagesSince := e1.pagesSince + 1 } } }
      let d2 := rs.foldl Dev.retireDone d1
      let d3 := if 32768 ≤ d2.drove.elog.pagesSince then d2.censusStart else d2
      d3.censusStep
/-- ERASE_LOG_PAGE_PROGRAM: a page that is due. -/
def execEraseLogPageProgram (s : State) : Out := s.apply fun d => if d.elogDue || d.drove.elog.census then d.elogPageProgram else d
/-- ERASE_LOG_PERIOD_EXPIRY: the period since the oldest pending record has passed. -/
def Dev.elogExpiry (d : Dev) : Dev :=
  match d.drove.elog.pending with
  | [] => d
  | r :: _ => d.advanceTo (r.createdAt + d.cfgv 7 0x30 * 1000)
/-- ERASE_LOG_PERIOD_EXPIRY. -/
def execEraseLogPeriodExpiry (s : State) : Out := s.apply Dev.elogExpiry

/-- A block is to be retired: the record waits for a page; marked blocks keep their reason. -/
def Dev.retireBlock (d : Dev) (die g reason serial : Nat) : Dev :=
  let i := die * 4096 + g
  if d.blkState die g = 4 ∨ d.dieFailed die ∨ d.drove.elog.pending.any (fun r => r.type == 4 && r.die == die && r.grp == g) then d
  else
    ({ d with drove := { d.drove with retireMarks := d.drove.retireMarks.set i reason } }).logRec 4 reason die g (d.blkErases die g) serial
/-- A BEGIN record of a block stands in the log. -/
def Dev.begun (d : Dev) (die g : Nat) : Bool :=
  (d.drove.begunBlks.get? (die * 4096 + g)).isSome && !d.drove.elog.pending.any (fun r => r.type == 1 && r.die == die && r.grp == g)
/-- A BEGIN record is created for a block: it is erased before any further use. -/
def Dev.beginErase (d : Dev) (die g serial : Nat) : Dev :=
  let d1 := (d.setBlkState die g 1).logRec 1 0 die g 0 serial
  { d1 with drove := { d1.drove with begunBlks := d1.drove.begunBlks.set (die * 4096 + g) serial } }

end Sys2Proof.Machine
end

