-- ==== Sys2Proof/Machine/Media.lean ====
section
/-! DEFINITION. Drove headers, spares, information words, reconstruction, and reads of slots by the drove engine
(R31, R221 to R228, R244, R248 to R260, R416). -/

namespace Sys2Proof.Machine

/-! ### Drove headers (Table 9-2) -/

/-- A member index that is unused. -/
def Member.init : Member := { die := 0, grp := 0, mstate := 0, endRow := 0xFFFF }
/-- Member i of a drove. -/
def Drove.member (x : Drove) (i : Nat) : Member := x.members.get Member.init i
/-- Indices of the data members in use, and of the parity members. -/
def Drove.dataIdx (x : Drove) : List Nat := (List.range 30).filter (fun i => (x.member i).mstate != 0)
/-- Indices of the parity members. -/
def Drove.parityIdx (x : Drove) : List Nat := [30, 31].filter (fun i => (x.member i).mstate != 0)
/-- The data members that take units of new rows. -/
def Drove.active (x : Drove) : List Nat := x.dataIdx.filter (fun i => (x.member i).mstate == 1)
/-- Row and member are listed in EXCL. -/
def Drove.excluded (x : Drove) (r i : Nat) : Bool := x.excl.contains (r, i)
/-- The member holds no row: it was narrowed at row 0, its END_ROW the row before row 0 (DESIGN CHOICE, assumption log 25). -/
def Member.noRows (m : Member) : Bool := m.mstate == 3 && m.endRow == 0xFFFF
/-- A data member is absent in a row (R248). -/
def Drove.absent (x : Drove) (r i : Nat) : Bool :=
  (x.member i).mstate == 0 || (x.member i).noRows || decide ((x.member i).endRow < r) || x.excluded r i
/-- The member entry as bytes. -/
def Member.toBytes (m : Member) : Bytes := leBytes 2 m.die ++ leBytes 2 m.grp ++ leBytes 1 m.mstate ++ leBytes 1 0 ++ leBytes 2 m.endRow
/-- The 512 bytes of a header. -/
def Drove.header (x : Drove) : Bytes :=
  let ex := (List.range 4).flatMap (fun i => match x.excl[i]? with
    | some e => leBytes 4 (e.1 + e.2 * 2 ^ 16 + 2 ^ 31)
    | none => zeros 4)
  let b := leBytes 4 0x48565244 ++ leBytes 2 1 ++ leBytes 1 x.n ++ leBytes 1 x.k ++ leBytes 8 x.serial ++ leBytes 8 x.gen ++ leBytes 1 x.state
    ++ leBytes 1 x.group ++ leBytes 1 x.stream ++ leBytes 1 0 ++ leBytes 2 x.nextRow ++ leBytes 2 x.w ++ leBytes 8 x.closeFirst ++ zeros 8
    ++ ex ++ (List.range 32).flatMap (fun i => (x.member i).toBytes) ++ zeros 188
  b ++ leBytes 4 (crc32c b)
/-- Reads a header; none where its magic, version or CRC is wrong. -/
def Drove.ofHeader (b : Bytes) : Option Drove :=
  if leAt b 0 4 ≠ 0x48565244 ∨ leAt b 4 2 ≠ 1 ∨ crc32c (b.take 0x1FC) ≠ leAt b 0x1FC 4 then none
  else
    let ex := (List.range 4).filterMap (fun i =>
      let v := leAt b (0x30 + 4 * i) 4
      if bitOf v 31 then some (v % 2 ^ 16, bitsOf v 23 16) else none)
    let ms : Tab Member := (List.range 32).filterMap (fun i =>
      let o := 0x40 + 8 * i
      if leAt b (o + 4) 1 = 0 then none
      else some (i, { die := leAt b o 2, grp := leAt b (o + 2) 2, mstate := leAt b (o + 4) 1, endRow := leAt b (o + 6) 2 }))
    some { n := leAt b 6 1, k := leAt b 7 1, serial := leAt b 8 8, gen := leAt b 0x10 8, state := leAt b 0x18 1, group := leAt b 0x19 1,
           stream := leAt b 0x1A 1, nextRow := leAt b 0x1C 2, w := leAt b 0x1E 2, closeFirst := leAt b 0x20 8, excl := ex, members := ms,
           use := .host, hdrOnFlash := true, slot := none, accP := [], accQ := [], accL := [], keys := [], closedAt := 0,
           closeEarly := false, rowDone := [], failedMembers := [] }

/-- A drove by serial. -/
def Dev.drv? (d : Dev) (serial : Nat) : Option Drove := d.drove.droves.get? serial
/-- Replaces a drove. -/
def Dev.setDrove (d : Dev) (x : Drove) : Dev := { d with drove := { d.drove with droves := d.drove.droves.set x.serial x } }
/-- Changes a drove. -/
def Dev.modDrove (d : Dev) (serial : Nat) (f : Drove → Drove) : Dev :=
  match d.drv? serial with
  | some x => d.setDrove (f x)
  | none => d
/-- Slots of the lamb area: LAMB_BLOCKS blocks of a quarter of the dies' word lines each. -/
def Dev.lambPer (d : Dev) : Nat := ((d.lambBlock 0).map (fun b => (d.die b.1).wl / 4)).getD 0
/-- Lamb slots in all. -/
def Dev.lambTotal (d : Dev) : Nat := d.lambBlocks * d.lambPer
/-- An erased lamb slot for a drove: the next in ring order whose channel holds none of the given channels and is in service. -/
def Dev.lambFree (d : Dev) (avoid : List Nat) : Option Nat :=
  let n := d.lambTotal
  let per := d.lambPer
  ((List.range n).map (fun i => (d.drove.lambNext + i) % n)).find? (fun i =>
    (d.drove.lamb.get? i).isNone &&
    (match d.lambBlock (i / per) with
     | some b => !avoid.contains (b.1 / 32) && !d.chanQuiesced (b.1 / 32) && d.blkState b.1 b.2 != 4 && d.blkState b.1 b.2 != 1
     | none => false))
/-- Programs a lamb slot. -/
def Dev.putLamb (d : Dev) (i : Nat) (x : LambSlot) : Dev :=
  { d with drove := { d.drove with lamb := d.drove.lamb.set i x, lambNext := if d.lambTotal = 0 then 0 else (i + 1) % d.lambTotal,
                                   mediaBytes := d.drove.mediaBytes + 64 * 4096 } }
/-- A drove header is written to the lamb area with its GEN raised: in a slot of headers only (R253). With no erased slot it waits. -/
def Dev.writeHeader (d : Dev) (serial : Nat) : Dev :=
  match d.drv? serial with
  | none => d
  | some x =>
    let x1 := { x with gen := x.gen + 1, hdrOnFlash := false }
    match d.lambFree [] with
    | none => d.setDrove x1
    | some i =>
      let x2 := { x1 with hdrOnFlash := true }
      (d.setDrove x2).putLamb i { serial := 0, row := 0, gen := 0, parity := [], spares := [], headers := [x2.header], released := true }
/-- Releases a drove's lamb slots. -/
def Dev.releaseLamb (d : Dev) (serial : Nat) : Dev :=
  { d with drove := { d.drove with lamb := d.drove.lamb.mapVals (fun _ s => if s.serial = serial then { s with released := true } else s) } }

/-! ### Spares and key slots -/

/-- A spare (Table 8-4). -/
def spareBytes (wsn liu nsid tag : Nat) (hmeta : Bytes) : Bytes :=
  leBytes 8 wsn ++ leBytes 5 liu ++ leBytes 2 nsid ++ leBytes 1 tag ++ padTo 16 hmeta
/-- WSN, LIU, NSID and TAG of a spare. -/
def spWsn (b : Bytes) : Nat := leAt b 0 8
/-- LIU. -/
def spLiu (b : Bytes) : Nat := leAt b 8 5
/-- NSID. -/
def spNsid (b : Bytes) : Nat := leAt b 0xD 2
/-- TAG. -/
def spTag (b : Bytes) : Nat := leAt b 0xF 1
/-- KIND. -/
def spKind (b : Bytes) : Nat := spTag b % 16
/-- The spare with the low four bits of its TAG replaced. -/
def spSetKind (b : Bytes) (k : Nat) : Bytes := b.take 15 ++ leBytes 1 (spTag b / 16 * 16 + k) ++ b.drop 16
/-- The information word of a codeword: DATA, then SPARE with TAG[3:0] zero (R248). -/
def infoWord (data spare : Bytes) : Bytes := padTo 4096 data ++ spSetKind (padTo 32 spare) 0

/-- The key binding of a namespace. -/
def Dev.keyBind (d : Dev) (nsid : Nat) : KeyBind := (d.nvme.ns.get NsSt.init nsid).key
/-- The generation of a namespace for an IU of a WSN: the greatest START_WSN not above it (R416). -/
def KeyBind.genFor (k : KeyBind) (wsn : Nat) : Option (Nat × KeyGen) :=
  (k.gens.filter (fun e => e.2.gstate != 0 && decide (e.2.startWsn ≤ wsn))).foldl (fun best e => match best with
    | none => some e
    | some b => if b.2.startWsn < e.2.startWsn then some e else some b) none
/-- Key slot of an IU; slot 0 where the namespace has no generation for it. -/
def Dev.keySlotFor (d : Dev) (nsid wsn : Nat) : Nat :=
  if nsid = 0 then 0 else (((d.keyBind nsid).genFor wsn).map (fun e => e.2.slot)).getD 0
/-- Key slot of the current generation. -/
def KeyBind.current (k : KeyBind) : Option KeyGen := if k.cur = 0xFF then none else k.gens.get? k.cur

/-! ### Reading slots -/

/-- A unit in staging by drove, row and member. -/
def Dev.unit? (d : Dev) (serial row i : Nat) : Option UnitSt :=
  d.drove.units.find? (fun u => u.serial == serial && u.row == row && u.member == i)
/-- The drove and member whose block holds a slot: any drove not Released. -/
def Dev.ownerOf (d : Dev) (die g : Nat) : Option (Drove × Nat) :=
  d.drove.droves.findSome? (fun e => if e.2.state = 7 then none
    else (e.2.members.find? (fun m => m.2.die == die && m.2.grp == g && m.2.mstate != 0)).map (fun m => (e.2, m.1)))
/-- The die can be read: it is present, not declared failed, and its channel is in service. -/
def Dev.readable (d : Dev) (die : Nat) : Bool :=
  d.diePresent die && !d.dieFailed die && !(d.die die).needsReset && !(d.media.drvs.get DrvSt.init (die / 128)).quiesced && (d.chan (die / 32)).up
/-- Key slot of the unit that holds a codeword: the one its IUs name, or slot 0 where the unit holds none (R247, R416). -/
def Dev.unitKeySlot (d : Dev) (key : Nat) (spare : Bytes) : Nat :=
  let u := d.unslot key
  let sp := if spKind spare = 0 then spare else match d.cwAt (d.unitKey (key / 2 ^ 26) u.1 u.2.1 0) with
    | some c => c.spare
    | none => spare
  if spKind sp = 0 then d.keySlotFor (spNsid sp) (spWsn sp) else 0
/-- A codeword read from its die: data in clear under the key slot of its unit, and its spare. `bad` lists slots that do not decode. -/
def Dev.direct (d : Dev) (bad : List Nat) (key : Nat) : Option (Bytes × Bytes) :=
  if !d.readable (key / 2 ^ 26) ∨ bad.contains key then none
  else match d.cwAt key with
    | none => none
    | some c =>
      if c.cond = .uncertain && Config.freeBool d.free then none
      else
        some (padTo 4096 (c.deliver false (d.slot (d.unitKeySlot key c.spare)).content key), padTo 32 c.spare)
/-- Codeword k of row r of a member, from staging where its program has not succeeded, else from its die. -/
def Dev.memberCw (d : Dev) (bad : List Nat) (x : Drove) (r i k : Nat) : Option (Bytes × Bytes) :=
  match d.unit? x.serial r i with
  | some u => match u.cws.get? k with
    | some c => some (padTo 4096 c.data, padTo 32 c.spare)
    | none => some (zeros 4096, zeros 32)
  | none =>
    let m := x.member i
    if m.mstate = 0 ∨ m.mstate = 4 then none else d.direct bad (d.unitKey m.die m.grp r k)
/-- The information word of a data member in a row's parity: zero where it is absent, none where it is lost. -/
def Dev.memberWord (d : Dev) (bad : List Nat) (x : Drove) (r i k : Nat) : Option Bytes :=
  if x.absent r i then some (zeros 4128)
  else if r = x.nextRow ∧ x.state ≤ 2 ∧ (d.unit? x.serial r i).any (fun u => !u.folded) then some (zeros 4128)
  else (d.memberCw bad x r i k).map (fun c => infoWord c.1 c.2)
/-- The parity words of position k of a row, in the order P, Q, lamb (R250, Table 9-6). -/
def Dev.levelWords (d : Dev) (bad : List Nat) (x : Drove) (r k : Nat) : List (PLevel × Bytes) :=
  if x.state ≤ 2 ∧ r = x.nextRow then
    [(PLevel.p, x.accP.get (zeros 4128) k)] ++ (if x.k = 2 then [(PLevel.q, x.accQ.get (zeros 4128) k)] else [])
      ++ [(PLevel.lamb, x.accL.get (zeros 4128) k)]
  else
    let par := fun (l : PLevel) (i : Nat) =>
      if x.absent r i then none
      else (d.memberCw bad x r i k).map (fun c => (l, if l = .p then infoWord c.1 c.2 else padTo 4096 c.1 ++ padTo 32 c.2))
    let lamb := (d.drove.lamb.find? (fun e => e.2.serial == x.serial && e.2.row == r && !e.2.released && e.2.parity != [])).map
      (fun e => (PLevel.lamb, e.2.parity.get (zeros 4128) k))
    [par .p 30, if x.k = 2 then par .q 31 else none, lamb].filterMap id
/-- KIND of a reconstructed codeword (R249). -/
def kindOfSpare (x : Drove) (r : Nat) (sp : Bytes) : Nat :=
  if spNsid sp ≠ 0 then 0 else if spWsn sp ≠ 0 then 1 else if x.w - summaryLines x.w ≤ r ∧ x.state ≠ 2 then 2 else 4
/-- Reconstruction of position k of row r of a data member (R250) from the levels that are permitted; none when the losses exceed them. -/
def Dev.rebuildBy (d : Dev) (allowed : PLevel → Bool) (bad : List Nat) (x : Drove) (r i k : Nat) : Option (Bytes × Bytes) :=
  let words := x.dataIdx.map (fun j => (j, if j = i then none else d.memberWord bad x r j k))
  let lost := (words.filter (fun e => e.2.isNone)).map (fun e => e.1)
  let synd := ((d.levelWords bad x r k).filter (fun l => allowed l.1)).map (fun l =>
    (l.1, words.foldl (fun acc e => match e.2 with
      | some w => xorBytes acc (scaleBytes (coefOf x.k l.1 e.1) w)
      | none => acc) l.2))
  match solveLost x.k synd lost with
  | none => none
  | some sol => (sol.find? (fun e => e.1 == i)).map (fun e =>
      let sp := sliceOf e.2 4096 32
      (e.2.take 4096, spSetKind sp (kindOfSpare x r sp)))
/-- Reconstruction of position k of row r of a data member from every level. -/
def Dev.rebuildCw (d : Dev) (bad : List Nat) (x : Drove) (r i k : Nat) : Option (Bytes × Bytes) := d.rebuildBy (fun _ => true) bad x r i k
/-- Losses at position k of row r: present data members that cannot be read (R260). -/
def Dev.lossesAt (d : Dev) (bad : List Nat) (x : Drove) (r k : Nat) : Nat :=
  (x.dataIdx.filter (fun j => (d.memberWord bad x r j k).isNone)).length
/-- A codeword by its slot, read directly or rebuilt from the drove that holds it (R31). -/
def Dev.readSlot (d : Dev) (bad : List Nat) (key : Nat) : Option (Bytes × Bytes) :=
  let u := d.unslot key
  match d.ownerOf (key / 2 ^ 26) u.1 with
  | none => d.direct bad key
  | some (x, i) =>
    match d.memberCw bad x u.2.1 i u.2.2 with
    | some c => some c
    | none => if i < 30 then d.rebuildCw bad x u.2.1 i u.2.2 else none

/-- Host metadata of an IU's parts in one form: 64 bytes a part: HMETA, then the 48 overflow bytes of format 1. -/
def metaOf (sp ovf : Bytes) (k : Nat) : Bytes := sliceOf sp 0x10 16 ++ sliceOf ovf (48 * k) 48
/-- An IU by the slot of its first codeword: its data, its host metadata (64 bytes a part), and the first part's spare; none when a
codeword cannot be recovered. -/
def Dev.readIu (d : Dev) (bad : List Nat) (key : Nat) : Option (Bytes × Bytes × Bytes) :=
  let parts := d.iuParts
  let cs := (List.range parts).map (fun p => d.readSlot bad (key + p))
  if cs.any Option.isNone then none
  else
    let u := d.unslot key
    let fst := (cs.getD 0 none).getD ([], [])
    let fmt1 := (d.nvme.ns.get NsSt.init (spNsid fst.2)).lbaf == 1
    let ovf := if fmt1 then d.readSlot bad (d.unitKey (key / 2 ^ 26) u.1 u.2.1 47) else some ([], [])
    match ovf with
    | none => none
    | some o => some (cs.flatMap (fun c => (c.getD ([], [])).1),
        (List.range parts).flatMap (fun p => metaOf (((cs.getD p none).getD ([], [])).2) (if fmt1 then o.1 else zeros 4096) (u.2.2 + p)), fst.2)

end Sys2Proof.Machine
end

