-- ==== Sys2Proof/Machine/Place.lean ====
section
/-! DEFINITION. Placement: units in staging, tombstone codewords, folding into the accumulators, and the programs of units
(Table 1-11 steps 4 and 6; R223, R224, R229 to R231, R247, R274, R326). -/

namespace Sys2Proof.Machine

/-! ### Units -/

/-- Codewords of a unit that are filled, the metadata codeword apart. -/
def UnitSt.fill (u : UnitSt) : Nat := (u.cws.filter (fun e => !(u.metaCw && e.1 == 47))).length
/-- Codewords a unit offers. -/
def UnitSt.cap (u : UnitSt) : Nat := if u.metaCw then 47 else 48
/-- The unit is full. -/
def UnitSt.full (u : UnitSt) : Bool := decide (u.cap ≤ u.fill)
/-- A new unit. -/
def UnitSt.new (serial row i slot : Nat) : UnitSt :=
  { serial := serial, row := row, member := i, keyslot := slot, cws := [], metaCw := false, folded := false, issued := false, success := false,
    refs := 0, ticket := none }
/-- A padding codeword. -/
def padCw : StagedCw := { data := zeros 4096, spare := spareBytes 0 0 0 4 [], marked := false, pen := none, posted := false }
/-- Fills the rest of a unit with padding. -/
def UnitSt.pad (u : UnitSt) : UnitSt :=
  { u with cws := (List.range (u.cap - u.fill)).foldl (fun (t : Tab StagedCw) j => t.set (u.fill + j) padCw) u.cws }
/-- Replaces a unit in staging, or adds it. -/
def Dev.setUnit (d : Dev) (u : UnitSt) : Dev :=
  let same := fun (v : UnitSt) => v.serial == u.serial && v.row == u.row && v.member == u.member
  { d with drove := { d.drove with units := if d.drove.units.any same then d.drove.units.map (fun v => if same v then u else v)
                                            else d.drove.units ++ [u] } }
/-- Removes a unit from staging. -/
def Dev.dropUnit (d : Dev) (serial row i : Nat) : Dev :=
  { d with drove := { d.drove with units := d.drove.units.filter (fun v => !(v.serial == serial && v.row == row && v.member == i)) } }
/-- Slot key of codeword k of a unit. -/
def Dev.unitSlot (d : Dev) (x : Drove) (u : UnitSt) (k : Nat) : Nat :=
  let m := x.member u.member
  d.unitKey m.die m.grp u.row k

/-! ### Leaving staging (R248, R326) -/

/-- The positions of the IUs of a unit that hold a marked word: the first codeword of each. -/
def UnitSt.markedIus (u : UnitSt) (parts : Nat) : List Nat :=
  (u.cws.filter (fun e => e.1 % parts == 0 && spKind e.2.spare == 0 && (List.range parts).any (fun p =>
    ((u.cws.get? (e.1 + p)).map (fun c => c.marked)).getD false))).map (fun e => e.1)
/-- The unit with its marked IUs written as zeros with RADDLE set. -/
def UnitSt.raddled (u : UnitSt) (parts : Nat) : UnitSt :=
  let ks := (u.markedIus parts).flatMap (fun k => (List.range parts).map (fun p => k + p))
  { u with cws := u.cws.mapVals (fun k c => if ks.contains k then
      { c with data := zeros 4096, spare := c.spare.take 15 ++ leBytes 1 (setBits (spTag c.spare) 6 6 1) ++ c.spare.drop 16, marked := false } else c) }
/-- Adds a unit's words to a drove's accumulators; adding them again removes them. -/
def Drove.fold (x : Drove) (u : UnitSt) : Drove :=
  let add := fun (t : Tab Bytes) (c : Nat) => (List.range 48).foldl (fun (t : Tab Bytes) k => match u.cws.get? k with
    | some w => t.set k (xorBytes (t.get (zeros 4128) k) (scaleBytes c (infoWord w.data w.spare)))
    | none => t) t
  { x with accP := add x.accP 1, accQ := if x.k = 2 then add x.accQ (coefOf x.k .q u.member) else x.accQ,
           accL := add x.accL (coefOf x.k .lamb u.member) }
/-- The work item that programs a unit. -/
def Dev.programItem (d : Dev) (x : Drove) (u : UnitSt) : WorkItem :=
  let m := x.member u.member
  { kind := 2, flags := 2, die := m.die, block := 4 * m.grp, page := 3 * u.row, planes := 0xF, keyslot := u.keyslot, buf := 0, len := 196608,
    tweak := d.unitSlot x u 0, stage := 0, ticket := 0 }
/-- A unit goes to its die: the work item is made. -/
def Dev.issueUnit (d : Dev) (x : Drove) (u : UnitSt) : Dev :=
  let r := d.addJob (d.programItem x u) (.unit u.serial u.row u.member) none
  let d1 := r.1.setUnit { u with issued := true, ticket := some r.2 }
  { d1 with drove := { d1.drove with mediaBytes := d1.drove.mediaBytes + 196608 } }
/-- A full unit of the current row leaves staging: its marked IUs become zeros, it is folded, and its program is posted. -/
def Dev.foldUnit (d : Dev) (serial : Nat) (u : UnitSt) : Dev :=
  match d.drv? serial with
  | none => d
  | some x =>
    let parts := d.iuParts
    let d1 := (u.markedIus parts).foldl (fun d k =>
      let sp := ((u.cws.get? k).getD padCw).spare
      (d.mapUpdateIf (d.iuBase (spNsid sp) + spLiu sp) (mapEntry 2 0 0 + d.unitSlot x u k) (d.unitSlot x u k)).1) d
    let u1 := { u.raddled parts with folded := true }
    let x1 := x.fold u1
    let d2 := (d1.setDrove { x1 with rowDone := addOnce u.member x.rowDone }).setUnit u1
    d2.issueUnit x1 u1
/-- Every full unit of a drove's current row that still waits leaves staging, in member order. -/
def Dev.pumpDrove (d : Dev) (serial : Nat) : Dev :=
  match d.drv? serial with
  | none => d
  | some x =>
    if x.state ≠ 2 then d
    else x.active.foldl (fun d i => match d.unit? serial x.nextRow i with
      | some u => if u.full && !u.folded then d.foldUnit serial u else d
      | none => d) d

/-! ### Finding a place (R229, R247, R273, R274) -/

/-- Rows of data of a drove. -/
def Drove.dataRows (x : Drove) : Nat := x.w - summaryLines x.w
/-- Rows that take IUs: the current one, and the next so that staging can run ahead (DESIGN CHOICE, assumption log 26). -/
def Drove.openRows (x : Drove) : List Nat :=
  (if x.closeEarly then [x.nextRow] else [x.nextRow, x.nextRow + 1]).filter (fun r => decide (r < x.dataRows))
/-- The open drove that takes IUs of a stream for a use. -/
def Dev.droveFor (d : Dev) (use : DroveUse) (stream : Nat) : Option Drove :=
  let open_ := (d.drove.droves.map (fun e => e.2)).filter (fun x => x.state == 2)
  let host := open_.find? (fun x => x.use == DroveUse.host && x.stream == stream)
  match use with
  | .host => host
  | u => match open_.find? (fun x => x.use == u && x.group == d.streamGroup stream) with
    | some x => some x
    | none => match open_.find? (fun x => x.use == DroveUse.gc && x.group == d.streamGroup stream) with
      | some x => some x
      | none => host
/-- The unit that takes the next codewords of a key slot: row by row and in member order, a unit of the slot with room, or a member whose
unit of the row is not begun. A format-1 IU also needs room for the metadata codeword. -/
def Dev.findUnit (d : Dev) (x : Drove) (slot parts : Nat) (fmt1 : Bool) : Option UnitSt :=
  x.openRows.findSome? (fun r => x.active.findSome? (fun i =>
    match d.unit? x.serial r i with
    | some u =>
      let lim := if fmt1 then 47 else u.cap
      if u.keyslot = slot ∧ !u.folded ∧ u.fill + parts ≤ lim ∧ !u.full then some u else none
    | none => if (x.keys.get? (r * 32 + i)).isSome then none else some (UnitSt.new x.serial r i slot)))
/-- Pads every unit of a drove's current row that is not full, and gives members without one a unit of padding. -/
def Dev.fillRow (d : Dev) (serial : Nat) : Dev :=
  match d.drv? serial with
  | none => d
  | some x =>
    let d1 := x.active.foldl (fun d i => match d.unit? serial x.nextRow i with
      | some u => if u.folded then d else d.setUnit u.pad
      | none => if (x.keys.get? (x.nextRow * 32 + i)).isSome then d
        else (d.setUnit (UnitSt.new serial x.nextRow i 0).pad).modDrove serial (fun y => { y with keys := y.keys.set (x.nextRow * 32 + i) 0 })) d
    d1.pumpDrove serial

/-- What is placed: an IU of a namespace with its data, host metadata (64 bytes a part), WSN (0: the next one), and the slot its map update
is conditional on. -/
structure PlaceReq where
  nsid : Nat
  liu : Nat
  wsn : Nat
  data : Bytes
  hmeta : Bytes
  marked : Bool
  raddle : Bool
  stream : Nat
  use : DroveUse
  pen : Option Nat
  onlyIf : Option Nat
  deriving DecidableEq, Repr

/-- The unit with an IU put at its next codewords. -/
def UnitSt.put (u : UnitSt) (q : PlaceReq) (wsn parts : Nat) (fmt1 : Bool) : UnitSt :=
  let k := u.fill
  let u1 := if fmt1 && !u.metaCw then
      { u with metaCw := true, cws := u.cws.set 47 { data := zeros 4096, spare := spareBytes 0 0 0 3 [], marked := false, pen := none, posted := false } }
    else u
  let cws := (List.range parts).foldl (fun (t : Tab StagedCw) p =>
    t.set (k + p) { data := sliceOf q.data (4096 * p) 4096,
                    spare := spareBytes wsn q.liu q.nsid (p * 16 + bit q.raddle * 64) (sliceOf q.hmeta (64 * p) 16),
                    marked := q.marked, pen := q.pen, posted := q.pen.isNone }) u1.cws
  let cws1 := if fmt1 then cws.modify padCw 47 (fun m => (List.range parts).foldl (fun m p =>
      { m with data := m.data.take (48 * (k + p)) ++ sliceOf q.hmeta (64 * p + 16) 48 ++ m.data.drop (48 * (k + p) + 48) }) m) else cws
  { u1 with cws := cws1 }

/-- An IU that a copy list names moves on from its destination slot: the list names the new slot and its drove instead, so that the victim waits
for that drove too (R283, R284). -/
def Dev.copyMoved (d : Dev) (old new serial : Nat) : Dev :=
  { d with drove := { d.drove with cycles := d.drove.cycles.map (fun c =>
    if decide (c.step ≤ 3) && c.copies.any (fun e => e.dstKey == old) then
      { c with copies := c.copies.map (fun e => if e.dstKey = old then { e with dst := serial, dstKey := new } else e), dests := addOnce serial c.dests }
    else c) } }
/-- Takes the next WSN, unless one is given. -/
def Dev.takeWsn (d : Dev) (w : Nat) : Dev × Nat :=
  if w = 0 then ({ d with drove := { d.drove with wsn := d.drove.wsn + 1 } }, d.drove.wsn) else (d, w)
/-- A unit has taken codewords: a full one is padded out and goes to its die when its row is the current one. -/
def Dev.keepUnit (d : Dev) (x : Drove) (u : UnitSt) : Dev :=
  let d1 := (d.setUnit u).modDrove x.serial (fun y => { y with keys := y.keys.set (u.row * 32 + u.member) u.keyslot })
  d1.pumpDrove x.serial
/-- Places an IU; the Bool says that it was placed. With no room the current row is filled with padding so that it can complete. -/
def Dev.placeIu (d : Dev) (q : PlaceReq) : Dev × Bool :=
  match (d.keyBind q.nsid).current, d.droveFor q.use q.stream with
  | some g, some x =>
    let fmt1 := (d.nvme.ns.get NsSt.init q.nsid).lbaf == 1
    let parts := d.iuParts
    if d.drove.stopped then (d, false)
    else match d.findUnit x g.slot parts fmt1 with
      | none => (d.fillRow x.serial, false)
      | some u0 =>
        let t := d.takeWsn q.wsn
        let u := u0.put q t.2 parts fmt1
        let key := d.unitSlot x u0 u0.fill
        let diu := d.iuBase q.nsid + q.liu
        let e := mapEntry (if q.raddle then 2 else 1) 0 0 + key
        let m : Dev × Bool := match q.onlyIf with
          | some old =>
            let r := t.1.mapUpdateIf diu e old
            (if r.2 then ((r.1.subValid (mapEntry 1 0 0 + old)).addValid key).copyMoved old key x.serial else r.1, true)
          | none =>
            let r := t.1.mapUpdate diu e
            match r.2 with
            | some old => ((r.1.subValid old).addValid key, true)
            | none => (r.1, false)
        if !m.2 then (d, false)
        else
          let d1 := m.1.addWritten key t.2
          -- a format-1 IU skips a unit whose next codeword is the last: that one receives padding (R223)
          let d2 := if fmt1 then (d1.drove.units.filter (fun v => v.serial == x.serial && v.keyslot == g.slot && !v.folded && !v.metaCw
              && !v.full && decide (47 < v.fill + parts))).foldl (fun d v => d.setUnit v.pad) d1 else d1
          let bytes := 4096 * parts
          let d3 := { d2 with drove := { d2.drove with
            hostBytes := d2.drove.hostBytes + (if q.pen.isSome && q.onlyIf.isNone then bytes else 0),
            lastHostAt := if q.pen.isSome && q.onlyIf.isNone then d2.drove.lastHostAt.set x.group d2.now else d2.drove.lastHostAt } }
          (d3.keepUnit x u, true)
  | _, _ => (d, false)

/-! ### Tombstones (R229 to R232) -/

/-- The bytes of a record (Table 8-9). -/
def TombRec.toBytes (t : TombRec) : Bytes :=
  leBytes 8 t.wsn ++ leBytes 2 t.nsid ++ leBytes 1 (bit t.whole) ++ leBytes 1 0 ++ leBytes 6 t.first ++ leBytes 6 t.count
/-- The codeword of a list of records (Table 8-8). -/
def tombCw (ts : List TombRec) : Bytes :=
  let b := ts.flatMap TombRec.toBytes
  leBytes 2 ts.length ++ leBytes 2 0 ++ leBytes 4 (crc32c b) ++ leBytes 8 0 ++ padTo 4080 b
/-- Reads the records of a tombstone codeword; none when its NREC or CRC is wrong (R546). -/
def tombsOf (b : Bytes) (key stream : Nat) : Option (List TombRec) :=
  let n := leAt b 0 2
  if n = 0 ∨ 170 < n ∨ crc32c (sliceOf b 16 (24 * n)) ≠ leAt b 4 4 then none
  else some ((List.range n).map (fun i =>
    let o := 16 + 24 * i
    { wsn := leAt b o 8, nsid := leAt b (o + 8) 2, whole := bitOf (leAt b (o + 10) 1) 0, first := leAt b (o + 12) 6, count := leAt b (o + 18) 6,
      at_ := some key, stream := stream }))
/-- Places a record: in the tombstone codeword its stream is filling, or in a new one of a unit of slot 0; the Bool says that it was placed. -/
def Dev.placeTomb (d : Dev) (t : TombRec) (use : DroveUse) : Dev × Bool :=
  match d.droveFor use t.stream with
  | none => (d, false)
  | some x =>
    if d.drove.stopped then (d, false)
    else
      let w := d.takeWsn t.wsn
      let cur := d.drove.units.find? (fun u => u.serial == x.serial && u.keyslot == 0 && !u.folded && u.member < 30
        && ((u.cws.get? (u.fill - 1)).map (fun c => spKind c.spare == 1 && decide (leAt c.data 0 2 < 170))).getD false)
      let spot : Option (UnitSt × Nat × List TombRec) := match cur with
        | some u => some (u, u.fill - 1, (tombsOf ((u.cws.get padCw (u.fill - 1)).data) (d.unitSlot x u (u.fill - 1)) t.stream).getD [])
        | none => (d.findUnit x 0 1 false).map (fun u => (u, u.fill, []))
      match spot with
      | none => (d.fillRow x.serial, false)
      | some (u, k, old) =>
        let r := { t with wsn := w.2, at_ := some (d.unitSlot x u k) }
        let rs := old ++ [r]
        let hi := rs.foldl (fun m e => Nat.max m e.wsn) 0
        let u1 := { u with cws := u.cws.set k { data := tombCw rs, spare := spareBytes hi 0 0 1 [], marked := false, pen := none, posted := true } }
        let d1 := { w.1 with drove := { w.1.drove with tombs := w.1.drove.tombs ++ [r] } }
        (if rs.length < 170 then (d1.setUnit u1).modDrove x.serial (fun y => { y with keys := y.keys.set (u.row * 32 + u.member) 0 })
         else d1.keepUnit x u1, true)
/-- The map entries of a range of a namespace become TYPE 0b00. -/
def Dev.unmap (d : Dev) (nsid first count : Nat) : Dev :=
  (List.range count).foldl (fun d i =>
    let r := d.mapUpdate (d.iuBase nsid + first + i) 0
    match r.2 with
    | some old => r.1.subValid old
    | none => r.1) d
/-- A deallocate of a range: one record, and the entries of the range (R229). -/
def Dev.trim (d : Dev) (nsid first count stream : Nat) : Dev × Bool :=
  let r := d.placeTomb { wsn := 0, nsid := nsid, whole := false, first := first, count := count, at_ := none, stream := stream } .host
  (if r.2 then r.1.unmap nsid first count else r.1, r.2)
/-- A whole-namespace record (R230), and the entries of the namespace. The stream is the namespace's first handle, or 0. -/
def Dev.trimAll (d : Dev) (nsid : Nat) : Dev × Bool :=
  let h := ((d.nvme.ns.get NsSt.init nsid).handles.head?).getD 0
  let r := d.placeTomb { wsn := 0, nsid := nsid, whole := true, first := 0, count := 0, at_ := none, stream := h } .host
  (if r.2 then r.1.unmap nsid 0 (d.iuCount nsid) else r.1, r.2)
/-- Live tombstone records have reached TOMB_LIMIT (R232). -/
def Dev.tombFull (d : Dev) : Bool := decide (d.cfgv 8 0x12 ≤ d.drove.tombs.length)

/-! ### Program results (Table 1-11 step 8) -/

/-- A unit's program has ended: with success its staging is freed once no read holds it; a failure is recorded for R258. -/
def Dev.unitResult (d : Dev) (serial row i status : Nat) : Dev :=
  match d.unit? serial row i with
  | none => d
  | some u =>
    if status ≤ 1 then
      if u.refs = 0 then d.dropUnit serial row i else d.setUnit { u with success := true, ticket := none }
    else (d.setUnit { u with ticket := none }).modDrove serial (fun x => { x with failedMembers := x.failedMembers ++ [(i, status)] })
/-- A program of the unit failed and the failure is not handled yet. -/
def UnitSt.failed (u : UnitSt) : Bool := u.issued && u.ticket.isNone && !u.success

end Sys2Proof.Machine
end

