-- ==== Sys2Proof/Machine/Drove.lean ====
section
/-! DEFINITION. Droves from forming to closing: members, rows and parity, summaries, the verify, narrowing, and the lamb area
(R226 to R228, R243 to R246, R251 to R259, R282 to R284). -/

namespace Sys2Proof.Machine

/-! ### Forming (R245, R256) -/

/-- Droves Forming to Verifying. -/
def Dev.openDroves (d : Dev) : List Drove := (d.drove.droves.map (fun e => e.2)).filter (fun x => decide (x.state ≤ 4))
/-- The die a channel gives the next drove: round robin from the last one used, present, not failed, not suspect, not a spare, with a free,
erased block; the block with it. -/
def Dev.pickMember (d : Dev) (ch : Nat) (wear : Bool) : Option (Nat × Nat) :=
  let last := (d.chan ch).lastDie
  ((List.range 32).map (fun j => ch * 32 + (last + 1 + j) % 32)).findSome? (fun die =>
    if !d.diePresent die ∨ d.dieFailed die ∨ bitOf (d.chan ch).suspect (die % 32) ∨ d.poolDie die ∨ (d.die die).lost ∨ (d.die die).needsReset then none
    else (d.pickBlock die wear).map (fun g => (die, g)))
/-- Takes candidates in order while no channel die holds more than a cap. -/
def takeCapped (cap : Nat) : Nat → List (Nat × Nat) → List (Nat × Nat) → List (Nat × Nat)
  | 0, acc, _ => acc
  | _ + 1, acc, [] => acc
  | n + 1, acc, c :: t =>
    if (acc.filter (fun a => a.1 / 1024 == c.1 / 1024)).length < cap then takeCapped cap n (acc ++ [c]) t
    else takeCapped cap (n + 1) acc t
/-- The members of a new drove of a group: die and block of each, in order. Channels are taken in rotation by serial, so that the last ones,
which hold parity, rotate (R245; the rotation is the model's, assumption log 27). -/
def Dev.selectMembers (d : Dev) (grp want : Nat) (wear : Bool) : List (Nat × Nat) :=
  let chs := (List.range 128).filter (fun ch => d.inGroup grp ch && d.padOn (chanPad ch) && (d.chan ch).up && !d.chanQuiesced ch)
  let cands := chs.filterMap (fun ch => d.pickMember ch wear)
  let n := cands.length
  let rot := if n = 0 then [] else cands.drop (d.drove.serialNum % n) ++ cands.take (d.drove.serialNum % n)
  let quarters := ((List.range 4).filter (fun q => (List.range 128).any (fun ch => ch / 32 == q && d.inGroup grp ch))).length
  takeCapped (if quarters < 4 then 128 else (want + 3) / 4) (Nat.min want n) [] rot
/-- A stream may open a drove for a use (R273, R274). -/
def Dev.mayForm (d : Dev) (stream : Nat) (use : DroveUse) : Bool :=
  let open_ := d.openDroves
  let early := open_.filter (fun x => decide (x.state ≤ 2))
  let grp := d.streamGroup stream
  !d.drove.stopped && decide (open_.length < 64) &&
  (match use with
   | .host => !(early.any (fun x => x.use == DroveUse.host && x.stream == stream)) && d.nvme.ns.any (fun e => e.2.exists_ && e.2.handles.contains stream)
   | u =>
     let hosts := (early.filter (fun x => x.use == DroveUse.host)).length
     let gcs := (early.filter (fun x => x.use != DroveUse.host && x.group == grp)).length
     decide (gcs < Nat.min (d.cfgv 0x012 0x51) (64 - hosts)) && (u == DroveUse.gc || d.drove.wearOn.get false grp))
/-- DROVE_FORM: members are selected and the header is made; with fewer than N + K channels N is reduced, below 8 none is formed. -/
def Dev.formDrove (d : Dev) (stream : Nat) (use : DroveUse) : Dev :=
  if !d.mayForm stream use then d
  else
    let grp := d.streamGroup stream
    let k := d.cfgv 7 2 + 1
    let ms := d.selectMembers grp (d.cfgv 7 4 + k) (use == DroveUse.wear)
    let n := ms.length - k
    if n < 8 then d.post 6 grp 0 0x0D 2
    else
      let idx := fun j => if j < n then j else 30 + (j - n)
      let tab : Tab Member := (List.range ms.length).foldl (fun (t : Tab Member) j =>
        let m := ms.getD j (0, 0)
        t.set (idx j) { die := m.1, grp := m.2, mstate := if j < n then 1 else 2, endRow := 0xFFFF }) []
      let w := ms.foldl (fun a m => if a = 0 then (d.die m.1).wl else Nat.min a (d.die m.1).wl) 0
      let used := d.openDroves.filterMap (fun x => x.slot)
      let x : Drove := { n := n, k := k, serial := d.drove.serialNum, gen := 0, state := 1, group := grp, stream := stream, nextRow := 0, w := w,
                         closeFirst := 0, excl := [], members := tab, use := use, hdrOnFlash := false,
                         slot := (List.range 64).find? (fun s => !used.contains s), accP := [], accQ := [], accL := [], keys := [],
                         closedAt := 0, closeEarly := false, rowDone := [], failedMembers := [] }
      let d1 := ms.foldl (fun d m => (d.openBlk m.1 m.2).modChan (m.1 / 32) (fun c => { c with lastDie := m.1 % 32 })) (d.setDrove x)
      { d1 with drove := { d1.drove with serialNum := d1.drove.serialNum + 1 } }
/-- DROVE_FORM of a stream for a use. -/
def execDroveForm (stream : Fin 64) (use : Fin 3) (s : State) : Out :=
  s.apply fun d => d.formDrove stream.val (if use = 0 then .host else if use = 1 then .gc else .wear)
/-- The header of a Forming drove is on flash: the drove opens. -/
def Dev.headerProgrammed (d : Dev) (serial : Nat) : Dev :=
  match d.drv? serial with
  | none => d
  | some x =>
    if x.state ≠ 1 ∨ (d.lambFree []).isNone then d
    else ((d.writeHeader serial).modDrove serial (fun y => { y with state := 2 })).writeHeader serial
/-- DROVE_HEADER_PROGRAMMED. -/
def execDroveHeaderProgrammed (serial : W32) (s : State) : Out := s.apply fun d => d.headerProgrammed serial.toNat

/-! ### Rows (R246, R251, R252) -/

/-- A parity unit of the current row: P carries KIND 5, Q carries no KIND (R249). -/
def Drove.parityUnit (x : Drove) (i : Nat) : UnitSt :=
  let acc := if i = 30 then x.accP else x.accQ
  { UnitSt.new x.serial x.nextRow i 0 with
    cws := (List.range 48).map (fun k =>
      let w := acc.get (zeros 4128) k
      let sp := sliceOf w 4096 32
      (k, { data := w.take 4096, spare := if i = 30 then spSetKind sp 5 else sp, marked := false, pen := none, posted := true })),
    folded := true }
/-- The spare copies of a row: 1,536 bytes for each data member (R252). -/
def Dev.rowSpares (d : Dev) (x : Drove) (r : Nat) : Tab Bytes :=
  x.dataIdx.map (fun i => (i, (List.range 48).flatMap (fun k => (((d.memberCw [] x r i k).map (fun c => c.2))).getD (zeros 32))))
/-- The parity members that take this row's parity. -/
def Drove.parityActive (x : Drove) : List Nat := x.parityIdx.filter (fun i => (x.member i).mstate == 2)
/-- The last data row is complete, or the drove closes early: close numbers are assigned in member order and the header is written. -/
def Dev.beginClosing (d : Dev) (serial : Nat) : Dev :=
  match d.drv? serial with
  | none => d
  | some x =>
    let d1 := d.setDrove { x with state := 3, closeFirst := d.drove.closeNum }
    ({ d1 with drove := { d1.drove with closeNum := d1.drove.closeNum + x.n } }).writeHeader serial
/-- ROW_COMPLETE: every data member's unit of the row has been folded; P, Q and one lamb slot are programmed and the accumulators restart. -/
def Dev.rowComplete (d : Dev) (serial : Nat) : Dev :=
  match d.drv? serial with
  | none => d
  | some x =>
    let chans := (x.dataIdx ++ x.parityIdx).map (fun i => (x.member i).die / 32)
    if x.state ≠ 2 ∨ d.drove.stopped ∨ !(x.active.all x.rowDone.contains) ∨ x.active = [] then d
    else match d.lambFree chans with
      | none => d
      | some slot =>
        let lamb : LambSlot := { serial := serial, row := x.nextRow, gen := x.gen, parity := (List.range 48).map (fun k => (k, x.accL.get (zeros 4128) k)),
                                 spares := d.rowSpares x x.nextRow, headers := [], released := false }
        let d1 := x.parityActive.foldl (fun d i => d.issueUnit x (x.parityUnit i)) (d.putLamb slot lamb)
        let x1 := { x with nextRow := x.nextRow + 1, accP := [], accQ := [], accL := [], rowDone := [] }
        let d2 := d1.setDrove x1
        if x1.dataRows ≤ x1.nextRow ∨ x.closeEarly then d2.beginClosing serial else d2.pumpDrove serial
/-- ROW_COMPLETE of a drove. -/
def execRowComplete (serial : W32) (s : State) : Out := s.apply fun d => d.rowComplete serial.toNat
/-- A drove is to close at the end of its current row; a row with nothing in it ends at once. -/
def Dev.closeEarly (d : Dev) (serial : Nat) : Dev :=
  match d.drv? serial with
  | none => d
  | some x =>
    if x.state ≠ 2 then d
    else
      let d1 := d.setDrove { x with closeEarly := true }
      if x.rowDone = [] ∧ !(d.drove.units.any (fun u => u.serial == serial && u.row == x.nextRow)) then d1.beginClosing serial else d1.fillRow serial

/-! ### Summaries (R226 to R228) -/

/-- Slot within its block of codeword k of a row (R219). -/
def slotInBlock (pages r k : Nat) : Nat := (k / 4 % 4 * pages + (3 * r + k / 16)) * 4 + k % 4
/-- The entries of a member's rows: row, position and spare of each user-data IU and each tombstone codeword. -/
def Dev.memberEntries (d : Dev) (bad : List Nat) (x : Drove) (i : Nat) : List (Nat × Nat × Bytes) :=
  (List.range (Nat.min (x.nextRow + 1) x.dataRows)).flatMap (fun r =>
    if x.absent r i then [] else (List.range 48).filterMap (fun k =>
      let cw := match d.memberCw bad x r i k with
        | some c => some c
        | none => d.rebuildCw bad x r i k
      match cw with
      | none => none
      | some c =>
        let t := spTag c.2
        if t = 0xFF then none
        else if (spKind c.2 = 0 ∧ t / 16 % 4 = 0 ∧ spNsid c.2 ≠ 0) ∨ spKind c.2 = 1 then some (r, k, c.2) else none))
/-- The codewords of a member's summary, in unit order (Tables 8-6 and 8-7). -/
def Dev.summaryOf (d : Dev) (x : Drove) (i : Nat) : List Bytes :=
  let m := x.member i
  let p := d.dieP m.die
  let es := sortOn (fun e : Nat × Nat × Bytes => spNsid e.2.2 * 2 ^ 40 + spLiu e.2.2) (d.memberEntries [] x i)
  let su := summaryLines x.w
  let ne := (48 * x.dataRows + 169) / 170
  let nh := (64 + 8 * ne + 4095) / 4096
  let entry := fun (e : Nat × Nat × Bytes) => e.2.2.take 15 ++ leBytes 1 (spTag e.2.2 - spTag e.2.2 / 16 % 4 * 16)
    ++ leBytes 4 (slotInBlock p e.1 e.2.1) ++ zeros 4
  let key := fun (j : Nat) => match es[170 * j]? with
    | some e => leBytes 8 (spNsid e.2.2 * 2 ^ 40 + spLiu e.2.2)
    | none => zeros 8
  let user := es.filter (fun e => spKind e.2.2 == 0)
  let lo := user.foldl (fun a e => Nat.min a (spWsn e.2.2)) ones64
  let hi := es.foldl (fun a e => Nat.max a (spWsn e.2.2)) 0
  let h1 := leBytes 4 0x4D555342 ++ leBytes 2 1 ++ leBytes 1 (if d.iuParts = 4 then 14 else 12) ++ leBytes 1 su ++ leBytes 8 (x.closeFirst + i)
    ++ leBytes 8 lo ++ leBytes 8 hi ++ leBytes 2 m.die ++ zeros 2 ++ leBytes 4 (4 * m.grp) ++ leBytes 4 es.length ++ leBytes 4 ne
  let rest := zeros 12 ++ padTo (4096 * nh - 64) ((List.range ne).flatMap key)
    ++ (List.range ne).flatMap (fun j => padTo 4096 (((es.drop (170 * j)).take 170).flatMap entry))
  let body := h1 ++ leBytes 4 (crc32c (h1 ++ zeros 4 ++ rest)) ++ rest
  (List.range (48 * su)).map (fun j => padTo 4096 (sliceOf body (4096 * j) 4096))
/-- Writes a codeword of a member under the media metadata slot. -/
def Dev.putMember (d : Dev) (x : Drove) (i r k : Nat) (data spare : Bytes) : Dev :=
  let m := x.member i
  let key := d.unitKey m.die m.grp r k
  d.putCw key { data := data, spare := spare, sealed := some ⟨(d.slot 0).content, key⟩, cond := .good }
/-- Programs the summary rows of a Closing drove with their parity. -/
def Dev.writeSummaries (d : Dev) (x : Drove) : Dev :=
  let sums : List (Nat × List Bytes) := x.active.map (fun i => (i, d.summaryOf x i))
  let sp := spareBytes 0 0 0 2 []
  (List.range (48 * summaryLines x.w)).foldl (fun d j =>
    let r := x.dataRows + j / 48
    let k := j % 48
    let d1 := sums.foldl (fun d e => d.putMember x e.1 r k (e.2.getD j []) sp) d
    let par := fun (l : PLevel) => sums.foldl (fun acc e => xorBytes acc (scaleBytes (coefOf x.k l e.1) (infoWord (e.2.getD j []) sp))) (zeros 4128)
    x.parityActive.foldl (fun d i =>
      let w := par (if i = 30 then .p else .q)
      d.putMember x i r k (w.take 4096) (if i = 30 then spSetKind (sliceOf w 4096 32) 5 else sliceOf w 4096 32)) d1) d
/-- SUMMARY_ROWS_PROGRAMMED: every unit of the drove has its result, the summaries and their parity are on flash, and the verify starts. -/
def Dev.summariesDone (d : Dev) (serial : Nat) : Dev :=
  match d.drv? serial with
  | none => d
  | some x =>
    if x.state ≠ 3 ∨ d.drove.stopped ∨ d.drove.units.any (fun u => u.serial == serial && !u.success) then d
    else
      let d1 := d.writeSummaries x
      let bytes := summaryLines x.w * 196608 * (x.active.length + x.parityActive.length)
      let d2 := d1.setDrove { x with state := 4, nextRow := x.w }
      let d3 := x.dataIdx.foldl (fun d i => (d.setBlkState (x.member i).die (x.member i).grp 3).blkPut (x.member i).die (x.member i).grp 0x10 8 (x.closeFirst + i)) d2
      ({ d3 with drove := { d3.drove with mediaBytes := d3.drove.mediaBytes + bytes } }).writeHeader serial
/-- SUMMARY_ROWS_PROGRAMMED of a drove. -/
def execSummaryRowsProgrammed (serial : W32) (s : State) : Out := s.apply fun d => d.summariesDone serial.toNat

/-! ### Copies (R282, R284) -/

/-- OBJ of a slot in a record: die ID × 2^32 + slot. -/
def slotObj (key : Nat) : Nat := key / 2 ^ 26 * 2 ^ 32 + key % 2 ^ 26
/-- Places the records of a tombstone codeword again, with their WSNs, each unless the test of R231 lets it drop or an open drove already holds
its copy; false when one could not be placed. The records themselves stay live until their block is erased (R232). -/
def Dev.copyTombs (d : Dev) (bad : List Nat) (use : DroveUse) (stream key : Nat) : Dev × Bool :=
  match ((d.readSlot bad key).map (fun c => c.1)).bind (fun b => tombsOf b key stream) with
  | none => ({ d with drove := { d.drove with integrityLost := true } }.post 6 (slotObj key) 0 0x10 2, true)
  | some ts =>
    let low := d.lowWsn
    ts.foldl (fun (acc : Dev × Bool) t =>
      let live := acc.1.drove.tombs.any (fun r => r.at_ == some key && r.wsn == t.wsn)
      let copied := acc.1.drove.tombs.any (fun r => r.wsn == t.wsn && (match r.at_ with
        | some k => k != key && ((acc.1.ownerOf (k / 2 ^ 26) (acc.1.unslot k).1).any (fun o => decide (o.1.state ≤ 4)))
        | none => false))
      if !acc.2 ∨ !live ∨ copied ∨ t.wsn ≤ low then acc
      else
        let r := acc.1.placeTomb { t with at_ := none } use
        if r.2 then r else (acc.1, false)) (d, true)
/-- A block is marked for retirement with reason 0x04 (R296, R337). -/
def Dev.markRetire (d : Dev) (key : Nat) : Dev :=
  let die := key / 2 ^ 26
  let g := (d.unslot key).1
  if (d.drove.retireMarks.get? (die * 4096 + g)).isSome ∨ d.blkState die g = 4 then d
  else { d with drove := { d.drove with retireMarks := d.drove.retireMarks.set (die * 4096 + g) 4 },
                integ := { d.integ with retireMark := sat 0xFFFF (d.integ.retireMark + 1) } }
/-- The slot an IU's map entry names once its marked copy is placed; a mark that replay or an evacuation makes is posted with it (R324). -/
def Dev.placedMark (d : Dev) (diu : Nat) : Dev := d.createMark 6 (slotObj (entKey (d.mapPeek diu)))
/-- Copies the IU of a slot: its WSN, LIU, NSID and TAG as its spare or summary entry gives them. A stale entry is skipped, a marked one is
copied as zeros without a read, one that cannot be recovered is copied as zeros with RADDLE set; a block whose codeword did not decode is marked
for retirement (R337). False when it could not be placed. `evac`: the mark is the evacuation's (R324). -/
def Dev.copyIu (d : Dev) (bad : List Nat) (use : DroveUse) (stream key wsn liu nsid : Nat) (src : Nat) (evac : Bool) : Dev × Bool :=
  let e := d.mapPeek (d.iuBase nsid + liu)
  let parts := d.iuParts
  if !(d.nvme.ns.get NsSt.init nsid).exists_ ∨ d.iuCount nsid ≤ liu ∨ !entNames e key then (d, true)
  else
    let zero := (zeros (4096 * parts), zeros (64 * parts))
    let got := if entType e = 2 then none else (d.readIu bad src).map (fun x => (x.1, x.2.1))
    let c := got.getD zero
    let r := d.placeIu { nsid := nsid, liu := liu, wsn := wsn, data := c.1, hmeta := c.2, marked := false, raddle := got.isNone,
                         stream := stream, use := use, pen := none, onlyIf := some key }
    let unread := d.readable (src / 2 ^ 26) && (List.range parts).any (fun p => bad.contains (src + p))
    if !r.2 then r
    else if got.isNone && entType e == 1 then
      ((if evac then r.1.placedMark (d.iuBase nsid + liu) else r.1.createMark 6 (slotObj key)).markRetire src, true)
    else if unread && entType e == 1 then (r.1.markRetire src, true)
    else r
/-- The source a failed destination slot is copied from: its victim's slot while a copy list names it (R284). -/
def Dev.copySource (d : Dev) (key : Nat) : Nat :=
  match d.drove.cycles.findSome? (fun c => if c.step ≤ 3 then c.copies.find? (fun e => e.dstKey == key) else none) with
  | some e => e.srcKey
  | none => key
/-- Copies the entries of a member; false when one could not be placed. -/
def Dev.copyMember (d : Dev) (bad : List Nat) (use : DroveUse) (evac : Bool) (x : Drove) (i : Nat) (es : List (Nat × Nat × Bytes)) : Dev × Bool :=
  es.foldl (fun (acc : Dev × Bool) e =>
    if !acc.2 then acc
    else
      let m := x.member i
      let key := acc.1.unitKey m.die m.grp e.1 e.2.1
      if spKind e.2.2 = 1 then acc.1.copyTombs bad use x.stream key
      else acc.1.copyIu bad use x.stream key (spWsn e.2.2) (spLiu e.2.2) (spNsid e.2.2) (acc.1.copySource key) evac) (d, true)

/-! ### The verify (R257) -/

/-- VERIFY_RESULT: members whose codewords failed. Their valid data is moved, their blocks are retired, and the drove closes; it stays
Verifying while data cannot be placed. -/
def Dev.verifyResult (d : Dev) (serial fails : Nat) : Dev :=
  match d.drv? serial with
  | none => d
  | some x =>
    if x.state ≠ 4 ∨ d.drove.stopped then d
    else
      let bad := (x.dataIdx ++ x.parityIdx).filter (fun i => bitOf fails i && ((x.member i).mstate == 1 || (x.member i).mstate == 2))
      let r := bad.foldl (fun (acc : Dev × Bool) i => if acc.2 && i < 30 then acc.1.copyMember [] .gc false x i (acc.1.memberEntries [] x i) else acc) (d, true)
      if !r.2 then r.1
      else
        let d1 := bad.foldl (fun d i =>
          (d.retireBlock (x.member i).die (x.member i).grp 3 serial).modDrove serial (fun y =>
            { y with members := y.members.set i { y.member i with mstate := 3, endRow := x.w - 1 } })) r.1
        let d2 := d1.modDrove serial (fun y => { y with state := 5, closedAt := d.now, slot := none, keys := [] })
        let d3 := (d2.writeHeader serial).releaseLamb serial
        { d3 with drove := { d3.drove with closedEvt := true } }
/-- VERIFY_RESULT: the drove and a mask of the members that failed. -/
def execVerifyResult (serial : W32) (fails : W32) (s : State) : Out := s.apply fun d => d.verifyResult serial.toNat fails.toNat

/-! ### Narrowing (R258, R259) -/

/-- Places the IUs and records of a staged unit again in other units, with their WSNs; false when one could not be placed. -/
def Dev.replaceUnit (d : Dev) (x : Drove) (u : UnitSt) : Dev × Bool :=
  let parts := d.iuParts
  let r := u.cws.foldl (fun (acc : Dev × Bool) e =>
    let sp := e.2.spare
    let key := acc.1.unitSlot x u e.1
    if !acc.2 then acc
    else if spKind sp = 1 then
      let ts := (tombsOf e.2.data key x.stream).getD []
      ts.foldl (fun (a : Dev × Bool) t =>
        let live := a.1.drove.tombs.any (fun r => r.at_ == some key && r.wsn == t.wsn)
        if !a.2 ∨ !live then a
        else
          let p := ({ a.1 with drove := { a.1.drove with tombs := a.1.drove.tombs.filter (fun r => !(r.at_ == some key && r.wsn == t.wsn)) } }).placeTomb
            { t with at_ := none } x.use
          if p.2 then p else (a.1, false)) acc
    else if spKind sp ≠ 0 ∨ e.1 % parts ≠ 0 ∨ spNsid sp = 0 ∨ !entNames (acc.1.mapPeek (acc.1.iuBase (spNsid sp) + spLiu sp)) key then acc
    else
      let ovf := ((u.cws.get? 47).map (fun c => c.data)).getD []
      let data := (List.range parts).flatMap (fun p => padTo 4096 (u.cws.get padCw (e.1 + p)).data)
      let hm := (List.range parts).flatMap (fun p =>
        metaOf (u.cws.get padCw (e.1 + p)).spare (if u.metaCw then ovf else zeros 4096) (e.1 + p))
      acc.1.placeIu { nsid := spNsid sp, liu := spLiu sp, wsn := spWsn sp, data := data, hmeta := hm, marked := e.2.marked,
                      raddle := bitOf (spTag sp) 6, stream := x.stream, use := x.use, pen := if e.2.posted then none else e.2.pen,
                      onlyIf := some key }) (d, true)
  if r.2 then (r.1.dropUnit u.serial u.row u.member, true) else r
/-- Places again every staged unit of a data member that was narrowed, from its failed row on, the failed unit last; and of one declared
failed, the units not folded. -/
def Dev.replaceMember (d : Dev) (serial i : Nat) : Dev :=
  match d.drv? serial with
  | none => d
  | some x =>
    let us := d.drove.units.filter (fun u => u.serial == serial && u.member == i)
    let gone := (x.member i).mstate == 4
    let first := (us.filter UnitSt.failed).foldl (fun m u => Nat.min m u.row) (if gone then 0 else 0xFFFF)
    let todo := sortOn (fun u : UnitSt => 0xFFFF - u.row) (us.filter (fun u => decide (first ≤ u.row) && !(gone && u.folded)))
    let r := todo.foldl (fun (acc : Dev × Bool) u => if acc.2 then acc.1.replaceUnit x u else acc) (d, true)
    if !gone then r.1
    else
      -- a folded unit of a declared die leaves staging once its row's parity is being programmed: the row's levels hold it
      { r.1 with drove := { r.1.drove with units := r.1.drove.units.filter (fun u =>
          !(u.serial == serial && u.member == i && u.folded && u.ticket.isNone && decide (u.row < x.nextRow))) } }
/-- Narrows a drove after a failed program of a data member's unit of row r. -/
def Dev.narrowData (d : Dev) (x : Drove) (i r status : Nat) : Dev :=
  let cur := d.unit? x.serial x.nextRow i
  let x1 := match cur with
    | some u => if u.folded ∧ x.state = 2 then { x.fold u with rowDone := dropAll i x.rowDone } else x
    | none => x
  let last := if r < x.nextRow then x.nextRow - 1 else if r = 0 then 0xFFFF else r - 1
  let x2 := { x1 with members := x1.members.set i { x1.member i with mstate := 3, endRow := last } }
  let d0 := match cur with
    | some u => d.setUnit { u with folded := false }
    | none => d
  let d1 := (d0.setDrove x2).writeHeader x.serial
  let d2 := if status = 7 then d1
    else { d1 with drove := { d1.drove with retireMarks := d1.drove.retireMarks.set ((x.member i).die * 4096 + (x.member i).grp) 1 } }
  if x2.active.length < 8 then d2.closeEarly x.serial else d2.pumpDrove x.serial
/-- Narrows a drove after P or Q failed in row r: the row is listed in EXCL while an entry is free. -/
def Dev.narrowParity (d : Dev) (x : Drove) (i r status : Nat) : Dev :=
  let free := decide (x.excl.length < 4)
  let last := if free then r else if r = 0 then 0xFFFF else r - 1
  let x1 := { x with excl := if free then x.excl ++ [(r, i)] else x.excl,
                     members := x.members.set i { x.member i with mstate := 3, endRow := last } }
  let d1 := ((d.setDrove x1).dropUnit x.serial r i).writeHeader x.serial
  let d2 := if status = 7 then d1
    else { d1 with drove := { d1.drove with retireMarks := d1.drove.retireMarks.set ((x.member i).die * 4096 + (x.member i).grp) 1 } }
  if 4 ≤ x1.excl.length then d2.closeEarly x.serial else d2
/-- MEMBER_PROGRAM_FAIL: the next failed program of a drove is handled, and the units of narrowed members are placed again. -/
def Dev.memberProgramFail (d : Dev) (serial : Nat) : Dev :=
  match d.drv? serial with
  | none => d
  | some x =>
    if d.drove.stopped then d
    else
      let d1 : Dev := match x.failedMembers with
        | [] => d
        | (i, st) :: rest =>
          let x1 := { x with failedMembers := rest }
          let r := (d.drove.units.filter (fun u => u.serial == serial && u.member == i && u.failed)).foldl (fun m u => Nat.min m u.row) 0xFFFF
          if r = 0xFFFF ∨ ((x.member i).mstate ≠ 1 ∧ (x.member i).mstate ≠ 2) then d.setDrove x1
          else if i < 30 then d.narrowData x1 i r st else d.narrowParity x1 i r st
      (((d1.drv? serial).map (fun y => y.dataIdx.filter (fun i => (y.member i).mstate == 3 || (y.member i).mstate == 4))).getD []).foldl
        (fun d i => d.replaceMember serial i) d1
/-- MEMBER_PROGRAM_FAIL of a drove. -/
def execMemberProgramFail (serial : W32) (s : State) : Out := s.apply fun d => d.memberProgramFail serial.toNat

/-! ### The lamb area (R253) -/

/-- A header in a lamb slot is the newest of its drove, and the drove is not Released. -/
def Dev.headerLive (d : Dev) (b : Bytes) : Option Nat :=
  match Drove.ofHeader b with
  | none => none
  | some h => match d.drv? h.serial with
    | some x => if x.gen = h.gen ∧ x.state ≠ 7 then some h.serial else none
    | none => none
/-- LAMB_BLOCK_ERASE: every slot of the block belongs to a Closed or Released drove; live headers are rewritten in other blocks and the BEGIN
record is created; with that on flash and no header waiting for a slot the block is erased, which the log records (R253, R289). -/
def Dev.lambErase (d : Dev) (i : Nat) : Dev :=
  let per := d.lambPer
  let mine := d.drove.lamb.filter (fun e => decide (per ≠ 0) && e.1 / per == i)
  match d.lambBlock i with
  | none => d
  | some b =>
    if d.drove.stopped ∨ mine.any (fun e => !e.2.released) ∨ d.lambBlocks ≤ i ∨ d.blkState b.1 b.2 = 4 then d
    else if (d.drove.begunBlks.get? (b.1 * 4096 + b.2)).isNone then
      if mine = [] ∧ d.blkState b.1 b.2 ≠ 1 then d
      else
        let live := mine.flatMap (fun e => e.2.headers.filterMap d.headerLive)
        let d1 := live.foldl (fun d s => d.writeHeader s) (d.beginErase b.1 b.2 0)
        if live.any (fun s => (d1.drv? s).any (fun y => !y.hdrOnFlash)) then d else d1
    else if !d.begun b.1 b.2 ∨ mine.any (fun e => e.2.headers.any (fun h => (Drove.ofHeader h).any (fun x => (d.drv? x.serial).any (fun y =>
        y.state != 7 && (y.gen == x.gen || !y.hdrOnFlash))))) then d
    else
      let e := d.blkErases b.1 b.2 + 1
      let d1 := ((d.blkPut b.1 b.2 0 1 0).blkPut b.1 b.2 0xC 4 e).logRec 2 0 b.1 b.2 e 0
      let d2 := { d1 with drove := { d1.drove with lamb := d1.drove.lamb.filter (fun x => x.1 / per != i),
                                                   begunBlks := d1.drove.begunBlks.erase (b.1 * 4096 + b.2) } }
      -- headers that waited for an erased slot
      (d2.drove.droves.filter (fun e => !e.2.hdrOnFlash && e.2.state != 1 && e.2.state != 7)).foldl (fun d e => d.writeHeader e.1) d2
/-- LAMB_BLOCK_ERASE of a block of the lamb area. -/
def execLambBlockErase (i : BitVec 12) (s : State) : Out := s.apply fun d => d.lambErase i.toNat

end Sys2Proof.Machine
end

