-- ==== Sys2Proof/Machine/Rebuild.lean ====
section
/-! DEFINITION. What a boot reads from the media: the erase log, the drove headers of the lamb area, summaries, open blocks, tombstones;
and the map rebuild and repair (R233 to R241, R254, R290, R308, R330, R545, R546). -/

namespace Sys2Proof.Machine

/-! ### The erase log (R290) -/

/-- A log page found on the media. -/
structure LogPage where
  seq : Nat
  ptype : Nat
  base : Nat
  bytes : Bytes
  deriving DecidableEq, Repr

/-- The pages of a ring that decode and whose CRC is right. -/
def Dev.logPages (d : Dev) (r : Nat) (bad : List Nat) : List LogPage :=
  (d.ringBlocks r).flatMap (fun b => (List.range (4 * (d.die b.1).wl)).filterMap (fun p =>
    let ks := d.elogKeys b.1 b.2 p
    let cs := ks.map (fun k => if bad.contains k then none else d.cwAt k)
    if cs.any Option.isNone then none
    else
      let by_ := cs.flatMap (fun c => (c.map (fun x => x.data)).getD [])
      if leAt by_ 0 4 ≠ 0x474F4C45 ∨ crc32c (by_.take 0x3C ++ by_.drop 0x40) ≠ leAt by_ 0x3C 4 then none
      else some { seq := leAt by_ 8 8, ptype := leAt by_ 6 1, base := leAt by_ 0x10 8, bytes := by_ }))
/-- Pages of both rings by sequence number, copy 0 first. -/
def Dev.allPages (d : Dev) (bad : List Nat) : List LogPage :=
  let a := d.logPages 0 bad
  sortOn LogPage.seq (a ++ (d.logPages 1 bad).filter (fun p => !a.any (fun q => q.seq == p.seq)))
/-- The pages of a census that starts at a page, when it is complete. -/
def censusAt (ps : List LogPage) (first : Nat) : Option (List LogPage) :=
  let mine := ps.filter (fun p => p.ptype == 2 && p.base == first)
  match mine with
  | [] => none
  | p :: _ => if mine.length = leAt p.bytes 0x1C 2 then some mine else none
/-- Applies a census page to the block table. -/
def Dev.applyCensus (d : Dev) (p : LogPage) : Dev :=
  let first := leAt p.bytes 0x20 4
  (List.range (leAt p.bytes 0x24 4)).foldl (fun d j =>
    let e := leAt p.bytes (0x40 + 4 * j) 4
    let i := first + j
    let d1 := d.blkPut (i / 4096) (i % 4096) 0xC 4 (e % 2 ^ 28)
    let d2 := if bitOf e 28 then d1.setBlkState (i / 4096) (i % 4096) 1 else d1
    if e / 2 ^ 29 = 0 then d2
    else
      let d3 := d2.setBlkState (i / 4096) (i % 4096) 4
      { d3 with drove := { d3.drove with retireMarks := d3.drove.retireMarks.set i (e / 2 ^ 29) } }) d
/-- Applies a record to the block table. -/
def Dev.applyRec (d : Dev) (r : ElogRec) : Dev :=
  if d.blkState r.die r.grp = 4 then d
  else if r.type = 1 then d.setBlkState r.die r.grp 1
  else if r.type = 2 ∨ r.type = 3 then (d.setBlkState r.die r.grp 0).blkPut r.die r.grp 0xC 4 r.count
  else if r.type = 4 then
    let d1 := (d.setBlkState r.die r.grp 4).blkPut r.die r.grp 0xC 4 (Nat.max r.count (d.blkErases r.die r.grp))
    { d1 with drove := { d1.drove with retireMarks := d1.drove.retireMarks.set (r.die * 4096 + r.grp) r.reason } }
  else d
/-- Step 2 of Table 8-11: reads the log into a cleared block table. The Bool says that records are lost or no complete census remains, so
that every all-erased block is marked erase-before-use. -/
def Dev.loadElog (d : Dev) (bad : List Nat) : Dev × Bool :=
  let d0 := d.loseRange (d.reservedBase + 0x20000000) 0x20000000
  let ps := d.allPages bad
  let recs := ps.filter (fun p => p.ptype == 1)
  let newest := recs.foldl (fun m p => if m.1 ≤ p.seq then (p.seq, p.base) else m) (0, 0)
  let bases := (ps.filter (fun p => p.ptype == 2)).map (fun p => p.base)
  let c := if (censusAt ps newest.2).isSome then newest.2
    else (bases.filter (fun b => (censusAt ps b).isSome)).foldl Nat.max 0
  let hiSeq := ps.foldl (fun m p => Nat.max m p.seq) 0
  let loSeq := ps.foldl (fun m p => Nat.min m p.seq) hiSeq
  let hole := (List.range (hiSeq + 1)).any (fun q => decide (c < q) && decide (loSeq ≤ q) && !ps.any (fun p => p.seq == q))
  let d1 := ((censusAt ps c).getD []).foldl Dev.applyCensus d0
  let rs := (recs.filter (fun p => decide (c < p.seq))).flatMap (fun p =>
    (List.range (leAt p.bytes 0x18 2)).map (fun j => ElogRec.ofBytes (sliceOf p.bytes (0x40 + 32 * j) 32)))
  let d2 := rs.foldl Dev.applyRec d1
  let e := { d2.drove.elog with seq := hiSeq + 1, base := c, anyCensus := decide (c ≠ 0) }
  let d3 := { d2 with drove := { d2.drove with elog := e } }
  (if hole then d3.post 6 0 0 0x10 2 else d3, hole || (decide (ps ≠ []) && decide (c = 0)))

/-! ### Drove headers (R253, R254, R303) -/

/-- The headers of the lamb area, the newest GEN for each SERIAL. -/
def Dev.flashHeaders (d : Dev) : List Drove :=
  (d.drove.lamb.flatMap (fun e => e.2.headers.filterMap Drove.ofHeader)).foldl (fun acc h =>
    match acc.find? (fun x => x.serial == h.serial) with
    | none => acc ++ [h]
    | some x => if x.gen < h.gen then acc.map (fun y => if y.serial = h.serial then h else y) else acc) []
/-- Members on dies declared failed are taken as MSTATE 0x04. -/
def Dev.failMembers (d : Dev) (x : Drove) : Drove :=
  { x with members := x.members.mapVals (fun _ m => if m.mstate ≠ 0 ∧ d.dieFailed m.die then { m with mstate := 4 } else m) }
/-- Takes the headers of the lamb area into the drove engine; a drove whose header replay restored keeps it. A drove that was not Closed and
that no journal restores takes no further rows: it is held Sealed (DESIGN CHOICE, assumption log 28). -/
def Dev.loadHeaders (d : Dev) : Dev :=
  d.flashHeaders.foldl (fun d h =>
    if h.state = 7 ∨ (d.drv? h.serial).isSome then d
    else d.setDrove (d.failMembers (if h.state ≤ 4 then { h with state := 6 } else h))) d

/-! ### Blocks and entries (R228, R236, R240, R308, R545) -/

/-- A candidate for a map entry (R237). -/
structure Cand where
  wsn : Nat
  nsid : Nat
  liu : Nat
  raddle : Bool
  tomb : Bool
  key : Nat
  rank : Nat
  deriving DecidableEq, Repr

/-- What a scan of a block found: its place, state and rank, its user-data entries, and its tombstone slots. -/
structure BlockScan where
  die : Nat
  grp : Nat
  closed : Bool
  fallback : Bool
  rank : Nat
  cands : List Cand
  tombs : List Nat
  stream : Nat
  deriving DecidableEq, Repr

/-- The blocks with a written codeword. -/
def Dev.writtenBlocks (d : Dev) : List (Nat × Nat) :=
  d.media.nand.foldl (fun acc e => addOnce (e.1 / 2 ^ 26, (d.unslot e.1).1) acc) []
/-- The block has a written codeword on word line r. -/
def Dev.rowWritten (d : Dev) (die g r : Nat) : Bool := (List.range 48).any (fun k => (d.cwAt (d.unitKey die g r k)).isSome)
/-- Rows scanned of a block: up to the first word line erased in every codeword. -/
def Dev.scanRows (d : Dev) (die g n : Nat) : Nat := ((List.range n).find? (fun r => !d.rowWritten die g r)).getD n
/-- Rows of a drove that reached flash, for a member on a declared die (R545). -/
def Dev.flashRows (d : Dev) (x : Drove) : Nat :=
  (d.drove.lamb.filter (fun e => e.2.serial == x.serial && e.2.parity != [])).foldl (fun m e => Nat.max m (e.2.row + 1)) x.nextRow
/-- A codeword of a member: read, or rebuilt where it does not decode. An erased codeword decodes: it is all ones, and its TAG 0xFF (R225). -/
def Dev.memberOrBuilt (d : Dev) (bad : List Nat) (x : Drove) (i r k : Nat) : Option (Bytes × Bytes) :=
  match d.memberCw bad x r i k with
  | some c => some c
  | none =>
    let m := x.member i
    let key := d.unitKey m.die m.grp r k
    if m.mstate ≠ 4 ∧ d.readable m.die ∧ (d.cwAt key).isNone ∧ !bad.contains key then some (List.replicate 4096 0xFF, List.replicate 32 0xFF)
    else if i < 30 then d.rebuildCw bad x r i k else none
/-- The entries of rows of a member: slot key and spare; and the slots that could not be recovered though something was written there. Where no
journal was replayed, a codeword of the last written word line that cannot be recovered was never written (R236). -/
def Dev.scanMember (d : Dev) (bad excl : List Nat) (x : Drove) (i : Nat) : List (Nat × Bytes) × List Nat :=
  let m := x.member i
  let staged := (d.drove.units.filter (fun u => u.serial == x.serial && u.member == i)).map (fun u => u.row)
  let n := if m.mstate = 4 then d.flashRows x else d.scanRows m.die m.grp x.dataRows
  let rows := (List.range x.dataRows).filter (fun r => (decide (r < n) || staged.contains r) && !x.absent r i)
  let all := rows.flatMap (fun r => (List.range 48).map (fun k => (d.unitKey m.die m.grp r k, d.memberOrBuilt bad x i r k, staged.contains r, r)))
  let ok := all.filter (fun e => e.2.2.1 || !excl.contains e.1)
  (ok.filterMap (fun e => e.2.1.map (fun c => (e.1, c.2))),
   (ok.filter (fun e => e.2.1.isNone && ((d.cwAt e.1).isSome || m.mstate == 4)
      && (d.drove.replayDone || e.2.2.2 + 1 != n))).map (fun e => e.1))
/-- The candidates and tombstone slots among spares. -/
def candsOf (rank : Nat) (es : List (Nat × Bytes)) : List Cand × List Nat :=
  ((es.filter (fun e => spTag e.2 != 0xFF && spKind e.2 == 0 && spTag e.2 / 16 % 4 == 0 && spNsid e.2 != 0)).map (fun e =>
      { wsn := spWsn e.2, nsid := spNsid e.2, liu := spLiu e.2, raddle := bitOf (spTag e.2) 6, tomb := false, key := e.1, rank := rank }),
   (es.filter (fun e => spTag e.2 != 0xFF && spKind e.2 == 1)).map (fun e => e.1))
/-- The summary of a member: its close number and entries, or the close number alone when an entry codeword cannot be recovered; none when
the summary does not verify (R228, R240). -/
def Dev.readSummary (d : Dev) (bad : List Nat) (x : Drove) (i : Nat) : Option (Nat × Option (List (Nat × Bytes))) :=
  let m := x.member i
  let su := summaryLines x.w
  let cs := (List.range (48 * su)).map (fun j => d.memberOrBuilt bad x i (x.dataRows + j / 48) (j % 48))
  match cs.head? with
  | some (some h) =>
    let dieOk := if m.mstate = 5 then d.dieFailed (leAt h.1 0x20 2) else leAt h.1 0x20 2 == m.die && leAt h.1 0x24 4 == 4 * m.grp
    if leAt h.1 0 4 ≠ 0x4D555342 ∨ leAt h.1 4 2 ≠ 1 ∨ !dieOk then none
    else if cs.any Option.isNone then some (leAt h.1 8 8, none)
    else
      let ne := leAt h.1 0x2C 4
      let nh := (64 + 8 * ne + 4095) / 4096
      let body := (cs.take (nh + ne)).flatMap (fun c => (c.map (fun y => y.1)).getD [])
      if crc32c (body.take 0x30 ++ zeros 4 ++ body.drop 0x34) ≠ leAt h.1 0x30 4 then none
      else
        let p := d.dieP m.die
        some (leAt h.1 8 8, some ((List.range (leAt h.1 0x28 4)).map (fun j =>
          let o := 4096 * (nh + j / 170) + 24 * (j % 170)
          let slot := leAt body (o + 16) 4
          let key := slotKey m.die (4 * m.grp * p * 4 + slot)
          (key, sliceOf body o 16 ++ zeros 16))))
  | _ => none
/-- Rank of an open block (R238). -/
def openRank (cs : List Cand) : Nat := 2 ^ 63 + cs.foldl (fun m c => Nat.max m c.wsn) 0
/-- Scans the block of a data member of a drove that is not Released: a summary that verifies makes it closed, and any other block is scanned as
open. On a declared die only a Closed drove's summary is rebuilt (Table 8-11 steps 3 and 4, R240, R545). -/
def Dev.scanBlock (d : Dev) (bad excl : List Nat) (x : Drove) (i : Nat) : BlockScan × List Nat :=
  let m := x.member i
  let open_ := fun (close : Option Nat) =>
    let r := d.scanMember bad excl x i
    let t := candsOf 0 r.1
    let rank := close.getD (openRank t.1)
    ({ die := m.die, grp := m.grp, closed := close.isSome, fallback := close.isSome, rank := rank,
       cands := t.1.map (fun c => { c with rank := rank }), tombs := t.2, stream := x.stream : BlockScan }, r.2)
  if x.state = 5 ∨ m.mstate ≠ 4 then
    match d.readSummary bad x i with
    | some (close, some es) =>
      let t := candsOf close es
      ({ die := m.die, grp := m.grp, closed := true, fallback := false, rank := close, cands := t.1, tombs := t.2, stream := x.stream }, [])
    | some (close, none) => open_ (some close)
    | none => open_ none
  else open_ none

/-- What step 3 and step 4 find: the scans of the data members' blocks that are read, and slots lost beyond recovery. -/
def Dev.scanAll (d : Dev) (bad excl : List Nat) : List BlockScan × List Nat :=
  let rs := d.drove.droves.flatMap (fun e =>
    if e.2.state = 7 then [] else (e.2.dataIdx.filter (fun i =>
      let m := e.2.member i
      d.blkState m.die m.grp != 4 && d.blkState m.die m.grp != 1 && (m.mstate == 5 || !d.poolDie m.die))).map (fun i => d.scanBlock bad excl e.2 i))
  (rs.map (fun r => r.1), rs.flatMap (fun r => r.2))
/-- Sets the states of the blocks no drove names (R254, R308, R545): written ones are erased before use, and with an untrusted log every
all-erased one too. Blocks of declared dies named by no header are neither read nor used, and those beyond the limits of R218 are marked. A
block whose erase has begun stays erase-before-use also where a header names it. -/
def Dev.classify (d : Dev) (untrusted : Bool) : Dev :=
  let d1 := d.writtenBlocks.foldl (fun d b =>
    if d.blkState b.1 b.2 = 4 ∨ d.blkNamed b.1 b.2 ∨ d.isLowBlk b.1 b.2 ∨ d.isDumpBlk b.1 b.2 then d else d.setBlkState b.1 b.2 1) d
  let d2 := if untrusted then
      d1.liveDies.foldl (fun d die => (List.range (d.dieGroups die)).foldl (fun d g =>
        if d.blkState die g = 0 ∧ !d.blkNamed die g ∧ !d.isLowBlk die g ∧ !d.isDumpBlk die g then d.setBlkState die g 1 else d) d) d1
    else d1
  let d3 := (d2.presentDies.filter (fun i => d2.dieFailed i)).foldl (fun d die =>
    (List.range (d.dieGroups die)).foldl (fun d g => if d.blkNamed die g then d else d.setBlkState die g 6) d) d2
  d3.drove.droves.foldl (fun d e => if e.2.state = 7 then d else
    (e.2.dataIdx ++ e.2.parityIdx).foldl (fun d i =>
      let m := e.2.member i
      if d.blkState m.die m.grp = 4 ∨ d.blkState m.die m.grp = 1 then d
      else d.setBlkState m.die m.grp (if e.2.state = 5 then 3 else 2)) d) (d3.presentDies.foldl (fun d die =>
    (List.range (Nat.min ((d.die die).nblocks / 4) 4096)).foldl (fun d g => if d.dieGroups die ≤ g then d.setBlkState die g 5 else d) d) d3)
/-- Steps 2 and 4 as replay and rebuild need them: the log, the headers and the block states. -/
def Dev.loadMedia (d : Dev) (bad : List Nat) : Dev :=
  let r := d.loadElog bad
  r.1.loadHeaders.classify r.2

/-! ### The winner (R237) -/

/-- A candidate beats the one that stands; a tie of two ranks goes to the higher die ID (R238). -/
def Cand.beats (c cur : Cand) : Bool :=
  decide (cur.wsn < c.wsn) || (c.wsn == cur.wsn && !cur.tomb &&
    (decide (cur.rank < c.rank) || (c.rank == cur.rank && decide (cur.key / 2 ^ 26 < c.key / 2 ^ 26))))
/-- The winner among the candidates of one IU. -/
def winnerOf (cs : List Cand) : Option Cand :=
  cs.foldl (fun best c => match best with
    | none => some c
    | some b => if c.beats b then some c else some b) none
/-- A tombstone record as a candidate for an IU. -/
def TombRec.candFor (t : TombRec) (liu rank : Nat) : Cand :=
  { wsn := t.wsn, nsid := t.nsid, liu := liu, raddle := false, tomb := true, key := 0, rank := rank }
/-- A record covers an IU. -/
def TombRec.covers (t : TombRec) (nsid liu : Nat) : Bool :=
  t.nsid == nsid && (t.whole || (decide (t.first ≤ liu) && decide (liu < t.first + t.count)))
/-- The candidates of an IU: data first, then the records that cover it. -/
def candsFor (cs : List Cand) (ts : List (TombRec × Nat)) (nsid liu : Nat) : List Cand :=
  cs.filter (fun c => c.nsid == nsid && c.liu == liu) ++ (ts.filter (fun t => t.1.covers nsid liu)).map (fun t => t.1.candFor liu t.2)
/-- The tombstone records of the scanned blocks, with their blocks' ranks, and the slots whose records are lost (R546). -/
def Dev.scanTombs (d : Dev) (bad : List Nat) (bs : List BlockScan) : List (TombRec × Nat) × List Nat :=
  let rs := bs.flatMap (fun b => b.tombs.map (fun k => (k, b.rank,
    (((d.readSlot bad k).map (fun c => c.1)).bind (fun y => tombsOf y k b.stream)))))
  (rs.flatMap (fun r => (r.2.2.getD []).map (fun t => (t, r.2.1))), (rs.filter (fun r => r.2.2.isNone)).map (fun r => r.1))

/-- Posts the loss of a codeword rebuild cannot recover: no candidate, a record, and critical warning bit 2 for every namespace. -/
def Dev.postLost (d : Dev) (ks : List Nat) : Dev :=
  ks.foldl (fun d k => ({ d with drove := { d.drove with integrityLost := true } }).post 6 (slotObj k) 0 0x10 2) d

/-! ### MAP_REBUILD -/

/-- The pairs of namespace and LIU the candidates name, once each. -/
def Dev.iusOf (d : Dev) (cs : List Cand) : List (Nat × Nat) :=
  (cs.filter (fun c => (d.nvme.ns.get NsSt.init c.nsid).exists_ && decide (c.liu < d.iuCount c.nsid))).foldl
    (fun acc c => addOnce (c.nsid, c.liu) acc) []
/-- Writes the winner of an IU into the map; its block gains a valid entry. -/
def Dev.writeWinner (d : Dev) (cs : List Cand) (ts : List (TombRec × Nat)) (n : Nat × Nat) : Dev :=
  match winnerOf (candsFor cs ts n.1 n.2) with
  | none => d
  | some c =>
    if c.tomb then d
    else (d.putBytes (entryAddr (d.iuBase n.1 + n.2)) (leBytes 5 (mapEntry (if c.raddle then 2 else 1) 0 0 + c.key))).addValid c.key
/-- The rebuild (Table 8-11), with the slots that do not decode after soft read and the time it took in ms. -/
def Dev.rebuildMap (d : Dev) (bad : List Nat) (ms : Nat) : Dev :=
  let d1 := d.loadMedia bad
  let excl := d1.drove.replayExcl
  let sc := d1.scanAll bad excl
  let ts := d1.scanTombs bad sc.1
  let d2 := (d1.postLost sc.2).postLost ts.2
  let cs := sc.1.flatMap (fun b => b.cands)
  -- the block table
  let d3 := sc.1.foldl (fun d b =>
    let d1 := (((d.setBlkState b.die b.grp (if b.closed then 3 else 2)).blkPut b.die b.grp 1 1 (bit b.fallback)).blkPut b.die b.grp 4 4 0).blkPut
      b.die b.grp 8 4 b.cands.length
    (d1.blkPut b.die b.grp 0x10 8 b.rank).blkPut b.die b.grp 0x18 8 (b.cands.foldl (fun m c => Nat.min m c.wsn) ones64)) d2
  -- the passes
  let d4 := d3.namespaces.foldl (fun d n => d.loseRange (entryAddr (d.iuBase n)) (5 * d.iuCount n)) { d3 with mapc := { d3.mapc with state := 0, enable := false, lines := [] } }
  let d5 := (d4.iusOf cs).foldl (fun d n => d.writeWinner cs ts.1 n) d4
  -- the counters of R239
  let hiWsn := ts.1.foldl (fun m t => Nat.max m t.1.wsn) (cs.foldl (fun m c => Nat.max m c.wsn) 0)
  let hiClose := sc.1.foldl (fun m b => if b.closed then Nat.max m b.rank else m) 0
  let serials := d5.drove.droves.map (fun e => e.1) ++ d5.flashHeaders.map (fun h => h.serial) ++ d5.drove.lamb.map (fun e => e.2.serial)
    ++ (d5.allPages bad).flatMap (fun p => if p.ptype = 1 then (List.range (leAt p.bytes 0x18 2)).map (fun j => leAt p.bytes (0x50 + 32 * j) 8) else [])
  let hiSer := serials.foldl Nat.max 0
  let used := d5.iuUsed
  { d5 with
    fold := { d5.fold with stage := if d5.fold.stage = 8 then 9 else d5.fold.stage }
    drove := { d5.drove with wsn := Nat.max d5.drove.wsn (hiWsn + 1), closeNum := Nat.max d5.drove.closeNum (hiClose + 1),
                             serialNum := Nat.max d5.drove.serialNum (hiSer + 1), tombs := ts.1.map (fun t => t.1) }
    mapc := { d5.mapc with enable := true, state := 1, lines := [], plru := [], rbPhase := 0, rbPass := 0,
                           rbPasses := sat 0xFF ((used + 1744830463) / 1744830464),
                           rbFallbacks := sat 0xFF ((sc.1.filter (fun b => b.fallback)).length), rbMs := sat 0xFFFFFFFF ms } }
/-- MAP_REBUILD: the slots that do not decode, and the duration. It runs once replay has ended, while no host I/O is served. -/
def execMapRebuild (bad : List (BitVec 38)) (ms : W32) (s : State) : Out :=
  s.apply fun d => if d.mapc.rbPhase = 2 then d.rebuildMap (bad.map BitVec.toNat) ms.toNat else d

/-! ### MAP_REPAIR (R330) -/

/-- The DIUs whose entries overlap a word of a line. -/
def wordDius (l w : Nat) : List Nat := (List.range 32).map (fun j => 32 * l + j) |>.filter (fun u => (entryWords u).contains w)
/-- The namespace and LIU of a DIU. -/
def Dev.liuOf (d : Dev) (diu : Nat) : Option (Nat × Nat) :=
  (d.namespaces.find? (fun n => decide (d.iuBase n ≤ diu) && decide (diu < d.iuBase n + d.iuCount n))).map (fun n => (n, diu - d.iuBase n))
/-- The marked words of the metadata area beyond the namespace table are rebuilt from media: what they hold stands, and their marks end. -/
def Dev.rebuildMeta (d : Dev) : Dev :=
  { d with marks := d.marks.filter (fun w => decide (w < d.reservedBase + 0x1000000) || decide (d.reservedBase + 0xC0000000 ≤ w)) }
/-- A Shepherd core rebuilds the marked words of the metadata area, and the entries under repair of a slot from candidates on the media and in staging, writes them and releases them. -/
def Dev.mapRepair (d0 : Dev) (k : Nat) (bad : List Nat) : Dev :=
  let d := d0.rebuildMeta
  let r := d.repairSlot k
  if !r.valid then d
  else
    let sc := d.scanAll bad []
    let ts := d.scanTombs bad sc.1
    let cs := sc.1.flatMap (fun b => b.cands)
    let d1 := d.clearMarks (lineAddr r.line + 8 * r.word) 8
    let d2 := (wordDius r.line r.word).foldl (fun d u =>
      let e := match (d.liuOf u).bind (fun n => winnerOf (candsFor cs ts.1 n.1 n.2)) with
        | some c => if c.tomb then 0 else mapEntry (if c.raddle then 2 else 1) 0 0 + c.key
        | none => 0
      d.putBytes (entryAddr u) (leBytes 5 e)) d1
    d2.repairRelease k
/-- MAP_REPAIR of a repair slot, with the slots that do not decode. -/
def execMapRepair (k : Fin 4) (bad : List (BitVec 38)) (s : State) : Out :=
  s.apply fun d => d.mapRepair k.val (bad.map BitVec.toNat)

end Sys2Proof.Machine
end

