-- ==== Sys2Proof/Machine/Journal.lean ====
section
/-! DEFINITION. The drove journal: fixing it, the dump and its descriptor, and replay (R34, R261 to R269). -/

namespace Sys2Proof.Machine

/-! ### The journal (R261, R262) -/

/-- The unit's program has started on its die. -/
def Dev.unitStarted (d : Dev) (u : UnitSt) : Bool :=
  match u.ticket with
  | none => u.issued
  | some t => d.media.dies.any (fun e => e.2.ops.any (fun o => o.origin == OpOrigin.work t && o.stage != .queued))
/-- A staged codeword as the journal holds it: whose command wrote it, and whether that had completed, matters no more (R261). -/
def StagedCw.kept (c : StagedCw) : StagedCw := { c with pen := none, posted := true }
/-- The units the journal covers, with their IUs: a unit folded or issued whole, another one for the IUs whose completion has posted, the others
standing as padding. -/
def Dev.journalUnits (d : Dev) : List UnitSt :=
  d.drove.units.filterMap (fun u =>
    if u.success then none
    else if u.folded || u.issued then some { u with cws := u.cws.mapVals (fun _ c => c.kept), issued := d.unitStarted u, ticket := none, refs := 0 }
    else
      let cws := u.cws.mapVals (fun k c => if c.posted || (u.metaCw && k == 47) then c.kept else padCw.kept)
      if u.cws.any (fun e => e.2.posted) then some { u with cws := cws, ticket := none, refs := 0 } else none)
/-- Droves whose headers the journal SRAM holds. -/
def Dev.journalDroves (d : Dev) : List Drove := d.openDroves
/-- Length of an image in codewords (Table 9-7). -/
def imageLen (k units lambs : Nat) : Nat := 65 + 48 * (k + 1) * 64 + 50 * units + 64 * lambs + 64
/-- Parity members of the droves in use. -/
def Dev.parityK (d : Dev) : Nat := d.cfgv 7 2 + 1
/-- Length of the image if it were dumped now. -/
def Dev.journalLen (d : Dev) : Nat := imageLen d.parityK d.journalUnits.length 0
/-- A unit with marked words is dumped with their IUs as zeros, RADDLE set; one folded already leaves its drove's accumulators and joins them
again as it is dumped (R326). -/
def Dev.dumpMarks (d : Dev) : Dev :=
  d.drove.units.foldl (fun d u =>
    match d.drv? u.serial with
    | none => d
    | some x =>
      let ks := u.markedIus d.iuParts
      if ks = [] then d
      else
        let u1 := u.raddled d.iuParts
        let d1 := ks.foldl (fun d k =>
          let sp := ((u.cws.get? k).getD padCw).spare
          (d.mapUpdateIf (d.iuBase (spNsid sp) + spLiu sp) (mapEntry 2 0 0 + d.unitSlot x u k) (d.unitSlot x u k)).1) d
        (if u.folded ∧ u.row = x.nextRow ∧ x.state ≤ 2 then d1.setDrove ((x.fold u).fold u1) else d1).setUnit u1) d
/-- The drove engine stops placement and fixes the journal. A journal fixed before, by a sequence that this one follows, stands. -/
def Dev.fixJournal (d : Dev) : Dev :=
  if d.drove.fixed.isSome then { d with drove := { d.drove with stopped := true } }
  else
    let img : JImage := { seq := d.drove.dumpSeq + 1, droves := d.dumpMarks.journalDroves, units := d.dumpMarks.journalUnits, lambs := [],
                          wsnNext := d.drove.wsn, closeNext := d.drove.closeNum, serialNext := d.drove.serialNum, statusA := 2, statusB := 2 }
    { d.dumpMarks with drove := { d.dumpMarks.drove with stopped := true, fixed := some img } }

/-! ### Dump descriptors (Table 9-8) -/

/-- Address of descriptor slot i of the Iluell store. -/
def descAddr (i : Nat) : Nat := 848 * 65536 + 4096 * i
/-- A descriptor slot with its DUMPSEQ and copy statuses, and whether LOADED and CONSUMED are programmed. -/
structure DumpDesc where
  slot : Nat
  seq : Nat
  statusA : Nat
  statusB : Nat
  ncw : Nat
  loaded : Bool
  consumed : Bool
  deriving DecidableEq, Repr

/-- Reads a descriptor slot whose CRC verifies. -/
def IluSt.descAt (i : IluSt) (n : Nat) : Option DumpDesc :=
  let b := i.read (descAddr n) 0x840
  if leAt b 0 4 ≠ 0x43534444 ∨ crc32c (b.take 0x3C ++ b.drop 0x40) ≠ leAt b 0x3C 4 then none
  else some { slot := n, seq := leAt b 8 8, statusA := leAt b 6 1, statusB := leAt b 7 1, ncw := leAt b 0x10 4,
              loaded := i.flag (descAddr n + 0xFF0), consumed := i.flag (descAddr n + 0xFF8) }
/-- Every descriptor of the store. -/
def IluSt.descs (i : IluSt) : List DumpDesc := (List.range 128).filterMap i.descAt
/-- The descriptor replay takes: the highest DUMPSEQ whose CONSUMED is all ones. -/
def IluSt.newestDesc (i : IluSt) : Option DumpDesc :=
  (i.descs.filter (fun x => !x.consumed)).foldl (fun best x => match best with
    | none => some x
    | some b => if b.seq < x.seq then some x else some b) none
/-- The extents of a dump set in a generation: the block of each of the first eight dies of each channel. -/
def Dev.dumpExtents (d : Dev) (b : Bool) (gen : Nat) : List (Nat × Nat) :=
  ((d.dumpChans b).flatMap (fun ch => ((d.chanDies ch).take 8).map (fun die => (die, d.dieGroups die - 1 - gen % 2)))).take 256
/-- The bytes of a descriptor up to its extents. -/
def Dev.descBytes (d : Dev) (img : JImage) (ncw : Nat) : Bytes :=
  let ea := if img.statusA = 2 then [] else d.dumpExtents false img.seq
  let eb := if img.statusB = 2 then [] else d.dumpExtents true img.seq
  let ext := fun (l : List (Nat × Nat)) => padTo 1024 (l.flatMap (fun e => leBytes 4 (e.1 + e.2 * 4096)))
  let h := leBytes 4 0x43534444 ++ leBytes 2 1 ++ leBytes 1 img.statusA ++ leBytes 1 img.statusB ++ leBytes 8 img.seq ++ leBytes 4 ncw
    ++ leBytes 2 ea.length ++ leBytes 2 eb.length ++ zeros 36
  h ++ leBytes 4 (crc32c (h ++ ext ea ++ ext eb)) ++ ext ea ++ ext eb
/-- Both copies have reported their status: the descriptor is programmed into an erased slot of the store. -/
def Dev.programDump (d : Dev) (failA failB : Bool) : Dev :=
  match d.drove.fixed with
  | none => d
  | some img0 =>
    let st := fun (b fail : Bool) => if !d.dumpArmed b then 2 else bit fail
    let img := { img0 with statusA := st false failA, statusB := st true failB }
    let ncw := imageLen d.parityK img.units.length img.lambs.length
    let slot := (List.range 128).find? (fun i => (d.ilu.read (descAddr i) 4096).all (· == 0xFF))
    let d1 := { d with drove := { d.drove with fixed := none, dumps := d.drove.dumps.set img.seq img, dumpSeq := img.seq,
                                               gensHeld := d.drove.gensHeld + 1, mediaBytes := d.drove.mediaBytes + 2 * 4096 * ncw } }
    match slot with
    | some i => d1.norProgram (descAddr i) (padTo 3584 (d1.descBytes img ncw) |>.take 0x840 |> fun b => b ++ List.replicate (3584 - 0x840) 0xFF)
    | none => d1

/-! ### Replay (R267 to R269) -/

/-- What cannot be read of the image, as codeword indices; replay turns it into the parts they hold. -/
structure Unread where
  header : Bool
  sram : Bool
  /-- Open-drove positions in the image whose accumulators are lost. -/
  accs : List Nat
  /-- Unit positions whose both spare codewords are lost. -/
  spares : List Nat
  /-- Unit position and codeword of lost data codewords. -/
  data : List (Nat × Nat)
  deriving DecidableEq, Repr

/-- Reads the lost indices of an image of `units` units (Table 9-7). -/
def unreadOf (k units ncw : Nat) (lost : Nat → Bool) : Unread :=
  let ub := 65 + 48 * (k + 1) * 64
  { header := lost 0,
    sram := (List.range 64).any (fun j => lost (1 + j) && lost (ncw - 64 + j)),
    accs := (List.range 64).filter (fun s => (List.range (48 * (k + 1))).any (fun j => lost (65 + 48 * (k + 1) * s + j))),
    spares := (List.range units).filter (fun u => lost (ub + 50 * u + 48) && lost (ub + 50 * u + 49)),
    data := (List.range units).flatMap (fun u => ((List.range 48).filter (fun c => lost (ub + 50 * u + c))).map (fun c => (u, c))) }

/-- Places something in a stream's open drove, forming one or completing rows where that is needed. -/
def Dev.ensurePlaced (d : Dev) (stream : Nat) (put : Dev → Dev × Bool) : Nat → Dev × Bool
  | 0 => put d
  | n + 1 =>
    let r := put d
    if r.2 then r
    else
      let d1 := r.1.drove.droves.foldl (fun d e => d.rowComplete e.1) r.1
      let d2 := if (d1.droveFor .host stream).isSome then d1
        else (d1.formDrove stream .host).headerProgrammed d1.drove.serialNum
      d2.ensurePlaced stream put n
/-- Re-places the IUs and records of a journaled unit into the open drove of their stream, with their WSNs (R267 step 5). A lost data
codeword makes its IU raddle-marked zeros; a lost tombstone codeword loses its records (R268). -/
def Dev.replaceJournaled (d : Dev) (x : Drove) (u : UnitSt) (lostCw : List Nat) : Dev × Bool :=
  let parts := d.iuParts
  let ovf := ((u.cws.get? 47).map (fun c => c.data)).getD []
  u.cws.foldl (fun (acc : Dev × Bool) e =>
    let sp := e.2.spare
    if spKind sp = 1 then
      if lostCw.contains e.1 then
        ({ acc.1 with drove := { acc.1.drove with integrityLost := true } }.post 6 (slotObj (acc.1.unitSlot x u e.1)) 0 0x10 2, acc.2)
      else ((tombsOf e.2.data 0 x.stream).getD []).foldl (fun (a : Dev × Bool) t =>
        let p := a.1.ensurePlaced x.stream (fun d => d.placeTomb { t with at_ := none } .host) 3
        (p.1, a.2 && p.2)) acc
    else if spKind sp ≠ 0 ∨ e.1 % parts ≠ 0 ∨ spNsid sp = 0 ∨ !(acc.1.nvme.ns.get NsSt.init (spNsid sp)).exists_
        ∨ acc.1.iuCount (spNsid sp) ≤ spLiu sp then acc
    else
      let gone := (List.range parts).any (fun p => lostCw.contains (e.1 + p))
        || (u.metaCw && lostCw.contains 47 && (acc.1.nvme.ns.get NsSt.init (spNsid sp)).lbaf == 1)
      let data := if gone then zeros (4096 * parts) else (List.range parts).flatMap (fun p => padTo 4096 (u.cws.get padCw (e.1 + p)).data)
      let hm := (List.range parts).flatMap (fun p =>
        metaOf (u.cws.get padCw (e.1 + p)).spare (if u.metaCw then ovf else zeros 4096) (e.1 + p))
      let p := acc.1.ensurePlaced x.stream (fun d => d.placeIu
        { nsid := spNsid sp, liu := spLiu sp, wsn := spWsn sp, data := data, hmeta := hm, marked := e.2.marked,
          raddle := gone || bitOf (spTag sp) 6, stream := x.stream, use := .host, pen := none, onlyIf := none }) 3
      let q := if gone && p.2 then p.1.placedMark (p.1.iuBase (spNsid sp) + spLiu sp) else p.1
      let d1 := if gone then { q with drove := { q.drove with replayRaddled := true,
                                                                  integrityNs := addOnce (spNsid sp) q.drove.integrityNs } } else q
      (d1, acc.2 && p.2)) (d, true)
/-- Copies the IUs of a row's data members that have program success (R269). -/
def Dev.copyRow (d : Dev) (bad : List Nat) (x : Drove) (r : Nat) : Dev :=
  x.dataIdx.foldl (fun d i =>
    let m := x.member i
    if x.absent r i ∨ (d.unit? x.serial r i).isSome then d
    else (List.range 48).foldl (fun d k =>
      let key := d.unitKey m.die m.grp r k
      let cw := d.memberOrBuilt bad x i r k
      match cw with
      | some c =>
        if spKind c.2 ≠ 0 ∨ spTag c.2 = 0xFF ∨ spTag c.2 / 16 % 4 ≠ 0 ∨ spNsid c.2 = 0 then d
        else
          let got := d.readIu bad key
          let p := d.ensurePlaced x.stream (fun d => d.placeIu
            { nsid := spNsid c.2, liu := spLiu c.2, wsn := spWsn c.2, data := (got.map (fun y => y.1)).getD (zeros (4096 * d.iuParts)),
              hmeta := (got.map (fun y => y.2.1)).getD (zeros (64 * d.iuParts)), marked := false,
              raddle := got.isNone || bitOf (spTag c.2) 6, stream := x.stream, use := .host, pen := none, onlyIf := none }) 3
          if got.isNone && !bitOf (spTag c.2) 6 && p.2 then p.1.placedMark (p.1.iuBase (spNsid c.2) + spLiu c.2) else p.1
      | none => d) d) d
/-- END_ROW of the row before a row. -/
def rowBefore (r : Nat) : Nat := if r = 0 then 0xFFFF else r - 1
/-- Replay acts on a drove of the journal and its units (R269). `lostAcc`: the accumulators of its row cannot be read. -/
def Dev.replayDrove (d : Dev) (bad : List Nat) (x : Drove) (us : List (UnitSt × List Nat)) (lostAcc : Bool) : Dev :=
  let cutData := us.filter (fun u => u.1.issued && u.1.member < 30)
  let cutPar := us.filter (fun u => u.1.issued && 30 ≤ u.1.member)
  if cutData = [] ∧ cutPar = [] ∧ !lostAcc then
    -- not Sealed: units never issued are programmed at their own slots, the drove continues
    us.foldl (fun d u =>
      let u1 := { u.1 with issued := false }
      if u1.folded then
        match d.drv? x.serial with
        | some y => (d.setUnit u1).issueUnit y u1
        | none => d
      else (d.setUnit u1).modDrove x.serial (fun y => { y with keys := y.keys.set (u1.row * 32 + u1.member) u1.keyslot })) d
  else
    let r := x.nextRow
    -- units of the row in progress leave the accumulators; data that cannot be read makes the row's parity unusable
    let inRow := us.filter (fun u => u.1.member < 30 && u.1.row == r && u.1.folded)
    let lost := lostAcc || inRow.any (fun u => u.2 != [])
    let x1 := if lost then x else inRow.foldl (fun (y : Drove) u => y.fold u.1) x
    let gone := x.active.filter (fun i => inRow.any (fun u => u.1.member == i) || !x.rowDone.contains i)
    let narrowed := fun (y : Drove) (i e ms : Nat) => { y with members := y.members.set i { y.member i with mstate := ms, endRow := e } }
    let x2 := gone.foldl (fun y i => narrowed y i (rowBefore r) 3) x1
    -- cut parity units
    let x3 := cutPar.foldl (fun (y : Drove) u => narrowed y u.1.member (rowBefore u.1.row) 3) x2
    let x4 := if lost then x3.parityIdx.foldl (fun (y : Drove) i => narrowed y i (rowBefore r) 3) x3 else x3
    let present := x4.active.filter (fun i => x.rowDone.contains i)
    let x5 := { x4 with state := 6, slot := none }
    let d1 := d.setDrove x5
    -- the row's parity, when it still has members
    let d2 := if lost ∨ present = [] then d1
      else
        let d3 := x5.parityActive.foldl (fun d i => d.issueUnit x5 (x5.parityUnit i)) d1
        let chans := (x.dataIdx ++ x.parityIdx).map (fun i => (x.member i).die / 32)
        let d4 := match d3.lambFree chans with
          | some s => d3.putLamb s { serial := x.serial, row := r, gen := x5.gen, parity := (List.range 48).map (fun k => (k, x5.accL.get (zeros 4128) k)),
                                     spares := d3.rowSpares x5 r, headers := [], released := false }
          | none => d3
        d4.setDrove { x5 with nextRow := r + 1, accP := [], accQ := [], accL := [] }
    let d5 := d2.writeHeader x.serial
    -- parity units never issued are programmed at their own slots; data units are re-placed
    let d6 := us.foldl (fun d u =>
      if 30 ≤ u.1.member then (if u.1.issued then d else (d.setUnit { u.1 with issued := false }).issueUnit x5 { u.1 with issued := false })
      else (d.replaceJournaled x u.1 u.2).1) d5
    let rows := cutPar.foldl (fun l u => addOnce u.1.row l) (if lost then [r] else [])
    rows.foldl (fun d r => d.copyRow bad x5 r) d6
/-- Replays an image: counters, open droves, units. `lost` says which of its codewords are unreadable in both copies. -/
def Dev.replayImage (d : Dev) (bad : List Nat) (img : JImage) (lost : Nat → Bool) : Dev :=
  let ncw := imageLen d.parityK img.units.length img.lambs.length
  let un := unreadOf d.parityK img.units.length ncw lost
  if un.sram then { d with drove := { d.drove with replayLost := true, integrityLost := true, replayDone := true } }
  else
    let up := fun (a b : Nat) => if un.header then a else Nat.max a b
    let d1 := { d with drove := { d.drove with wsn := up d.drove.wsn img.wsnNext, closeNum := up d.drove.closeNum img.closeNext,
                                               serialNum := up d.drove.serialNum img.serialNext, replayDone := true } }
    let d2 := img.droves.foldl (fun d x => d.setDrove (d.failMembers x)) d1
    let idx := (List.range img.units.length).map (fun j => (j, img.units.getD j (UnitSt.new 0 0 0 0)))
    let excl := img.units.flatMap (fun u => match d2.drv? u.serial with
      | some x => if u.issued then (List.range 48).map (fun k => d2.unitSlot x u k) else []
      | none => [])
    let named := idx.filter (fun e => !un.spares.contains e.1)
    let d3 := { d2 with drove := { d2.drove with replayExcl := excl, integrityLost := d2.drove.integrityLost || un.spares != [] } }
    let d4 := (List.range img.droves.length).foldl (fun d s => match img.droves[s]? with
      | none => d
      | some x =>
        let us := (named.filter (fun e => e.2.serial == x.serial)).map (fun e => (e.2, (un.data.filter (fun y => y.1 == e.1)).map (fun y => y.2)))
        d.replayDrove bad (d.failMembers x) us (un.accs.contains (x.slot.getD s))) d3
    let d5 := d4.drove.droves.foldl (fun d e => d.pumpDrove e.1) d4
    { d5 with drove := { d5.drove with replayUnits := d5.drove.units.map (fun u => (u.serial, u.row, u.member)) } }
/-- The drove engine starts clean for a boot: what staging and its SRAM held is gone. -/
def Dev.replayReset (d : Dev) : Dev :=
  { d with drove := { d.drove with droves := [], units := [], tombs := [], stopped := false, replayRaddled := false, replayLost := false,
                                   replayFromB := 0, replayExcl := [], replayUnits := [], cycles := [], passes := [], recon := [],
                                   dumpSeq := d.ilu.descs.foldl (fun m x => Nat.max m x.seq) d.drove.dumpSeq } }
/-- JOURNAL_REPLAY: from the kept journal of a warm reset, or from the newest dump not consumed, with the codewords of each copy that do not
decode; without either there is nothing to replay. Then the rebuild may begin. -/
def Dev.journalReplay (d : Dev) (badA badB bad : List Nat) : Dev :=
  if d.mapc.rbPhase ≠ 1 then d
  else
    let d0 := { d.replayReset with mapc := { d.mapc with rbPhase := 2 } }
    match d.drove.fixed with
    | some img =>
      let r := (d0.loadMedia bad).replayImage bad img (fun _ => false)
      { r with drove := { r.drove with fixed := none } }
    | none =>
      match d.ilu.newestDesc with
      | none => d0.loadMedia bad
      | some x =>
        match d.drove.dumps.get? x.seq with
        | none => d0.loadMedia bad
        | some img =>
          let a := fun i => x.statusA == 2 || badA.contains i
          let b := fun i => x.statusB == 2 || badB.contains i
          let fromB := ((List.range x.ncw).filter (fun i => a i && !b i)).length
          let d1 := (d0.norFlag (descAddr x.slot + 0xFF0)).loadMedia bad
          ({ d1 with drove := { d1.drove with replayFromB := sat 0xFFFF fromB } }).replayImage bad img (fun i => a i && b i)
/-- JOURNAL_REPLAY: image codewords unreadable in copies A and B, and media slots that do not decode. -/
def execJournalReplay (badA badB : List (BitVec 16)) (bad : List (BitVec 38)) (s : State) : Out :=
  s.apply fun d => d.journalReplay (badA.map BitVec.toNat) (badB.map BitVec.toNat) (bad.map BitVec.toNat)
/-- A dump block is erased, which the log records and counts (R267 step 6, R286); its BEGIN and END go together (DESIGN CHOICE, assumption log
59). -/
def Dev.dumpErased (d : Dev) (die g : Nat) : Dev :=
  let n := d.blkErases die g + 1
  ((d.logRec 1 0 die g 0 0).logRec 2 0 die g n 0).blkPut die g 0xC 4 n
/-- REPLAY_CONSUMED: every re-placed unit and parity unit has program success; the descriptors not consumed are marked, their dumps erased. -/
def Dev.replayConsumed (d : Dev) : Dev :=
  let waiting := d.drove.replayUnits.any (fun r => (d.unit? r.1 r.2.1 r.2.2).any (fun u => !u.success))
  if !d.drove.replayDone ∨ waiting ∨ d.drove.stopped then d
  else
    let ds := d.ilu.descs.filter (fun x => !x.consumed && decide (x.seq ≤ d.drove.dumpSeq))
    let d1 := ds.foldl (fun (d : Dev) x => (d.dumpExtents false x.seq ++ d.dumpExtents true x.seq).foldl (fun d b => d.dumpErased b.1 b.2)
      (d.norFlag (descAddr x.slot + 0xFF8))) d
    let d2 := { d1 with drove := { d1.drove with dumps := [], gensHeld := 0, replayUnits := [] } }
    -- sectors of the descriptor ring with no erased slot and every descriptor consumed are erased by V firmware
    (List.range 8).foldl (fun d s =>
      let slots := (List.range 16).map (fun j => s * 16 + j)
      if slots.all (fun i => match d.ilu.descAt i with
        | some x => x.consumed
        | none => !(d.ilu.read (descAddr i) 4096).all (· == 0xFF)) then d.norErase (848 + s) else d) d2
/-- REPLAY_CONSUMED. -/
def execReplayConsumed (s : State) : Out := s.apply Dev.replayConsumed

end Sys2Proof.Machine
end

