-- ==== Sys2Proof/Machine/Gc.lean ====
section
/-! DEFINITION. Garbage collection, wear levelling and retirement (R273 to R285, R291 to R296, R418). -/

namespace Sys2Proof.Machine

/-! ### Key generations held by blocks (R418) -/

/-- The namespace and generation a spare's IU was written under. -/
def Dev.spareGen (d : Dev) (sp : Bytes) : Option (Nat × Nat) :=
  if spTag sp = 0xFF ∨ spKind sp ≠ 0 ∨ spNsid sp = 0 then none
  else ((d.keyBind (spNsid sp)).genFor (spWsn sp)).map (fun g => (spNsid sp, g.1))
/-- The generations a member's block holds, in staging or on the media. -/
def Dev.blockGens (d : Dev) (x : Drove) (i : Nat) : List (Nat × Nat) :=
  let m := x.member i
  let staged := (d.drove.units.filter (fun u => u.serial == x.serial && u.member == i)).flatMap (fun u => u.cws.map (fun e => e.2.spare))
  let media := (d.media.nand.filter (fun e => e.1 / 2 ^ 26 == m.die && (d.unslot e.1).1 == m.grp)).map (fun e => e.2.spare)
  (staged ++ media).foldl (fun l sp => match d.spareGen sp with
    | some g => addOnce g l
    | none => l) []
/-- Member blocks of droves not Released that hold a unit under a generation. -/
def Dev.genBlocks (d : Dev) (nsid j : Nat) : Nat :=
  (d.drove.droves.flatMap (fun e => if e.2.state = 7 then [] else (e.2.dataIdx.filter (fun i => (d.blockGens e.2 i).contains (nsid, j))))).length
/-- The drove holds units of a retired generation. -/
def Dev.holdsRetired (d : Dev) (x : Drove) : Bool :=
  x.dataIdx.any (fun i => (d.blockGens x i).any (fun g => ((d.keyBind g.1).gens.get? g.2).any (fun k => k.gstate == 2)))

/-! ### Victims (R279, R280) -/

/-- The drove may be a victim: Closed or Sealed, no cycle's victim, no destination of a copy whose victim has not passed step 3. -/
def Dev.eligible (d : Dev) (x : Drove) : Bool :=
  (x.state == 5 || x.state == 6) && !(d.drove.cycles.any (fun c => c.victim == x.serial))
    && !(d.drove.cycles.any (fun c => decide (c.step ≤ 3) && c.dests.contains x.serial))
/-- A member of the drove awaits retirement. -/
def Dev.awaitsRetire (d : Dev) (x : Drove) : Bool :=
  (x.dataIdx ++ x.parityIdx).any (fun i => let m := x.member i
    (d.drove.retireMarks.get? (m.die * 4096 + m.grp)).isSome && d.blkState m.die m.grp != 4)
/-- VALID and WRITTEN of a drove's data members. -/
def Dev.validSum (d : Dev) (x : Drove) : Nat := (x.dataIdx.map (fun i => d.blkValid (x.member i).die (x.member i).grp)).foldl (· + ·) 0
/-- WRITTEN of a drove's data members. -/
def Dev.writtenSum (d : Dev) (x : Drove) : Nat := (x.dataIdx.map (fun i => d.blkWritten (x.member i).die (x.member i).grp)).foldl (· + ·) 0
/-- The score of R280, shifted up by 500 so that it is not negative. -/
def Dev.score (d : Dev) (x : Drove) : Nat :=
  let w := d.writtenSum x
  let v := if w = 0 then 0 else 1000 * d.validSum x / w
  let age := Nat.min ((d.now - x.closedAt) / 3600000000000) 168
  v + 500 - d.cfgv 0x012 0x40 * age / 168
/-- Mean ERASES of a drove's blocks, in hundredths. -/
def Dev.meanErases (d : Dev) (x : Drove) : Nat :=
  let is := x.dataIdx ++ x.parityIdx
  if is = [] then 0 else 100 * (is.map (fun i => d.blkErases (x.member i).die (x.member i).grp)).foldl (· + ·) 0 / is.length
/-- The lowest by a measure, the earlier one on a tie. -/
def lowestBy (f : Drove → Nat) (l : List Drove) : Option Drove :=
  l.foldl (fun best x => match best with
    | none => some x
    | some b => if f x < f b then some x else some b) none
/-- The next victim of a group, and whether it is a wear victim. Throttle level 2 pauses the greedy victims of an idle group (R277, R486). -/
def Dev.chooseVictim (d : Dev) (grp : Nat) : Option (Drove × Bool) :=
  let all := (d.drove.droves.map (fun e => e.2)).filter (fun x => x.group == grp && d.eligible x)
  let closed := all.filter (fun x => x.state == 5)
  let f := d.freePm grp
  let idle := decide (d.drove.lastHostAt.get 0 grp + d.cfgv 0x012 0x14 * 1000000 ≤ d.now) && decide (d.thm.level < 2)
  let low := d.lowWsn
  match all.find? (fun x => x.state == 6) with
  | some x => some (x, false)
  | none => match all.find? (fun x => d.awaitsRetire x || d.holdsRetired x) with
    | some x => some (x, false)
    | none =>
      let t := if d.cfgv 8 0x12 * 3 / 4 < d.drove.tombs.length then
          all.find? (fun x => x.dataIdx.any (fun i => d.blkMin (x.member i).die (x.member i).grp == low)) else none
      match t with
      | some x => some (x, false)
      | none =>
        let w := if d.drove.wearOn.get false grp then lowestBy d.meanErases closed else none
        match w with
        | some x => some (x, true)
        | none =>
          if d.cfgv 0x012 0x10 ≤ f ∧ !idle then none
          else
            let cap := d.cfgv 0x012 0x13
            let ok := closed.filter (fun x => decide (f < d.cfgv 0x012 0x11)
              || decide (1000 * d.validSum x ≤ cap * d.writtenSum x))
            (lowestBy d.score ok).map (fun x => (x, false))
/-- GC_CYCLE_START: at most two cycles of a group at once, and while background work is allowed (R461). -/
def Dev.cycleStart (d : Dev) (grp : Nat) : Dev :=
  if d.drove.stopped ∨ d.mapc.rbPhase ≠ 0 ∨ !d.cyclesOn ∨ 2 ≤ (d.drove.cycles.filter (fun c => c.group == grp)).length then d
  else match d.chooseVictim grp with
    | none => d
    | some (x, wear) =>
      let c : GcCycle := { group := grp, victim := x.serial, step := 2, copies := [], dests := [], epoch := 0, wear := wear }
      { d with drove := { d.drove with cycles := d.drove.cycles ++ [c] } }
/-- GC_CYCLE_START in a group. -/
def execGcCycleStart (grp : Fin 8) (s : State) : Out := s.apply fun d => d.cycleStart grp.val

/-! ### Copies (R281 to R283) -/

/-- The cycle of a victim. -/
def Dev.cycle? (d : Dev) (serial : Nat) : Option GcCycle := d.drove.cycles.find? (fun c => c.victim == serial)
/-- Changes the cycle of a victim. -/
def Dev.modCycle (d : Dev) (serial : Nat) (f : GcCycle → GcCycle) : Dev :=
  { d with drove := { d.drove with cycles := d.drove.cycles.map (fun c => if c.victim = serial then f c else c) } }
/-- The entries of a drove that still name its slots: member, slot key and spare. -/
def Dev.liveEntries (d : Dev) (bad : List Nat) (x : Drove) : List (Nat × Nat × Bytes) :=
  x.dataIdx.flatMap (fun i => (d.memberEntries bad x i).filterMap (fun e =>
    let m := x.member i
    let key := d.unitKey m.die m.grp e.1 e.2.1
    if spKind e.2.2 = 0 ∧ entNames (d.mapPeek (d.iuBase (spNsid e.2.2) + spLiu e.2.2)) key ∧ (d.nvme.ns.get NsSt.init (spNsid e.2.2)).exists_
    then some (i, key, e.2.2) else none))
/-- The tombstone codewords of a drove that hold live records. -/
def Dev.liveTombs (d : Dev) (x : Drove) : List Nat :=
  x.dataIdx.flatMap (fun i => let m := x.member i
    d.drove.tombs.foldl (fun l t => match t.at_ with
      | some k => if k / 2 ^ 26 = m.die ∧ (d.unslot k).1 = m.grp then addOnce k l else l
      | none => l) [])
/-- COPY_BATCH: up to 64 IUs of the victim are copied, then its tombstones; with nothing left the cycle goes to step 3. -/
def Dev.copyBatch (d : Dev) (serial : Nat) (bad : List Nat) : Dev :=
  match d.drv? serial, d.cycle? serial with
  | some x, some c =>
    if c.step ≠ 2 ∨ d.drove.stopped then d
    else
      let use := if c.wear then DroveUse.wear else DroveUse.gc
      let es := (d.liveEntries bad x).take 64
      if es != [] then
        (es.foldl (fun (acc : Dev × Bool) e =>
          if !acc.2 then acc
          else
            let diu := acc.1.iuBase (spNsid e.2.2) + spLiu e.2.2
            let r := acc.1.copyIu bad use x.stream e.2.1 (spWsn e.2.2) (spLiu e.2.2) (spNsid e.2.2) e.2.1 false
            if !r.2 then r
            else
              let k := entKey (r.1.mapPeek diu)
              let dst := ((r.1.ownerOf (k / 2 ^ 26) (r.1.unslot k).1).map (fun o => o.1.serial)).getD 0
              if k = e.2.1 then r
              else (r.1.modCycle serial (fun c => { c with copies := c.copies ++ [{ dst := dst, dstKey := k, srcKey := e.2.1, diu := diu }],
                                                           dests := addOnce dst c.dests }), true)) (d, true)).1
      else
        let r := (d.liveTombs x).foldl (fun (acc : Dev × Bool) k => if acc.2 then acc.1.copyTombs bad use x.stream k else acc) (d, true)
        let dests := (r.1.openDroves.filter (fun y => decide (y.state ≤ 2) && r.1.drove.units.any (fun u => u.serial == y.serial))).map (fun y => y.serial)
        if r.2 then r.1.modCycle serial (fun c => { c with step := 3, dests := if d.liveTombs x = [] then c.dests else dests.foldl (fun l s => addOnce s l) c.dests })
        else r.1
  | _, _ => d
/-- COPY_BATCH of a victim, with the slots that do not decode. -/
def execCopyBatch (serial : W32) (bad : List (BitVec 38)) (s : State) : Out :=
  s.apply fun d => d.copyBatch serial.toNat (bad.map BitVec.toNat)
/-- GC_DESTINATIONS_CLOSED: every destination drove is Closed; the victim records the read epoch. -/
def Dev.destsClosed (d : Dev) (serial : Nat) : Dev :=
  match d.cycle? serial with
  | none => d
  | some c =>
    if c.step = 3 ∧ c.dests.all (fun s => ((d.drv? s).map (fun x => x.state == 5 || x.state == 7)).getD true) then
      d.modCycle serial (fun c => { c with step := 4, epoch := d.drove.epoch })
    else d
/-- GC_DESTINATIONS_CLOSED. -/
def execGcDestinationsClosed (serial : W32) (s : State) : Out := s.apply fun d => d.destsClosed serial.toNat

/-! ### Read epochs (R285) -/

/-- Outstanding reads of an epoch. -/
def Dev.epochCount (d : Dev) (e : Nat) : Nat := d.drove.epochCounts.get 0 (e % 16)
/-- A read takes the current epoch. -/
def Dev.epochTake (d : Dev) : Dev × Nat :=
  ({ d with drove := { d.drove with epochCounts := d.drove.epochCounts.modify 0 (d.drove.epoch % 16) (· + 1) } }, d.drove.epoch)
/-- A read of an epoch ends. -/
def Dev.epochDrop (d : Dev) (e : Nat) : Dev :=
  { d with drove := { d.drove with epochCounts := d.drove.epochCounts.modify 0 (e % 16) (· - 1) } }
/-- READ_EPOCH_ADVANCE: held back while the epoch 15 behind is counted. -/
def Dev.epochAdvance (d : Dev) : Dev :=
  if d.epochCount (d.drove.epoch + 1) ≠ 0 then d else { d with drove := { d.drove with epoch := d.drove.epoch + 1 } }
/-- READ_EPOCH_ADVANCE. -/
def execReadEpochAdvance (s : State) : Out := s.apply Dev.epochAdvance
/-- The counts of an epoch and of every epoch before it are zero. -/
def Dev.epochDrained (d : Dev) (e : Nat) : Bool :=
  decide (e + 16 ≤ d.drove.epoch) || (List.range 16).all (fun j => decide (d.drove.epoch < j) || decide (e < d.drove.epoch - j) || d.epochCount (d.drove.epoch - j) == 0)
/-- READ_EPOCH_DRAINED: BEGIN records for every member block, RETIRE in its place for blocks marked for read errors; retired blocks and those
of declared dies are left. No cycle passes while a map repair is in progress (R330). -/
def Dev.epochPassed (d : Dev) (serial : Nat) : Dev :=
  match d.drv? serial, d.cycle? serial with
  | some x, some c =>
    if c.step ≠ 4 ∨ !d.epochDrained c.epoch ∨ d.repairsUsed ≠ 0 ∨ d.validSum x ≠ 0 then d
    else
      let d1 := (x.dataIdx ++ x.parityIdx).foldl (fun d i =>
        let m := x.member i
        if d.blkState m.die m.grp = 4 ∨ d.dieFailed m.die then d
        else match d.drove.retireMarks.get? (m.die * 4096 + m.grp) with
          | some r => d.retireBlock m.die m.grp r serial
          | none => d.beginErase m.die m.grp serial) d
      -- a member rebuild that has not switched is abandoned; its spare block is erased with the others (R312)
      let mine := d1.drove.passes.filter (fun p => p.serial == serial)
      let d2 := mine.foldl (fun d p => d.beginErase p.die p.grp serial) d1
      ({ d2 with drove := { d2.drove with passes := d2.drove.passes.filter (fun p => p.serial != serial) } }).modCycle serial (fun c => { c with step := 6 })
  | _, _ => d
/-- READ_EPOCH_DRAINED. -/
def execReadEpochDrained (serial : W32) (s : State) : Out := s.apply fun d => d.epochPassed serial.toNat

/-! ### Erases and release (R281, R289, R295) -/

/-- BLOCK_ERASE: a block in state 0x01 whose BEGIN record is on flash is erased by a work item (R33, R289); a free block, or a log block that may
be reused, without a BEGIN gets one first. A block of a Drover core that is quiesced waits. -/
def Dev.blockErase (d : Dev) (die g : Nat) : Dev :=
  let busy := d.media.jobs.any (fun j => match j.kind with
    | .erase x y _ => x == die && y == g
    | _ => false)
  if d.drove.stopped ∨ !d.diePresent die ∨ d.dieFailed die ∨ d.dieGroups die ≤ g ∨ busy then d
  else if d.blkState die g ≠ 1 ∧ !(d.blkState die g == 0 && d.logReusable die g) then d
  else if (d.drove.begunBlks.get? (die * 4096 + g)).isNone then (if d.blkNamed die g then d else d.beginErase die g 0)
  else if !d.begun die g then d
  else
    let w : WorkItem := { kind := 4, flags := 2, die := die, block := 4 * g, page := 0, planes := 0xF, keyslot := 0, buf := 0, len := 0,
                          tweak := 0, stage := 0, ticket := 0 }
    (d.addJob w (.erase die g (d.drove.begunBlks.get 0 (die * 4096 + g))) none).1
/-- BLOCK_ERASE of a block. -/
def execBlockErase (die : DieId) (g : BitVec 12) (s : State) : Out := s.apply fun d => d.blockErase die.toNat g.toNat
/-- The tombstone records of a block are live no more: it is erased, or its drove is released (R232). -/
def Dev.dropTombs (d : Dev) (die g : Nat) : Dev :=
  { d with drove := { d.drove with tombs := d.drove.tombs.filter (fun t => match t.at_ with
    | some k => !(k / 2 ^ 26 == die && (d.unslot k).1 == g)
    | none => true) } }
/-- The erase of a block has ended: END with the count, or FAIL and RETIRE with reason 0x02. Another status leaves it erase-before-use. -/
def Dev.eraseResult (d : Dev) (die g serial status : Nat) : Dev :=
  let n := Nat.min (d.blkErases die g + 1) 0xFFFFFFFF
  let d1 := { d with drove := { d.drove with begunBlks := d.drove.begunBlks.erase (die * 4096 + g) } }
  if status = 0 then (((d1.dropTombs die g).blkPut die g 0 1 0).blkPut die g 0xC 4 n).logRec 2 0 die g n serial
  else if status = 5 then (((d1.blkPut die g 0xC 4 n).logRec 3 0 die g n serial).retireBlock die g 2 serial)
  else d1
/-- DROVE_RELEASE: every member block is erased, retired or on a declared die; the header is written Released. -/
def Dev.droveRelease (d : Dev) (serial : Nat) : Dev :=
  match d.drv? serial, d.cycle? serial with
  | some x, some c =>
    let done := (x.dataIdx ++ x.parityIdx).all (fun i => let m := x.member i
      d.dieFailed m.die || d.blkState m.die m.grp == 0 || d.blkState m.die m.grp == 4)
    if c.step ≠ 6 ∨ !done ∨ d.drove.stopped then d
    else
      let d0 := (x.dataIdx ++ x.parityIdx).foldl (fun d i => d.dropTombs (x.member i).die (x.member i).grp) d
      let d1 := (d0.modDrove serial (fun y => { y with state := 7 })).writeHeader serial
      ({ d1 with drove := { d1.drove with cycles := d1.drove.cycles.filter (fun c => c.victim != serial) } }).releaseLamb serial
  | _, _ => d
/-- DROVE_RELEASE. -/
def execDroveRelease (serial : W32) (s : State) : Out := s.apply fun d => d.droveRelease serial.toNat

/-! ### Retirement (R293, R294) and wear (R291) -/

/-- RETIRE: a block handed over after a program failure is collected alone, its valid IUs copied, and then gets its RETIRE record; so does a
marked lamb, dump, log or free block. A marked member of a Closed drove waits for its drove's cycle. -/
def Dev.retire (d : Dev) (die g : Nat) (bad : List Nat) : Dev :=
  match d.drove.retireMarks.get? (die * 4096 + g) with
  | none => d
  | some reason =>
    if d.blkState die g = 4 ∨ d.drove.stopped then d
    else match d.ownerOf die g with
      | none => d.retireBlock die g reason 0
      | some (x, i) =>
        if (x.member i).mstate ≠ 3 then d
        else if 30 ≤ i then d.retireBlock die g reason x.serial
        else
          let r := d.copyMember bad .gc false x i (d.memberEntries bad x i)
          if r.2 then r.1.retireBlock die g reason x.serial else r.1
/-- RETIRE of a block, with the slots that do not decode. -/
def execRetire (die : DieId) (g : BitVec 12) (bad : List (BitVec 38)) (s : State) : Out :=
  s.apply fun d => d.retire die.toNat g.toNat (bad.map BitVec.toNat)
/-- WEAR_LEVELLING: it starts when a group's spread exceeds WEAR_SPREAD and stops at three quarters of it. -/
def Dev.wearLevel (d : Dev) (grp : Nat) : Dev :=
  let sp := d.wearSpread grp
  let lim := d.cfgv 0x011 1
  let on := if lim < sp then true else if sp ≤ lim * 3 / 4 then false else d.drove.wearOn.get false grp
  { d with drove := { d.drove with wearOn := if on then d.drove.wearOn.set grp true else d.drove.wearOn.erase grp } }
/-- WEAR_LEVELLING in a group. -/
def execWearLevelling (grp : Fin 8) (s : State) : Out := s.apply fun d => d.wearLevel grp.val

end Sys2Proof.Machine
end

