-- ==== Sys2Proof/Machine/Cfg.lean ====
section
/-! DEFINITION. Configuration fields, transactions, the commit, and the Crook (R106 to R118, R124 to R126, R542). -/

namespace Sys2Proof.Machine

/-! ### Fields (R97, R98, R542) -/

/-- The field of an ID on this device. -/
def Dev.field (d : Dev) (id : Nat) : Option FieldInfo := fieldInfo d.pins.bifur id
/-- The fields that a condition across fields binds with this one. -/
def acrossIds (id : Nat) : List Nat :=
  let b := cfgBlock id
  let f := id % 0x100000
  if b = 0x012 ∧ 0x10 ≤ f ∧ f ≤ 0x12 then [0x10, 0x11, 0x12].map (cfgId b)
  else if b = 0x013 ∧ 1 ≤ f ∧ f ≤ 3 then [1, 2, 3].map (cfgId b)
  else if 0x600 ≤ b ∧ b ≤ 0x67F ∧ f = 2 then (List.range 128).map (fun k => cfgId (0x600 + k) 2)
  else if b = 7 ∧ 0x10 ≤ f ∧ f ≤ 0x13 then [0x10, 0x11, 0x12, 0x13].map (cfgId b)
  else if b = 7 ∧ 0x20 ≤ f ∧ f ≤ 0x2F then (List.range 16).map (fun k => cfgId b (0x20 + k))
  else []
/-- Bits of a 128-bit channel mask. -/
def maskOnes (m : Nat) : Nat := countOnes 128 m
/-- Channel dies a mask touches. -/
def maskDies (m : Nat) : List Nat := (List.range 4).filter (fun k => (m >>> (32 * k)) % 2 ^ 32 != 0)
/-- The condition across fields holds for the values a reader gives. -/
def acrossOk (get : Nat → Nat) (id : Nat) : Bool :=
  let b := cfgBlock id
  let f := id % 0x100000
  let g := fun k => get (cfgId b k)
  if b = 0x012 then decide (g 0x12 ≤ g 0x11) && decide (g 0x11 ≤ g 0x10)
  else if b = 0x013 then decide (g 1 < g 2) && decide (g 2 < g 3)
  else if 0x600 ≤ b then decide (((List.range 128).map (fun k => get (cfgId (0x600 + k) 2))).foldl (· + ·) 0 ≤ 16320)
  else if f < 0x20 then
    let a := g 0x10 + g 0x11 * 2 ^ 64
    let c := g 0x12 + g 0x13 * 2 ^ 64
    let size := fun m => decide (16 ≤ maskOnes m) && decide (maskOnes m ≤ 32)
    size a && size c && decide (a &&& c = 0) && !((maskDies a).any (maskDies c).contains)
  else
    let ms := (List.range 8).map (fun k => g (0x20 + 2 * k) + g (0x21 + 2 * k) * 2 ^ 64)
    (List.range 8).all (fun i => (List.range 8).all (fun j => i == j || decide (ms.getD i 0 &&& ms.getD j 0 = 0)))
/-- A value is outside a field's limits (R98, R304, R319, R542), given what the transaction has staged. -/
def Dev.outOfLimits (d : Dev) (staged : Tab Word) (i : FieldInfo) (id v : Nat) : Bool :=
  let b := cfgBlock id
  let f := id % 0x100000
  let get := fun k => if k = id then v else match staged.get? k with
    | some w => w.toNat
    | none => d.committed k
  decide (v < i.lo) || decide (i.hi < v)
    || (0x100 ≤ b && b ≤ 0x17F && f == 3 && (List.range 32).any (fun x => bitOf (d.committed id) x && !bitOf v x &&
          d.drove.droves.any (fun e => e.2.state != 7 && e.2.members.any (fun m => m.2.die == (b - 0x100) * 32 + x && m.2.mstate != 0))))
    || (b == 0x014 && 0x100 ≤ f && decide (v &&& (d.chan (f - 0x100)).diemap ≠ v))
    || (acrossIds id != [] && !acrossOk get id)

/-! ### Transactions (R99 to R101, R113, R114) -/

/-- The open transactions of a context, oldest first. -/
def CfgSt.openOf (c : CfgSt) (x : TxCtx) : List Txn := c.txns.filter (fun t => t.ctx == x && t.phase == TxPhase.opened)
/-- TXH of a context: its newest open transaction's handle, or 0. -/
def CfgSt.txh (c : CfgSt) (x : TxCtx) : Nat := (((c.openOf x).getLast?).map (fun t => t.handle)).getD 0
/-- A transaction by handle. -/
def Dev.txn (d : Dev) (h : Nat) : Option Txn := d.cfg.txns.find? (fun t => t.handle == h)
/-- Changes a transaction. -/
def Dev.modTxn (d : Dev) (h : Nat) (f : Txn → Txn) : Dev :=
  { d with cfg := { d.cfg with txns := d.cfg.txns.map (fun t => if t.handle = h then f t else t) } }
/-- Removes a transaction. -/
def Dev.dropTxn (d : Dev) (h : Nat) : Dev := { d with cfg := { d.cfg with txns := d.cfg.txns.filter (fun t => t.handle != h) } }
/-- The next handle after one: in sequence, skipping 0 and handles open, among the few that can be open. -/
def CfgSt.nextHandle (c : CfgSt) : Nat :=
  (((List.range 16).map (fun k => (c.lastHandle + k) % 65535 + 1)).find? (fun h => !c.txns.any (fun t => t.handle == h))).getD 1
/-- TXB: opens a transaction for a context; the handle, or 0 when eight are open. -/
def Dev.txBegin (d : Dev) (x : TxCtx) (ctrl : Option Nat) (budget : Nat) : Dev × Nat :=
  if 8 ≤ (d.cfg.txns.filter (fun t => t.phase == TxPhase.opened)).length then (d, 0)
  else
    let h := d.cfg.nextHandle
    let us := if budget = 0 then 10000 else Nat.min budget 1000000
    let t : Txn := { handle := h, ctx := x, ctrl := ctrl, pen := none, budgetUs := us, start := d.cfg.counter, staged := [], reads := [],
                     phase := .opened, order := 0, began := 0 }
    ({ d with cfg := { d.cfg with txns := d.cfg.txns ++ [t], lastHandle := h } }, h)
/-- Blocks a transaction touches. -/
def Txn.blocks (t : Txn) : List Nat := t.staged.foldl (fun l e => addOnce (cfgBlock e.1) l) []
/-- The class of a staged field. -/
def Dev.isQs (d : Dev) (id : Nat) : Bool := (d.field id).any (fun i => i.cls == FClass.qs)
/-- The field is persistent. -/
def Dev.isPs (d : Dev) (id : Nat) : Bool := (d.field id).any (fun i => i.ps)
/-- The commit needs the Crook (R125): it stages a PS field or a PWR field. -/
def Dev.needsCrook (d : Dev) (ids : List Nat) : Bool := ids.any (fun id => d.isPs id || cfgBlock id == 0x00A)
/-- The Crook allows the commit of a submitter; V firmware passes only while it is free. -/
def Dev.crookAllows (d : Dev) (ctrl : Option Nat) (ids : List Nat) : Bool :=
  !d.needsCrook ids || (match ctrl with
    | some c => d.holdsCrook c
    | none => d.crook.holder.isNone)
/-- Version of a field. -/
def Dev.version (d : Dev) (id : Nat) : Nat := d.cfg.versions.get 0 id

/-! ### Applying (R109 to R111, R116) -/

/-- Paddock whose state decides when a block applies its fields; none for blocks that apply at any time. -/
def blockPad (b : Nat) : Option Nat :=
  if 0x100 ≤ b ∧ b ≤ 0x17F then some (chanPad (b - 0x100))
  else if 0x010 ≤ b ∧ b ≤ 0x016 then some (corePad 4) else none
/-- The core that runs a block's work and is asked for its safe point on e9: a channel's Drover core, or Shepherd 3 for a policy. -/
def blockCore (b : Nat) : Option Nat :=
  if 0x100 ≤ b ∧ b ≤ 0x17F then some (droverOf (b - 0x100)) else if 0x010 ≤ b ∧ b ≤ 0x016 then some 4 else none
/-- The block can apply now. -/
def Dev.blockUp (d : Dev) (b : Nat) : Bool := match blockPad b with
  | some p => d.padOn p
  | none => true
/-- Member rebuilds for which a test holds are abandoned; their spare blocks are erased before any further use (R309, R313). -/
def Dev.dropPasses (d : Dev) (p : RebuildPass → Bool) : Dev :=
  let d1 := (d.drove.passes.filter p).foldl (fun d x => if d.dieFailed x.die then d else d.beginErase x.die x.grp x.serial) d
  { d1 with drove := { d1.drove with passes := d1.drove.passes.filter (fun x => !p x) } }
/-- A block runs with a new value of a field. -/
def Dev.applyField (d : Dev) (id v : Nat) : Dev :=
  let b := cfgBlock id
  let f := id % 0x100000
  let old := d.applied id
  let d1 := { d with cfg := { d.cfg with applied := d.cfg.applied.set id (BitVec.ofNat 64 v) } }
  if 0x100 ≤ b ∧ b ≤ 0x17F ∧ f = 3 then d1.failMaskApplied (b - 0x100) old v
  else if b = 0x014 ∧ 0x100 ≤ f then d1.dropPasses (fun x => x.die / 32 == f - 0x100 && bitOf old (x.die % 32) && !bitOf v (x.die % 32))
  else if b = 0x00A then d1.retarget
  else if b = 0x00B then d1.applyFioKeep
  else d1
/-- Applies every field of a table. -/
def Dev.applyAll (d : Dev) (t : Tab Word) : Dev := t.foldl (fun d e => d.applyField e.1 e.2.toNat) d
/-- A channel that is up trains at the new rate when a commit of MAX_RATE or EXT_ENABLE is applied, once for both (R188). That the training
passes is a choice (DESIGN CHOICE, assumption log 57). -/
def Dev.trainFor (d : Dev) (t : Tab Word) : Dev := t.foldl (fun d e =>
  let b := cfgBlock e.1
  let f := e.1 % 0x100000
  if 0x100 ≤ b ∧ b ≤ 0x17F ∧ (f = 1 ∨ (f = 2 ∧ (t.get? (cfgId b 1)).isNone)) ∧ (d.chan (b - 0x100)).up = true then d.trainChan (b - 0x100) 0 else d) d
/-- The fields of a table that belong to a block. -/
def ofBlock (t : Tab Word) (b : Nat) : Tab Word := t.filter (fun e => cfgBlock e.1 == b)
/-- Ends a TXC: the core that stalls in it gets the outcome and goes on; the outcome counters move (Table 4-5). -/
def Dev.endTxc (d : Dev) (h outcome : Nat) : Dev :=
  let d1 := (List.range 41).foldl (fun d c => match (d.core c).run with
    | .inTxc rd hh => if hh = h then d.modCore c (fun k =>
        { k.setReg rd (BitVec.ofNat 64 outcome) with pc := k.pc + 8, instret := k.instret + 1, run := .running }) else d
    | _ => d) (d.dropTxn h)
  { d1 with cfg := { d1.cfg with conflicts := sat 0xFFFF (d1.cfg.conflicts + bit (outcome == 1)),
                                 drains := sat 0xFFFF (d1.cfg.drains + bit (outcome == 2)) } }
/-- Step 8: with every block applied the commit ends. -/
def Dev.endIfApplied (d : Dev) (h : Nat) : Dev :=
  match d.txn h with
  | some t => if t.phase = .applying [] then d.endTxc h 0 else d
  | none => d
/-- A FAIL_MASK bit that is cleared: BEGIN records for every block of the die (R304). -/
def Dev.beginReturned (d : Dev) (id v : Nat) : Dev :=
  let b := cfgBlock id
  if 0x100 ≤ b ∧ b ≤ 0x17F ∧ id % 0x100000 = 3 then
    (List.range 32).foldl (fun d x =>
      let die := (b - 0x100) * 32 + x
      if bitOf (d.committed id) x && !bitOf v x then (List.range (d.dieGroups die)).foldl (fun d g => d.beginErase die g 0) d else d) d
  else d
/-- Steps 6 and 7: the counter and the versions rise, the values are committed; QS fields apply, LV fields become due. -/
def Dev.commitPoint (d : Dev) (t : Txn) : Dev :=
  let n := d.cfg.counter + 1
  let d0 := t.staged.foldl (fun d e => d.beginReturned e.1 e.2.toNat) d
  let d1 := { d0 with cfg := { d0.cfg with
    counter := n,
    versions := t.staged.foldl (fun (v : Tab Nat) (e : Nat × Word) => v.set e.1 n) d0.cfg.versions,
    committed := t.staged.foldl (fun (v : Tab Word) (e : Nat × Word) => v.set e.1 e.2) d0.cfg.committed } }
  let qs : Tab Word := t.staged.filter (fun e => d.isQs e.1)
  let lv : Tab Word := t.staged.filter (fun e => !d.isQs e.1)
  let blocks := lv.foldl (fun (l : List Nat) (e : Nat × Word) => addOnce (cfgBlock e.1) l) []
  let d2 := (d1.applyAll qs).trainFor qs
  let d3 := { d2 with cfg := { d2.cfg with due := d2.cfg.due ++ blocks.map (fun b => (b, ofBlock lv b, t.handle)) } }
  let d4 := blocks.foldl (fun d b => match blockCore b with
    | some c => d.raiseE9 c
    | none => d) d3
  (d4.modTxn t.handle (fun t => { t with phase := .applying (blocks.filter d.blockUp) })).endIfApplied t.handle

/-! ### The commit (Table 4-2) -/

/-- Step 4 or, without a PS field, step 5 and the commit point. -/
def Dev.commitStep4 (d : Dev) (t : Txn) : Dev :=
  if t.staged.any (fun e => d.isPs e.1) then d.modTxn t.handle (fun t => { t with phase := .persisting })
  else if d.crookAllows t.ctrl t.staged.keys then d.commitPoint t
  else d.endTxc t.handle 3
/-- Steps 2 and 3: the Crook, the versions, then the drains. -/
def Dev.commitStep2 (d : Dev) (t : Txn) : Dev :=
  if !d.crookAllows t.ctrl t.staged.keys then d.endTxc t.handle 3
  else if (t.staged.keys ++ t.reads).any (fun id => decide (t.start < d.version id)) then d.endTxc t.handle 1
  else
    let qs := (t.staged.filter (fun e => d.isQs e.1)).foldl (fun l e => addOnce (cfgBlock e.1) l) []
    let left := qs.filter d.blockUp
    if left = [] then d.commitStep4 t
    else left.foldl (fun d b => match blockCore b with
      | some c => d.raiseE9 c
      | none => d) (d.modTxn t.handle (fun t => { t with phase := .draining left }))
/-- A commit in progress, or one that reached step 1 earlier, shares a block with this one. -/
def Dev.mustWait (d : Dev) (t : Txn) : Bool :=
  d.cfg.txns.any (fun u => u.handle != t.handle && u.blocks.any t.blocks.contains &&
    (match u.phase with
     | .opened => false
     | .waiting => decide (u.order < t.order)
     | _ => true))
/-- Step 1: the commit goes on once nothing it shares is in progress. -/
def Dev.commitTry (d : Dev) (h : Nat) : Dev :=
  match d.txn h with
  | some t => if t.phase = .waiting ∧ !d.mustWait t then d.commitStep2 t else d
  | none => d
/-- TXC reaches step 1. -/
def Dev.commitStart (d : Dev) (h : Nat) : Dev :=
  let d1 := { d with cfg := { d.cfg with orders := d.cfg.orders + 1 } }
  (d1.modTxn h (fun t => { t with phase := .waiting, order := d.cfg.orders, began := d.now })).commitTry h
/-- COMMIT_WAIT_END of a transaction. -/
def execCommitWaitEnd (h : BitVec 16) (s : State) : Out := s.apply fun d => d.commitTry h.toNat
/-- The block has finished the work it had begun: a channel has no operation running or suspended on its dies (R111, R188). -/
def Dev.blockDrained (d : Dev) (b : Nat) : Bool := if 0x100 ≤ b ∧ b ≤ 0x17F then (List.range 32).all (fun i => (d.dieOps ((b - 0x100) * 32 + i)).all (fun o => !o.active && o.stage != .suspended)) else true
/-- The block takes no more part in any request on e9 of its core. -/
def Dev.dropE9 (d : Dev) (b : Nat) : Dev :=
  match blockCore b with
  | none => d
  | some c =>
    let more := d.cfg.due.any (fun e => blockCore e.1 == some c) || d.cfg.txns.any (fun t => match t.phase with
      | .draining l => l.any (fun x => blockCore x == some c)
      | _ => false)
    if more then d else d.modCore c (fun k => { k with e9 := false })
/-- DRAIN_COMPLETE: a block is drained for the commit that asked for it. -/
def Dev.drainDone (d : Dev) (b : Nat) : Dev :=
  match d.cfg.txns.find? (fun t => match t.phase with
      | .draining l => l.contains b
      | _ => false) with
  | none => d
  | some t =>
    if !d.blockDrained b then d
    else match t.phase with
      | .draining l =>
        let left := dropAll b l
        let d1 := (d.modTxn t.handle (fun t => { t with phase := .draining left })).dropE9 b
        if left = [] then d1.commitStep4 t else d1
      | _ => d
/-- DRAIN_COMPLETE of a configuration block. -/
def execDrainComplete (b : BitVec 12) (s : State) : Out := s.apply fun d => d.drainDone b.toNat
/-- DRAIN_BUDGET_EXPIRED: the budget of a commit that waits or drains has passed; the blocks resume unchanged. -/
def Dev.budgetExpired (d : Dev) (h : Nat) : Dev :=
  match d.txn h with
  | none => d
  | some t =>
    let d1 := d.advanceTo (t.began + t.budgetUs * 1000)
    match t.phase with
    | .waiting => d1.endTxc h 2
    | .draining l => l.foldl (fun d b => d.dropE9 b) (d1.endTxc h 2)
    | _ => d
/-- DRAIN_BUDGET_EXPIRED of a transaction. -/
def execDrainBudgetExpired (h : BitVec 16) (s : State) : Out := s.apply fun d => d.budgetExpired h.toNat
/-- MODINST of a context as a runtime entry carries it. -/
def TxCtx.entryInst (x : TxCtx) : Nat := x.inst
/-- Writes the persistent record of staged fields and appends its runtime entry 0x05: record address and length, and whether both are in
place. `ok` says that the record reads back; otherwise entry 0x06 is appended and the record voided (R118). -/
def Dev.persist (d : Dev) (ctrl : Option Nat) (inst : Nat) (staged : Tab Word) (ok : Bool) (fails : TallyFails) : Dev × Nat × Nat × Bool :=
  let ps := staged.filter (fun e => d.isPs e.1)
  let r := d.writeRecord pcfgMagic 998 1061 1 0 ps.length (entryBytes (ps.map (fun e => (e.1, e.2.toNat)))) false
  if !ok then
    let a := r.1.appendEntry { Entry.blank 6 with detail := 4, cntlid := cntlidOf ctrl } fails
    (if a.2 then a.1.voidRecord r.2.1 r.2.2 else a.1, r.2.1, r.2.2, false)
  else
    let e := { Entry.blank 5 with cntlid := cntlidOf ctrl, inst := inst, digest := sha384 (r.1.ilu.read r.2.1 r.2.2),
                                  data := staged.flatMap (fun e => leBytes 4 e.1) }
    let a := r.1.appendEntry e fails
    (a.1, r.2.1, r.2.2, a.2)
/-- Step 5 failed after the 0x05 entry: entry 0x06 names it and the record is voided. -/
def Dev.abandonPersist (d : Dev) (ctrl : Option Nat) (a len : Nat) : Dev :=
  let r := d.appendEntry { Entry.blank 6 with detail := 3, ref := d.fold.tally.rseq, cntlid := cntlidOf ctrl } 0
  if r.2 then r.1.voidRecord a len else r.1
/-- Erased space of the configuration ring has fallen below 1 MiB: V firmware writes a snapshot (R446). -/
def Dev.snapshotIfLow (d : Dev) : Dev :=
  if ((List.range 64).filter (fun k => d.ilu.sectorErased (998 + k))).length < 16 then d.writeSnapshot else d
/-- PERSISTENT_RECORD_COMMITTED: step 4 ends, step 5 is checked, and COMMIT is programmed at the commit point. -/
def Dev.recordDone (d : Dev) (h : Nat) (ok : Bool) (fails : TallyFails) : Dev :=
  match d.txn h with
  | none => d
  | some t =>
    if t.phase ≠ .persisting ∨ d.pwr.pf ≠ .idle then d
    else
      let r := d.persist t.ctrl t.ctx.entryInst t.staged ok fails
      if !r.2.2.2 then r.1.endTxc h 4
      else if !r.1.crookAllows t.ctrl t.staged.keys then (r.1.abandonPersist t.ctrl r.2.1 r.2.2.1).endTxc h 3
      else ((r.1.commitRecord r.2.1 r.2.2.1).commitPoint t).snapshotIfLow
/-- PERSISTENT_RECORD_COMMITTED of a transaction: whether the record reads back, and the Tally slots that fail. -/
def execPersistentRecordCommitted (h : BitVec 16) (ok : Bool) (fails : TallyFails) (s : State) : Out :=
  s.apply fun d => d.recordDone h.toNat ok fails
/-- A command of a controller that is not attached any more still runs on the namespace of a block, so its safe point has not come (R136). -/
def Dev.nsBusy (d : Dev) (b : Nat) : Bool :=
  decide (0x200 ≤ b) && decide (b ≤ 0x5FF) && d.nvme.pens.any (fun e => !e.2.isAdmin && e.2.nsid == b - 0x1FF
    && !(match e.2.due with
         | some r => r.1 == scInvalidNs
         | none => false)
    && !bitOf (d.committed (cfgId b (1 + e.2.ctrl / 64))) (e.2.ctrl % 64))
/-- A Namespace Attachment waits for its block with the handle 0x20000 + its pen; it completes when the block has applied. -/
def Dev.attachDone (d : Dev) (h : Nat) : Dev := if 0x20000 ≤ h then d.complete (h - 0x20000) scOk 0 else d
/-- BLOCK_SAFE_POINT: the block applies every commit that is due for it, oldest first; commits with no block left end. -/
def Dev.safePoint (d : Dev) (b : Nat) : Dev :=
  let mine := d.cfg.due.filter (fun e => e.1 == b)
  if mine = [] ∨ !d.blockUp b ∨ d.nsBusy b then d
  else
    let d1 := mine.foldl (fun d e => d.applyAll e.2.1) { d with cfg := { d.cfg with due := d.cfg.due.filter (fun e => e.1 != b) } }
    let d2 := mine.foldl (fun d e => (d.modTxn e.2.2 (fun t => match t.phase with
      | .applying l => { t with phase := .applying (dropAll b l) }
      | _ => t)).endIfApplied e.2.2) d1
    mine.foldl (fun (d : Dev) e => d.attachDone e.2.2) (d2.dropE9 b)
/-- BLOCK_SAFE_POINT of a configuration block. -/
def execBlockSafePoint (b : BitVec 12) (s : State) : Out := s.apply fun d => d.safePoint b.toNat
/-- COMMIT_COMPLETE: every block has applied, and TXC writes 0x00. -/
def execCommitComplete (h : BitVec 16) (s : State) : Out := s.apply fun d => d.endIfApplied h.toNat
/-- A transaction that has passed its commit point goes on where its context ends (R101, R123). -/
def TxPhase.isApplying : TxPhase → Bool
  | .applying _ => true
  | _ => false
/-- The blocks that a transaction waits for, where it drains. -/
def TxPhase.drains : TxPhase → List Nat
  | .draining l => l
  | _ => []
/-- The transactions of a context that have not passed their commit point are abandoned (R101), and no drain of theirs is asked for any more. -/
def Dev.abandonTxns (d : Dev) (p : TxCtx → Bool) : Dev :=
  let gone := d.cfg.txns.filter (fun t => p t.ctx && !t.phase.isApplying)
  let d1 := { d with cfg := { d.cfg with txns := d.cfg.txns.filter (fun t => !p t.ctx || t.phase.isApplying) } }
  (gone.flatMap (fun t => t.phase.drains)).foldl (fun d b => d.dropE9 b) d1
/-- Power-fail ends every TXC at once: 0x05 before the commit point, 0x00 after it (R100, R117). -/
def Dev.powerFailTxns (d : Dev) : Dev :=
  d.cfg.txns.foldl (fun d t => match t.phase with
    | .opened => d
    | .applying _ => d.endTxc t.handle 0
    | _ => d.endTxc t.handle 5) d

/-- A commit that the device's own policies or a command make, in one action: outcome as Table 3-11, 0x02 while a commit in progress shares a
block with it. -/
def Dev.ownCommitAs (d : Dev) (handle : Nat) (ctrl : Option Nat) (fields : List (Nat × Nat)) (fails : TallyFails) : Dev × Nat :=
  let staged : Tab Word := fields.foldl (fun (t : Tab Word) e => t.set e.1 (BitVec.ofNat 64 e.2)) []
  let t : Txn := { handle := handle, ctx := { core := 4, inst := 0 }, ctrl := ctrl, pen := none, budgetUs := 10000, start := d.cfg.counter,
                   staged := staged, reads := [], phase := .waiting, order := d.cfg.orders, began := d.now }
  if d.mustWait t then (d, 2)
  else if !d.crookAllows ctrl staged.keys then (d, 3)
  else
    let ps := staged.any (fun e => d.isPs e.1)
    let r := if ps then d.persist ctrl 0 staged true fails else (d, 0, 0, true)
    if !r.2.2.2 then (r.1, 4)
    else
      let d1 := if ps then r.1.commitRecord r.2.1 r.2.2.1 else r.1
      let d2 := d1.commitPoint t
      (t.blocks.foldl (fun d b => d.safePoint b) d2, 0)
/-- The same with the handle of a commit nobody waits for. -/
def Dev.ownCommit (d : Dev) (ctrl : Option Nat) (fields : List (Nat × Nat)) (fails : TallyFails) : Dev × Nat :=
  d.ownCommitAs 0x10000 ctrl fields fails

/-! ### The Crook (R124 to R126) -/

/-- The Crook becomes free by something other than a release: a record, and e14 of every Shepherd core. Commits of the holder that have not
passed step 5 fail when they reach it. `why`: 1 expiry, 2 reset, 3 PERST_N. -/
def Dev.crookLost (d : Dev) (why : Nat) : Dev :=
  match d.crook.holder with
  | none => d
  | some k =>
    let c := d.crook
    let d1 := { d with crook := { c with holder := none, leaseEnd := 0,
                                         expired := sat 0xFFFF (c.expired + bit (why == 1)), forced := sat 0xFFFF (c.forced + bit (why != 1)) } }
    (shepherds.foldl (fun d s => d.raiseE14 s) d1).postInfo 0x00D (k / 64 * 65536 + (k + 1)) why 0x0C
/-- The Crook is lost when a controller that holds it goes. -/
def Dev.crookOf (d : Dev) (k why : Nat) : Dev := if d.crook.holder = some k then d.crookLost why else d
/-- CROOK_LEASE_EXPIRY: the lease has reached zero. -/
def execCrookLeaseExpiry (s : State) : Out :=
  s.apply fun d => if d.crook.holder.isSome then (d.advanceTo d.crook.leaseEnd).crookLost 1 else d
/-- Lease remaining in ms, rounded up so that it is 0 only when the Crook is free (DESIGN CHOICE, assumption log 43). -/
def Dev.crookMs (d : Dev) : Nat := if d.crook.holder.isNone then 0 else (d.crook.leaseEnd - d.now + 999999) / 1000000
/-- Completion dwords 0 and 1 of a Crook command (Table 4-8): the holder as in CROOK.HOLDER, with bit 17 set when it is the sender, and the
remaining lease in ms. -/
def Dev.crookDw0 (d : Dev) (k : Nat) : Nat :=
  (match d.crook.holder with
    | some h => (h + 1) + h / 64 * 65536 + bit (h == k) * 131072
    | none => 0xFFFF) + 2 ^ 32 * d.crookMs
/-- The lease of the Crook ends in this 1 ms tick or ended before it: an acquire finds the expiry applied first (R126). -/
def Dev.crookLapsed (d : Dev) : Bool := decide (d.crook.leaseEnd / 1000000 ≤ d.now / 1000000)
/-- A Crook admin command with its action: reserved bits, then the lease, then the holder. -/
def Dev.crookCmd (d : Dev) (action : Nat) (p : Nat) : Dev :=
  match d.pen p with
  | none => d
  | some x =>
    let w := x.dw 10
    let lease := x.dw 11 % 65536
    let timed := action == 1 || action == 2
    if !x.isAdmin ∨ x.opcode ≠ 0xC4 ∨ x.stage ≠ .ready ∨ w % 4 ≠ action then d
    else if w / 4 ≠ 0 ∨ x.dw 11 / 65536 ≠ 0 ∨ (timed && decide (600 < lease)) then d.complete p scInvalidField 0
    else
      let until_ := d.now + (if lease = 0 then 30 else lease) * 1000000000
      let held := d.crook.holder == some x.ctrl
      let set := { d with crook := { d.crook with holder := some x.ctrl, leaseEnd := until_ } }
      match action with
      | 1 =>
        if d.crook.holder.isNone ∨ held then set.complete p scOk (set.crookDw0 x.ctrl)
        else if d.crookLapsed then
          let f := d.crookLost 1
          let g := { f with crook := { f.crook with holder := some x.ctrl, leaseEnd := until_ } }
          g.complete p scOk (g.crookDw0 x.ctrl)
        else d.complete p scOk (d.crookDw0 x.ctrl)
      | 2 => if held then set.complete p scOk (set.crookDw0 x.ctrl) else d.complete p scDenied 0
      | 3 =>
        if held then
          let d1 := { d with crook := { d.crook with holder := none, leaseEnd := 0 } }
          d1.complete p scOk (d1.crookDw0 x.ctrl)
        else d.complete p scDenied 0
      | _ => d.complete p scOk (d.crookDw0 x.ctrl)
/-- CROOK_QUERY. -/
def execCrookQuery (p : Pen) (s : State) : Out := s.apply fun d => d.crookCmd 0 p.val
/-- CROOK_ACQUIRE. -/
def execCrookAcquire (p : Pen) (s : State) : Out := s.apply fun d => d.crookCmd 1 p.val
/-- CROOK_RENEW. -/
def execCrookRenew (p : Pen) (s : State) : Out := s.apply fun d => d.crookCmd 2 p.val
/-- CROOK_RELEASE. -/
def execCrookRelease (p : Pen) (s : State) : Out := s.apply fun d => d.crookCmd 3 p.val

end Sys2Proof.Machine
end

