-- ==== Sys2Proof/Machine/Alu.lean ====
section
/-! DEFINITION. The integer operations of Table 3-3 (R77) and the new values of the atomics (R81), on 64-bit values. -/

namespace Sys2Proof.Machine

/-- 1 when the condition holds, else 0, as a word (SLT, SLTU). -/
def boolWord (b : Bool) : Word := if b then 1#64 else 0#64

/-- Shift left by y[5:0]. -/
def alusll (x y : Word) : Word := x <<< (y.toNat % 64)
/-- Logical shift right by y[5:0]. -/
def alusrl (x y : Word) : Word := x >>> (y.toNat % 64)
/-- Arithmetic shift right by y[5:0]. -/
def alusra (x y : Word) : Word := x.sshiftRight (y.toNat % 64)

/-- Signed compare. -/
def aluslt (x y : Word) : Word := boolWord (decide (x.toInt < y.toInt))
/-- Unsigned compare. -/
def alusltu (x y : Word) : Word := boolWord (decide (x.toNat < y.toNat))

/-- Signed smaller. -/
def alumin (x y : Word) : Word := if x.toInt < y.toInt then x else y
/-- Signed larger. -/
def alumax (x y : Word) : Word := if x.toInt < y.toInt then y else x
/-- Unsigned smaller. -/
def aluminu (x y : Word) : Word := if x.toNat < y.toNat then x else y
/-- Unsigned larger. -/
def alumaxu (x y : Word) : Word := if x.toNat < y.toNat then y else x

/-- Low 64 bits of the product. -/
def alumul (x y : Word) : Word := BitVec.ofNat 64 (x.toNat * y.toNat)
/-- High 64 bits of the signed 128-bit product. -/
def alumulh (x y : Word) : Word := BitVec.ofInt 64 ((x.toInt * y.toInt) / 2 ^ 64)
/-- High 64 bits of the unsigned 128-bit product. -/
def alumulhu (x y : Word) : Word := BitVec.ofNat 64 ((x.toNat * y.toNat) / 2 ^ 64)

/-- Signed quotient rounded toward zero; all ones for a zero divisor; -2^63 for the one overflow (R77). -/
def aludiv (x y : Word) : Word :=
  if y = 0#64 then BitVec.allOnes 64 else BitVec.ofInt 64 (Int.tdiv x.toInt y.toInt)
/-- Unsigned quotient; all ones for a zero divisor. -/
def aludivu (x y : Word) : Word :=
  if y = 0#64 then BitVec.allOnes 64 else BitVec.ofNat 64 (x.toNat / y.toNat)
/-- Signed remainder with the sign of x; x for a zero divisor; 0 for the one overflow. -/
def alurem (x y : Word) : Word :=
  if y = 0#64 then x else BitVec.ofInt 64 (Int.tmod x.toInt y.toInt)
/-- Unsigned remainder; x for a zero divisor. -/
def aluremu (x y : Word) : Word :=
  if y = 0#64 then x else BitVec.ofNat 64 (x.toNat % y.toNat)

/-- The number of leading false entries of a list. -/
def leadingFalse : List Bool → Nat
  | [] => 0
  | true :: _ => 0
  | false :: t => leadingFalse t + 1

/-- The bits of a word, bit 0 first. -/
def wordBits (x : Word) : List Bool := (List.range 64).map (fun i => x.getLsbD i)

/-- Count of leading zero bits; 64 when x is zero. -/
def aluclz (x : Word) : Word := BitVec.ofNat 64 (leadingFalse (wordBits x).reverse)
/-- Count of trailing zero bits; 64 when x is zero. -/
def aluctz (x : Word) : Word := BitVec.ofNat 64 (leadingFalse (wordBits x))
/-- Count of one bits. -/
def alupopc (x : Word) : Word := BitVec.ofNat 64 ((wordBits x).countP (fun b => b))
/-- Byte order reversed. -/
def alubswap (x : Word) : Word := BitVec.ofNat 64 (ofLe (leBytes 8 x.toNat).reverse)

/-- LUI: imm41 shifted left by 23. -/
def alului (i : BitVec 41) : Word := (zext41 i) <<< 23

/-- The loaded value of `n` bytes, sign- or zero-extended to 64 bits (R79). -/
def loadExtend (signed : Bool) (bs : Bytes) : Word :=
  let v := ofLe bs
  let n := 8 * bs.length
  if signed && decide (2 ^ (n - 1) ≤ v) then BitVec.ofInt 64 ((v : Int) - 2 ^ n) else BitVec.ofNat 64 v

/-- The eight atomics of R81. -/
inductive Amo where
  | add | and | or | xor | swap | maxu | minu | cas
  deriving DecidableEq, Repr

/-- The value an atomic writes to memory, from the old value m, rs2's value y and rd's value before the instruction;
none where nothing is written (a CAS that finds another value). -/
def amoNew (k : Amo) (m y rdIn : Word) : Option Word :=
  match k with
  | .add => some (m + y)
  | .and => some (m &&& y)
  | .or => some (m ||| y)
  | .xor => some (m ^^^ y)
  | .swap => some y
  | .maxu => some (alumaxu m y)
  | .minu => some (aluminu m y)
  | .cas => if m = rdIn then some y else none

end Sys2Proof.Machine
end

