-- ==== Sys2Proof/Machine/Ilu.lean ====
section
/-! DEFINITION. The Iluell controller's command ports, its scheduling, suspend, the wear window and boot re-erases
(R434, R435, R437 to R444). -/

namespace Sys2Proof.Machine

/-- A port's state. -/
def IluSt.port (i : IluSt) (p : Nat) : IluPort := i.ports.get IluPort.init p
/-- Replaces a port's state. -/
def Dev.setPort (d : Dev) (p : Nat) (x : IluPort) : Dev := { d with ilu := { d.ilu with ports := d.ilu.ports.set p x } }
/-- A command of a port ends with a status; port 0 asserts e4 of the Fold core (Table 1-10). -/
def Dev.iluEnd (d : Dev) (p st : Nat) : Dev :=
  let d1 := if p < 3 then d.setPort p { d.ilu.port p with status := st } else d
  if p = 0 then { d1 with ilu := { d1.ilu with done0 := true } } else d1

/-- A port is busy: a command waits or runs (Table 17-16). -/
def IluSt.busy (i : IluSt) (p : Nat) : Bool :=
  (i.port p).wait.isSome || (match i.prog with | some r => r.port == p | none => false)
  || (match i.erase with | some r => r.port == p | none => false)

/-- The sequence of a port is broken (R437): nothing starts, STATUS reads 0x05 and SEQERR counts one. -/
def Dev.iluBreak (d : Dev) (p : Nat) : Dev :=
  let x := d.ilu.port p
  d.setPort p { x with seq := .idle, status := 5, seqErr := sat 0xFF (x.seqErr + 1) }

/-- A write to a port that the controller takes from this core: port 0 is the Fold's, port 1 belongs to V firmware of Shepherd cores
(and to the owner of its sequence), port 2 to the drove engine. -/
def Dev.iluTakes (d : Dev) (p core : Nat) : Bool :=
  if p = 0 then core == 0
  else if p = 1 then decide (1 ≤ core) && decide (core ≤ 8) && ((d.ilu.port 1).seq == .idle || (d.ilu.port 1).owner == core)
  else false

/-- A write to a port that is not taken: on port 1 another core's write posts an error record (R437). -/
def Dev.iluIgnored (d : Dev) (p core off : Nat) : Dev :=
  if p = 1 then d.post 0x008 (coreIdOf core) off 0x09 2 else d

/-- A write of ILU.KEYp (R437). -/
def Dev.iluKey (d : Dev) (p core v : Nat) : Dev :=
  if !d.iluTakes p core then d.iluIgnored p core (p * 0x100)
  else
    let x := d.ilu.port p
    if x.seq = .idle ∧ v = 0xAA55 then d.setPort p { x with seq := .key1, owner := core }
    else if x.seq = .key1 ∧ v = 0x55AA then d.setPort p { x with seq := .unlocked }
    else d.iluBreak p

/-- A write of ILU.CMDp. -/
def Dev.iluCmd (d : Dev) (p core v : Nat) : Dev :=
  if !d.iluTakes p core then d.iluIgnored p core (p * 0x100 + 4)
  else
    let x := d.ilu.port p
    if x.seq = .unlocked then d.setPort p { x with seq := .cmdIn, code := bitsOf v 7 0, units := bitsOf v 15 8 }
    else d.iluBreak p

/-- A write of ILU.ADDRp. -/
def Dev.iluAddr (d : Dev) (p core v : Nat) : Dev :=
  if !d.iluTakes p core then d.iluIgnored p core (p * 0x100 + 8)
  else
    let x := d.ilu.port p
    if x.seq = .cmdIn then d.setPort p { x with seq := .addrIn, addr := bitsOf v 26 0 }
    else (d.setPort p { x with addr := bitsOf v 26 0 }).iluBreak p

/-- A flag unit of the power-fail descriptor region: unit 7 of a 4 KiB slot holds LOADED and CONSUMED (R440). -/
def descFlagUnit (a : Nat) : Bool := decide (848 * 65536 ≤ a) && decide (a < 856 * 65536) && a / 512 % 8 == 7

/-- A port's rights to a command at an address (R437): port 0 every addressable sector; port 1 the general region, flag words and the
erase of the descriptor ring; port 2 descriptor slots only. Reserved sectors refuse commands (Table 17-2). -/
def iluRights (p code a : Nat) : Bool :=
  let s := a / 65536
  if 2031 ≤ s ∨ (1094 ≤ s ∧ s ≤ 2030) then false
  else if p = 0 then true
  else if p = 1 then decide (856 ≤ s) || (code == 5 && descFlagUnit a) || (code == 2 && decide (848 ≤ s))
  else decide (848 ≤ s) && decide (s < 856) && (code == 1 || (code == 5 && descFlagUnit a))

/-- The internal address of a program's source (Table 17-15); none where it lies outside the permitted region (status 0x04). -/
def Dev.iluSource (d : Dev) (p data n : Nat) : Option Nat :=
  if p = 0 then
    let o := bitsOf data 15 0 * 8
    if bitsOf data 31 16 ≠ 0 ∨ 0x80000 < o + n then none else some (scratchBase 0 + o)
  else if bitOf data 31 then
    let o := bitsOf data 30 0 * 8
    if 0x400000000 < o + n then none else some (d.reservedBase + o)
  else
    let o := bitsOf data 21 0 * 8
    if 0x2000000 < o + n then none else some (stagingBase + o)

/-- The confirm value a command's DATA must carry (Table 17-5); a program's DATA is its source. -/
def iluConfirm (code : Nat) : Option Nat :=
  match code with
  | 2 => some 0xD0
  | 3 => some 0xB0
  | 4 => some 0x30
  | 5 => some 0xF0
  | _ => none

/-- The status that refuses a command before it is queued: 0 when it is taken. -/
def Dev.iluRefuse (d : Dev) (p : Nat) (c : IluCmd) : Nat :=
  if c.code = 0 ∨ 5 < c.code then 5
  else if c.code = 1 ∧ (c.units < 1 ∨ 128 < c.units) then 5
  else if c.code ≠ 1 ∧ (c.units ≠ 0 ∨ iluConfirm c.code ≠ some c.data) then 5
  else if c.code = 3 ∨ c.code = 4 then
    if d.ilu.rstHold || (d.ilu.pfHold && p != 2) then 6
    else match d.ilu.erase with
    | some e => if e.port = p ∧ (c.code = 3 ↔ e.suspended = false) then 0 else 8
    | none => 8
  else if !iluRights p c.code c.addr then 2
  else if c.code = 1 ∧ (c.addr % 512 ≠ 0 ∨ 65536 < c.addr % 65536 + c.units * 512) then 2
  else if c.code = 5 ∧ (c.addr % 8 ≠ 0) then 2
  else if d.ilu.rstHold || (d.ilu.pfHold && p != 2) then 6
  else if c.code = 1 then
    match d.iluSource p c.data (c.units * 512) with
    | none => 4
    | some a => if d.markedRun a (c.units * 512) then 4 else 0
  else 0

/-- A sector of a ring region: LMS state, the Tally ring, descriptors, configuration and calibration (Table 17-2). -/
def ringSector (s : Nat) : Bool :=
  (decide (16 ≤ s) && decide (s < 48)) || (decide (336 ≤ s) && decide (s < 856)) || (decide (998 ≤ s) && decide (s < 1094))

/-- A command's sector refuses it when the array reaches it: 0x03 for a program into an Erase-Interrupted sector, or into a Retired sector of a
ring; 0x07 for any other command to a retired sector, which then has no spare (R434, R436). -/
def IluSt.sectRefuse (i : IluSt) (c : IluCmd) : Nat :=
  let st := (i.sect (i.phys (c.addr / 65536))).st
  if st = 3 then (if c.code ≠ 2 ∧ ringSector (c.addr / 65536) then 3 else 7)
  else if st = 2 ∧ c.code ≠ 2 then 3
  else 0

/-- A command of port p waits for the boot re-erase of its sector (R436). -/
def IluSt.awaitsReerase (i : IluSt) (c : IluCmd) : Bool := i.reerase.contains (i.phys (c.addr / 65536))

/-- A port's own erase has not ended and the port has not suspended it: its next command waits, as each port's commands run in order (R438,
R441). -/
def IluSt.behindErase (i : IluSt) (p : Nat) : Bool :=
  match i.erase with
  | some e => e.port == p && !e.explicit
  | none => false

/-- The first port, in the order 2, 0, 1, whose waiting command is of the wanted kind and can run (R441). -/
def IluSt.nextPort (i : IluSt) (erase : Bool) : Option Nat :=
  [2, 0, 1].find? (fun p => match (i.port p).wait with
    | some c => (if erase then c.code == 2 else c.code == 1 || c.code == 5) && !i.awaitsReerase c && !i.behindErase p
    | none => false)

/-- Starts the command that waits at a port: the sector's state word is written first (Table 17-4). -/
def Dev.iluBegin (d : Dev) (p : Nat) (c : IluCmd) : Dev :=
  let i := d.ilu
  let ph := i.phys (c.addr / 65536)
  let d0 := d.setPort p { i.port p with wait := none }
  let st := i.sectRefuse c
  if st ≠ 0 then d0.iluEnd p st
  else if c.code = 2 then
    { d0 with ilu := { d0.ilu with sects := d0.ilu.sects.set ph { i.sect ph with st := 2 },
                                   erase := some { port := p, sector := ph, since := d.run, suspended := false, explicit := false } } }
  else
    { d0 with ilu := { d0.ilu with sects := d0.ilu.sects.set ph { i.sect ph with st := 1 },
                                   prog := some { port := p, cmd := c, done := 0 } } }

/-- One scheduling decision (R441): a program or flag word while the array is free or its erase suspended; a running erase gets a suspend
request; then a suspended erase resumes, or the next erase starts. Power-fail starts nothing but port 2's commands and resumes nothing
(R442); the reset hold starts and resumes nothing (R443). -/
def Dev.iluOnce (d : Dev) : Dev :=
  let i := d.ilu
  if i.prog.isSome || i.rstHold then d
  else
    match i.nextPort false with
    | some p =>
      if i.pfHold && p != 2 then d
      else match i.erase, (i.port p).wait with
        | some e, some c =>
          if e.suspended then d.iluBegin p c else { d with ilu := { i with suspPending := true } }
        | none, some c => d.iluBegin p c
        | _, none => d
    | none =>
      match i.erase with
      | some e =>
        if e.suspended && !e.explicit && !i.pfHold then
          { d with ilu := { i with erase := some { e with suspended := false, since := d.run } } }
        else d
      | none =>
        if i.pfHold then d
        else match i.nextPort true with
          | some p => match (i.port p).wait with
            | some c => d.iluBegin p c
            | none => d
          | none => d

/-- Schedules until nothing more can start (a start refused with a status lets the next port try). -/
def Dev.iluSchedule (d : Dev) : Dev := d.iluOnce.iluOnce.iluOnce

/-- A write of ILU.DATAp, which starts the command (R437, R438). Suspend and resume act on the port's own erase; any other command waits at
the port, and a third command finds no place and breaks the sequence. -/
def Dev.iluData (d : Dev) (p core v : Nat) : Dev :=
  if !d.iluTakes p core then d.iluIgnored p core (p * 0x100 + 0xC)
  else
    let x := d.ilu.port p
    if x.seq ≠ .addrIn then d.iluBreak p
    else
      let c : IluCmd := { code := x.code, units := x.units, addr := x.addr, data := v }
      let d0 := d.setPort p { x with seq := .idle }
      let st := d0.iluRefuse p c
      if st ≠ 0 then d0.iluEnd p st
      else if c.code = 3 then
        match d0.ilu.erase with
        | some e => { d0 with ilu := { d0.ilu with erase := some { e with explicit := true }, suspPending := true } }
        | none => d0
      else if c.code = 4 then
        match d0.ilu.erase with
        | some e => ({ d0 with ilu := { d0.ilu with erase := some { e with explicit := false } } }.iluEnd p 0).iluSchedule
        | none => d0
      else if x.wait.isSome then d0.iluBreak p
      else (d0.setPort p { x with seq := .idle, wait := some c }).iluSchedule

/-- The three writes after the keys: CMD, ADDR and DATA. -/
def Dev.iluCommand (d : Dev) (p core code units addr data : Nat) : Dev :=
  ((d.iluCmd p core (code + units * 256)).iluAddr p core addr).iluData p core data

/-- The drove engine's own program of port 2, which it gives without a key sequence of its own (R437). -/
def Dev.iluPort2 (d : Dev) (c : IluCmd) : Dev :=
  (d.setPort 2 { d.ilu.port 2 with wait := some c }).iluSchedule

/-- The unit or flag word a finished program leaves in the store. -/
def Dev.iluProgramEffect (d : Dev) (r : IluProg) (units : Nat) : Dev :=
  if r.cmd.code = 5 then d.norFlag r.cmd.addr
  else match d.iluSource r.port r.cmd.data (r.cmd.units * 512) with
    | some a => d.norProgram r.cmd.addr (d.bytes a (units * 512))
    | none => d

/-- A sector's erase reports a failure: it is retired, and with no spare left a record says so (R434). -/
def Dev.eraseFails (d : Dev) (p : Nat) : Dev :=
  let d0 := d.countErase p
  let d1 : Dev := { d0 with ilu := d0.ilu.retire p }
  if d.ilu.spares = 0 then d1.post 0x008 p 0 0x0A 2 else d1

/-- The running operation ends; `ok` is what the array reports. -/
def Dev.iluComplete (d : Dev) (ok : Bool) : Dev :=
  match d.ilu.prog, d.ilu.erase with
  | some r, _ =>
    let d1 := d.iluProgramEffect r r.cmd.units
    ({ d1 with ilu := { d1.ilu with prog := none } }.iluEnd r.port 0).iluSchedule
  | none, some e =>
    if e.suspended then d
    else
      let i := { d.ilu with erase := none, suspPending := false }
      if ok then ((({ d with ilu := i.eraseDone e.sector } : Dev).countErase e.sector).iluEnd e.port 0).iluSchedule
      else ((({ d with ilu := i } : Dev).eraseFails e.sector).iluEnd e.port 1).iluSchedule
  | none, none => d

/-- ILU_KEY_WRITE. -/
def execIluKeyWrite (p : Fin 3) (core : Fin 41) (v : W32) (s : State) : Out := s.apply fun d => d.iluKey p core v.toNat
/-- ILU_PROGRAM (Table 17-5, 0x01). -/
def execIluProgram (p : Fin 3) (core : Fin 41) (units : BitVec 8) (addr : BitVec 27) (data : W32) (s : State) : Out :=
  s.apply fun d => d.iluCommand p core 1 units.toNat addr.toNat data.toNat
/-- ILU_ERASE (0x02). -/
def execIluErase (p : Fin 3) (core : Fin 41) (addr : BitVec 27) (data : W32) (s : State) : Out :=
  s.apply fun d => d.iluCommand p core 2 0 addr.toNat data.toNat
/-- ILU_SUSPEND (0x03). -/
def execIluSuspend (p : Fin 3) (core : Fin 41) (addr : BitVec 27) (data : W32) (s : State) : Out :=
  s.apply fun d => d.iluCommand p core 3 0 addr.toNat data.toNat
/-- ILU_RESUME (0x04). -/
def execIluResume (p : Fin 3) (core : Fin 41) (addr : BitVec 27) (data : W32) (s : State) : Out :=
  s.apply fun d => d.iluCommand p core 4 0 addr.toNat data.toNat
/-- ILU_FLAG_PROGRAM (0x05). -/
def execIluFlagProgram (p : Fin 3) (core : Fin 41) (addr : BitVec 27) (data : W32) (s : State) : Out :=
  s.apply fun d => d.iluCommand p core 5 0 addr.toNat data.toNat
/-- ILU_COMMAND_COMPLETE: the array reports the end of the program or erase it runs. -/
def execIluCommandComplete (ok : Bool) (s : State) : Out := s.apply fun d => d.iluComplete ok

/-- ILU_AUTO_SUSPEND: a pending suspend takes effect once the erase has run ERASE_MIN_RUN_US since it started or last resumed (R441). -/
def Dev.iluAutoSuspend (d : Dev) : Dev :=
  match d.ilu.erase with
  | some e =>
    if d.ilu.suspPending && !e.suspended then
      let d1 := d.advanceTo (d.now + (e.since + d.cfgv 0x00F 1 * 1000 - d.run))
      let d2 := { d1 with ilu := { d1.ilu with erase := some { e with suspended := true }, suspPending := false } }
      (if e.explicit then d2.iluEnd e.port 0 else d2).iluSchedule
    else d
  | none => d
/-- ILU_AUTO_SUSPEND. -/
def execIluAutoSuspend (s : State) : Out := s.apply Dev.iluAutoSuspend

/-- One move of the wear window (R444): the units of the source position are copied to the gap, the window registers move, and the vacated
position is erased. It runs while the array has nothing else to do. -/
def Dev.wearMove (d : Dev) : Dev :=
  let i := d.ilu
  if !i.moveDue || i.prog.isSome || i.erase.isSome || i.pfHold || i.rstHold then d
  else
    let place (pos : Nat) := let p := genFirst + pos; i.remap.get p p
    let src := if 0 < i.gap then i.gap - 1 else genCount
    let dst := i.gap
    let cut := (i.sect (place src)).st == 2
    let copied := (i.nor.filter (fun e => !cut && e.1 / 128 == place src)).foldl
      (fun t e => t.set (place dst * 128 + e.1 % 128) e.2) i.nor
    let st := i.sect (place src)
    let i1 := { i with nor := copied, sects := i.sects.set (place dst) { i.sect (place dst) with st := if cut then 0 else st.st },
                       gap := src, start := if 0 < i.gap then i.start else (i.start + 1) % genCount,
                       sinceMove := 0, moveDue := false }
    { d with ilu := i1.eraseDone (place src) }
/-- WEAR_WINDOW_MOVE. -/
def execWearWindowMove (s : State) : Out := s.apply Dev.wearMove

/-- SECTOR_REERASE: a queued re-erase of an Erase-Interrupted managed sector runs at lowest priority (Table 17-4). -/
def Dev.sectorReerase (d : Dev) (ok : Bool) : Dev :=
  match d.ilu.reerase with
  | [] => d
  | p :: t =>
    if d.ilu.prog.isSome || d.ilu.erase.isSome || d.ilu.pfHold || d.ilu.rstHold then d
    else
      let d1 : Dev := { d with ilu := { d.ilu with reerase := t } }
      (if ok then ({ d1 with ilu := d1.ilu.eraseDone p } : Dev).countErase p else d1.eraseFails p).iluSchedule
/-- SECTOR_REERASE. -/
def execSectorReerase (ok : Bool) (s : State) : Out := s.apply fun d => d.sectorReerase ok

/-- PWRFAIL_N reaches the controller (R442): a hold for a reset ends (R518), the program of port 0 or 1 stops at a unit boundary, waiting
commands end with status 0x06, and a running erase is to be suspended under R441. -/
def Dev.iluPowerFail (d : Dev) (unitsDone : Nat) : Dev :=
  let d0 := { d with ilu := { d.ilu with pfHold := true, rstHold := false } }
  let d1 := match d0.ilu.prog with
    | some r =>
      if r.port = 2 then d0
      else
        let e := d0.iluProgramEffect r (Nat.min unitsDone r.cmd.units)
        { e with ilu := { e.ilu with prog := none } }.iluEnd r.port 6
    | none => d0
  let d2 := [0, 1].foldl (fun d p =>
    if (d.ilu.port p).wait.isSome then (d.setPort p { d.ilu.port p with wait := none }).iluEnd p 6 else d) d1
  match d2.ilu.erase with
  | some e => ({ d2 with ilu := { d2.ilu with suspPending := !e.suspended } } : Dev).iluSchedule
  | none => d2.iluSchedule

/-- The Collie's reset hold (R443): waiting commands end with status 0x06 and nothing further starts. -/
def Dev.iluResetHold (d : Dev) : Dev :=
  let d0 := { d with ilu := { d.ilu with rstHold := true } }
  [0, 1, 2].foldl (fun d p =>
    if (d.ilu.port p).wait.isSome then (d.setPort p { d.ilu.port p with wait := none }).iluEnd p 6 else d) d0

/-- The operation in progress is cut as a power loss cuts it: a sector being erased stays Erase-Interrupted; of a program, a free number of units
is done and the next one is undefined; a flag word reads set or clear, which is free, and the boot makes a set one firm (R440). -/
def Dev.iluCut (d : Dev) : Dev :=
  let d1 := match d.ilu.prog with
    | some r =>
      if r.cmd.code = 5 then (if Config.freeBool d.free then d.tickFree.norFlag r.cmd.addr else d.tickFree)
      else
        let k := Config.freeNat d.free % r.cmd.units
        let d0 := d.tickFree.iluProgramEffect r k
        let a := r.cmd.addr + 512 * k
        d0.tickFree.norProgramUnit (a / 65536) (a / 512 % 128) ((List.range 512).map (Config.freeByte d0.free))
    | none => d
  { d1 with ilu := { d1.ilu with prog := none, erase := none, suspPending := false } }

/-- The controller leaves reset: ports, holds and running operations are cleared; a managed sector that is Erase-Interrupted is queued for
a re-erase (Table 17-4). -/
def Dev.iluReset (d : Dev) : Dev :=
  let i := d.ilu
  let re := (i.sects.filter (fun e => e.2.st == 2)).map (fun e => e.1)
  { d with ilu := { i with ports := [], prog := none, erase := none, suspPending := false, pfHold := false, rstHold := false,
                           moving := false, done0 := false, dlOwner := none, dlLen := 0, act := none,
                           reerase := re.filter i.managedPhys } }

end Sys2Proof.Machine
end

