-- ==== Sys2Proof/Machine/Lifecycle.lean ====
section
/-! DEFINITION. Lifecycle requests, the challenge, debug scopes and provisioning (R363, R366 to R381, R394). -/

namespace Sys2Proof.Machine

/-- An admin command of a given opcode stands in a pen, ready to be executed. -/
def Dev.adminReady (d : Dev) (p op : Nat) : Bool :=
  match d.pen p with
  | some x => x.isAdmin && x.opcode == op && x.stage == .ready && x.due.isNone
  | none => false

/-- Controller of the command in a pen. -/
def Dev.penCtrl (d : Dev) (p : Nat) : Nat :=
  match d.pen p with
  | some x => x.ctrl
  | none => 0

/-- Dword i of the command in a pen. -/
def Dev.penDw (d : Dev) (p i : Nat) : Nat :=
  match d.pen p with
  | some x => x.dw i
  | none => 0

/-- Security protocol and SP-specific value of a Security Send or Receive: CDW10[31:24] and CDW10[23:8]. -/
def Dev.secp (d : Dev) (p : Nat) : Nat := bitsOf (d.penDw p 10) 31 24
def Dev.spsp (d : Dev) (p : Nat) : Nat := bitsOf (d.penDw p 10) 23 8

/-- FOLD.LIFECYCLE (Table 14-16). -/
def FoldSt.lifecycleReg (f : FoldSt) : Nat :=
  if !f.lcValid then 0
  else f.lc + 4 * bit f.ownerLost + 8 * bit (f.scope != 0) + 16 * bitsOf f.scope 4 0 + 512 * bit f.cosign

/-- A controller is a physical function. -/
def Dev.isPf (d : Dev) (ctrl : Nat) : Bool := isPhysical d.pins.bifur ctrl

/-! ### Requests -/

/-- A parsed lifecycle request (Table 14-9). -/
structure LcReq where
  type : Nat
  nonce : Bytes
  device : Bytes
  gen : Nat
  payload : Bytes
  signed : Bytes
  sets : List SigSet
  deriving DecidableEq, Repr

/-- Reads a request; none when it is malformed (status 0x02). -/
def LcReq.parse (b : Bytes) : Option LcReq :=
  let plen := leAt b 0x40 4
  let sl := leAt b 0x44 4
  let blk := b.drop sl
  let n := leAt blk 8 1
  if leAt b 0 4 ≠ 0x51524C46 ∨ leAt b 4 2 ≠ 1 ∨ leAt b 7 1 ≠ 0 ∨ sl ≠ roundUp (0x48 + plen) 8 ∨ 65536 < b.length ∨ b.length < sl + 16
      ∨ !allZero (sliceOf b (0x48 + plen) (sl - (0x48 + plen)))
      ∨ leAt blk 0 4 ≠ 0x47535842 ∨ leAt blk 4 4 ≠ b.length - sl ∨ 2 < n ∨ !allZero (sliceOf blk 9 7) then none
  else
    (readSets blk n 16).map (fun ss =>
      { type := leAt b 6 1, nonce := sliceOf b 8 32, device := sliceOf b 0x28 16, gen := leAt b 0x38 8,
        payload := sliceOf b 0x48 plen, signed := b.take sl, sets := ss })

/-- A set's signatures are well formed. -/
def LcReq.setsFormed (r : LcReq) : Bool := r.sets.all (fun s => (hssParams s.hss).isSome)

/-- The request's TYPE is accepted in the present state (Table 14-10, R370). -/
def FoldSt.typeAccepted (f : FoldSt) (t : Nat) : Bool :=
  let lc := f.lc
  if f.ownerLost then t == 5
  else match t with
    | 1 => lc == 1
    | 2 => lc == 2
    | 3 => lc == 2
    | 4 => lc == 2
    | 5 => lc == 1 || lc == 2
    | 6 => lc == 1 || lc == 2
    | 7 => f.scope != 0
    | 8 => lc == 2
    | _ => false

/-- The roles a request's sets must have (Table 14-10): 1 vendor, 2 owner, 3 incoming owner. -/
def FoldSt.rolesFor (f : FoldSt) (t : Nat) : List Nat :=
  match t with
  | 1 => [3]
  | 2 => [2, 3]
  | 5 => if f.lc = 2 ∧ !f.ownerLost then [2] else [1]
  | 6 => if f.lc = 2 then [1, 2] else [1]
  | 7 => []
  | _ => [2]

/-- The key-ID pair of the keys in a payload of type 0x01 or 0x02. -/
def LcReq.newKid (r : LcReq) : Bytes × Bytes :=
  ((sha384 (sliceOf r.payload 4 97)).take 16, (sha384 (sliceOf r.payload 0x65 52)).take 16)

/-- A set's signer and HSS parameters are permitted for its role. -/
def FoldSt.signerOk (f : FoldSt) (r : LcReq) (s : SigSet) : Bool :=
  hssPermitted s.hss &&
  (if s.role = 1 then f.vendorPairs.contains (s.ecdsaKid, s.lmsKid)
   else if s.role = 2 then f.ownerKid == some (s.ecdsaKid, s.lmsKid)
   else s.role == 3 && r.newKid == (s.ecdsaKid, s.lmsKid))

/-- The two signatures of a set verify over the signed bytes. -/
def setOk (signed : Bytes) (s : SigSet) : Bool :=
  Config.setEcdsaOk (s.ecdsaKid ++ s.lmsKid) signed (s.r ++ s.s) && Config.setHssOk (s.ecdsaKid ++ s.lmsKid) signed s.hss

/-- An HSS public key has the parameters R67 permits: 1 to 3 levels, LMS 0x0A to 0x0E, LM-OTS 0x05 to 0x08. -/
def hssKeyOk (k : Bytes) : Bool :=
  decide (1 ≤ beAt4 k 0) && decide (beAt4 k 0 ≤ 3) && decide (10 ≤ beAt4 k 4) && decide (beAt4 k 4 ≤ 14)
  && decide (5 ≤ beAt4 k 8) && decide (beAt4 k 8 ≤ 8)

/-- The payload is valid for its type (status 0x09 where it is not). -/
def FoldSt.payloadOk (f : FoldSt) (r : LcReq) : Bool :=
  let n := r.payload.length
  let flags := leAt r.payload 0 4
  match r.type with
  | 1 => n == 153 && (flags == 0 || flags == 2) && Config.ecdsaPointOk (sliceOf r.payload 4 97) && hssKeyOk (sliceOf r.payload 0x65 52)
  | 2 => n == 153 && decide (flags < 4) && Config.ecdsaPointOk (sliceOf r.payload 4 97) && hssKeyOk (sliceOf r.payload 0x65 52)
  | 3 => n == 0
  | 4 => n == 4 && decide (flags < 2)
  | 5 => n == 0
  | 6 => n == 4 && decide (flags < 32) && (!bitOf flags 3 || f.lc == 1)
  | 7 => n == 0
  | _ => decide (0 < n) && decide (n ≤ 8192)

/-- The nonce is current and not older than 300 s (R376). -/
def Dev.nonceOk (d : Dev) (n : Bytes) : Bool :=
  match d.fold.nonce with
  | some (v, t) => v == n && decide (d.now < t + 300000000000)
  | none => false

/-- The status that refuses a request, in the order of R394; 0 when it is accepted. -/
def Dev.lcCheck (d : Dev) (b : Bytes) : Nat × Option LcReq :=
  match LcReq.parse b with
  | none => (2, none)
  | some r =>
    let f := d.fold
    let st :=
      if !r.setsFormed then 2
      else if r.device ≠ f.device then 3
      else if !d.nonceOk r.nonce then 4
      else if r.gen ≠ f.ownerCtr then 5
      else if !f.typeAccepted r.type then 6
      else if r.sets.map (fun s => s.role) ≠ f.rolesFor r.type ∨ !(r.sets.all (f.signerOk r)) then 8
      else if !(r.sets.all (setOk r.signed)) then 7
      else if !f.payloadOk r then 9
      else 0
    (st, some r)

/-- A request that reached the nonce check has consumed the nonce (R376). -/
def lcConsumes (st : Nat) : Bool := st != 2 && st != 3

/-- The key IDs of a request's signers, as the KIDS of a Tally entry. -/
def LcReq.kids (r : LcReq) : Bytes := r.sets.flatMap (fun s => s.ecdsaKid ++ s.lmsKid)

/-- A new owner record into the inactive copy, then the counter (R372): copy A is inactive unless it holds the active record. -/
def FoldSt.commitOwner (f : FoldSt) (o : Option OwnerRec) (ctr : Nat) : FoldSt :=
  let aActive := match f.ownerA with
    | some a => a.gen == f.ownerCtr
    | none => false
  match o with
  | none => { f with ownerCtr := ctr }
  | some r => if aActive then { f with ownerB := some r, ownerCtr := ctr } else { f with ownerA := some r, ownerCtr := ctr }

/-- Steps 2 to 5 of R372 for a change of ownership: the store write may fail before the commit point (status 0x0A); a failed Tally entry
after it gives status 0x0B and is owed to the next boot (R405). -/
def Dev.changeOwner (d : Dev) (r : LcReq) (cntlid : Nat) (o : Option OwnerRec) (ctr : Nat) (storeOk : Bool) (fails : TallyFails) :
    Dev × Nat :=
  if !storeOk then (d, 0x0A)
  else
    let d1 := { d with fold := d.fold.commitOwner o ctr }
    let t := d1.appendEntry { Entry.blank 7 with detail := r.type, cntlid := cntlid, ref := ctr, digest := d1.fold.ownerDigest, kids := r.kids } fails
    if t.2 then (t.1, 0) else ({ t.1 with fold := { t.1.fold with lcOwed := some (r.type, r.kids) } }, 0x0B)

/-- Owner boot module indices are erased when the lifecycle leaves Owned and at a transfer (R450). -/
def Dev.eraseOwnerModules (d : Dev) : Dev :=
  (List.range 64).foldl (fun d k => if d.ilu.sectorErased (934 + k) then d else d.norErase (934 + k)) d

/-- Steps 3 to 5 of decommission (R373). -/
def Dev.decommissionRest (d : Dev) : Dev :=
  let d1 := d.zeroize
  let f := d1.fold
  let d2 := { d1 with fold := { f with otp := { f.otp with udsWrap := List.replicate 56 0xFF }, ownerA := none, ownerB := none,
                                       endorse := none, decomLeft := false, lms := LmsSt.init } }
  { d2 with ilu := { d2.ilu with nor := d2.ilu.nor.filter (fun e => decide (e.1 / 128 < 48) || decide (336 ≤ e.1 / 128)) } }

/-- An accepted request takes effect. `erase` is the crypto erase of every namespace that Table 14-7 names. -/
def Dev.lcEffect (d : Dev) (erase : Dev → Dev) (r : LcReq) (cntlid : Nat) (storeOk : Bool) (fails : TallyFails) : Dev × Nat :=
  let f := d.fold
  let flags := leAt r.payload 0 4
  let pub := sliceOf r.payload 4 97
  let hss := sliceOf r.payload 0x65 52
  match r.type with
  | 1 => d.changeOwner r cntlid (some { gen := f.ownerCtr + 1, policy := bit (bitOf flags 1), ecdsa := pub, hss := hss })
      (f.ownerCtr + 1) storeOk fails
  | 2 =>
    let d1 := if bitOf flags 0 then erase d else d
    let q := d1.changeOwner r cntlid (some { gen := f.ownerCtr + 2, policy := bit (bitOf flags 1), ecdsa := pub, hss := hss })
      (f.ownerCtr + 2) storeOk fails
    (if q.2 = 0x0A then q.1 else q.1.eraseOwnerModules, q.2)
  | 3 =>
    let q := (erase d).changeOwner r cntlid none (f.ownerCtr + 1) storeOk fails
    (if q.2 = 0x0A then q.1 else q.1.eraseOwnerModules, q.2)
  | 4 => match f.owner with
    | some o => d.changeOwner r cntlid (some { o with gen := f.ownerCtr + 2, policy := flags }) (f.ownerCtr + 2) storeOk fails
    | none => (d, 9)
  | 5 =>
    let t := d.appendEntry { Entry.blank 7 with detail := 5, cntlid := cntlid, ref := f.ownerCtr, digest := f.ownerDigest, kids := r.kids } fails
    if !t.2 then (t.1, 0x0A)
    else
      (({ t.1 with fold := { t.1.fold with otp := { t.1.fold.otp with decom := 0xFF } } } : Dev).decommissionRest.eraseOwnerModules, 0)
  | 6 =>
    let t := d.appendEntry { Entry.blank 8 with cntlid := cntlid, kids := r.kids, data := leBytes 4 flags } fails
    if !t.2 then (t.1, 0x0A)
    else
      let d1 := if bitOf flags 3 then
          let z := t.1.zeroize
          { z with fold := { z.fold with alias1 := [], alias2 := [], cdi1 := [] } }
        else t.1
      ({ d1 with fold := { d1.fold with scope := flags, tapOpen := flags } }, 0)
  | 7 =>
    let t := d.appendEntry { Entry.blank 9 with cntlid := cntlid } fails
    ({ t.1 with fold := { t.1.fold with scope := 0, tapOpen := 0 } }, if t.2 then 0 else 0x0B)
  | _ => if storeOk then ({ d with fold := { f with endorse := some (f.ownerCtr, r.payload) } }, 0) else (d, 0x0A)

/-- A request is checked and, when accepted, takes effect; FOLD keeps its status and type for the result (Table 14-8). -/
def Dev.lcRequest (d : Dev) (erase : Dev → Dev) (b : Bytes) (total : Nat) (cntlid : Nat) (storeOk : Bool) (fails : TallyFails) : Dev :=
  let c := if b.length = total then d.lcCheck b else (2, LcReq.parse b)
  let d0 := if lcConsumes c.1 then { d with fold := { d.fold with nonce := none } } else d
  match c with
  | (0, some r) =>
    let q := d0.lcEffect erase r cntlid storeOk fails
    { q.1 with fold := { q.1.fold with reqStatus := q.2, reqType := r.type } }
  | (st, r) => { d0 with fold := { d0.fold with reqStatus := st, reqType := leAt b 6 1 * bit r.isSome } }

/-- CNTLID field of a request's Tally entry: the controller, or 0xFFFF for the management path; the JTAG mailbox counts as internal. -/
def Dev.lcCntlid (d : Dev) (src : LcSource) : Nat :=
  match src with
  | .pen p => d.penCtrl p.val + 1
  | .jtag => 0
  | .mgmt => 0xFFFF

/-- A decommission that took effect ends in a Fold-initiated reset (Table 21-7); its command has completed before it. -/
def Dev.decomReset (d : Dev) (type : Nat) : Dev :=
  if type = 5 ∧ d.fold.reqType = 5 ∧ d.fold.reqStatus = 0 then { d with evt := { d.evt with seqn := .foldDue false } } else d

/-- A request of one TYPE arrives from a source (R374, R504). Over NVMe the controller must hold the Crook; over JTAG only types 0x06 and 0x07
are carried; over the management paths only type 0x05. -/
def Dev.lcArrive (d : Dev) (erase : Dev → Dev) (type : Nat) (src : LcSource) (b : Bytes) (storeOk : Bool) (fails : TallyFails) : Dev :=
  if leAt b 6 1 ≠ type then d
  else match src with
    | .pen p =>
      if d.adminReady p.val 0x81 && d.secp p.val == 0xF0 && d.spsp p.val == 2 then
        let k := d.penCtrl p.val
        if !d.isPf k then d.complete p.val scInvalidField 0
        else if !d.holdsCrook k then d.complete p.val scDenied 0
        else ((d.lcRequest erase b (d.penDw p.val 11) (k + 1) storeOk fails).complete p.val scOk 0).decomReset type
      else d
    | .jtag => if type = 6 ∨ type = 7 then
        let d1 := d.lcRequest erase b b.length 0 storeOk fails
        { d1 with fold := { d1.fold with tokenIn := true } }
      else d
    | .mgmt => if type = 5 then (d.lcRequest erase b b.length 0xFFFF storeOk fails).decomReset type else d

/-- A new nonce, which replaces the previous one, and the challenge that carries it (Table 14-8). -/
def Dev.lcNonce (d : Dev) : Dev × Bytes :=
  let n := d.drawn 32
  let f := d.fold
  ({ d.tickFree with fold := { d.fold with nonce := some (n, d.now) } },
   n ++ leBytes 8 f.ownerCtr ++ f.device ++ leBytes 1 f.lc ++ leBytes 4 f.lifecycleReg ++ zeros 3)
/-- A Security Receive of SPSP 0x0001; it waits while the DRBG gives no output. -/
def Dev.lcChallenge (d : Dev) (p : Nat) : Dev :=
  if d.adminReady p 0x82 && d.secp p == 0xF0 && d.spsp p == 1 && d.drbgOk && d.isPf (d.penCtrl p) then
    d.lcNonce.1.completeData p (d.lcNonce.2.take (d.penDw p 11))
  else d

/-- A Security Receive of protocol 0xF0 that returns stored data. -/
def Dev.lcReceive (d : Dev) (p spsp : Nat) (b : Bytes) : Dev :=
  if d.adminReady p 0x82 && d.secp p == 0xF0 && d.spsp p == spsp && d.isPf (d.penCtrl p) then
    d.completeData p (b.take (d.penDw p 11))
  else d
/-- The result of the last request: STATUS, TYPE, two zero bytes. -/
def FoldSt.lcResult (f : FoldSt) : Bytes := leBytes 1 f.reqStatus ++ leBytes 1 f.reqType ++ zeros 2
/-- EOTIN_IDENTITY_CHAIN. -/
def execEotinIdentityChain (p : Pen) (s : State) : Out := s.apply fun d => d.lcReceive p.val 4 d.fold.idChain
/-- EOTIN_HSS_CERTIFICATE. -/
def execEotinHssCertificate (p : Pen) (s : State) : Out := s.apply fun d => d.lcReceive p.val 5 d.fold.hssCert
/-- The owner endorsement that is valid now (R369). -/
def FoldSt.endorsement (f : FoldSt) : Bytes :=
  match f.endorse with
  | some (g, b) => if g = f.ownerCtr then b else []
  | none => []
/-- OWNER_ENDORSEMENT_CHAIN: zero length when none is valid. -/
def execOwnerEndorsementChain (p : Pen) (s : State) : Out := s.apply fun d => d.lcReceive p.val 6 d.fold.endorsement

/-- NONCE_EXPIRY: 300 s after its challenge the nonce is no longer valid. -/
def Dev.nonceExpire (d : Dev) : Dev :=
  match d.fold.nonce with
  | some (_, t) => { d.advanceTo (t + 300000000000) with fold := { d.fold with nonce := none } }
  | none => d
/-- NONCE_EXPIRY. -/
def execNonceExpiry (s : State) : Out := s.apply Dev.nonceExpire

/-- PROVISIONING over JTAG of a Blank device (Table 14-7): the UDS is drawn, wrapped and burned, the OTP fields and the certificates are stored, and VP is
burned last. `image` is what the maker writes into the store beside them (assumption log 14). -/
def Dev.provision (d : Dev) (serial keys helper chain cert : Bytes) (image : List (Nat × Bytes)) : Dev :=
  if d.fold.lc ≠ 0 then d
  else
    let o : OtpSt := { vp := 0xFF, decom := 0, vrevoke := 0, serial := padTo 16 serial,
                       udsWrap := padTo 56 (Config.aesKwWrap Config.pufKey (d.drawn 48)),
                       vendorKeys := padTo 192 keys, pufHelper := padTo 1024 helper }
    let d1 := { d.tickFree with fold := { d.fold with otp := o, idChain := chain, hssCert := cert } }
    image.foldl (fun d e => d.norProgram (e.1 / 512 * 512) e.2) d1
/-- PROVISIONING. -/
def execProvisioning (serial keys helper chain cert : Bytes) (image : List (Nat × Bytes)) (s : State) : Out :=
  s.apply fun d => d.provision serial keys helper chain cert image

/-- A tamper source sets its bit in FOLD.TAMPER (R389). -/
def Dev.tamperSet (d : Dev) (b : Nat) : Dev :=
  { d with fold := { d.fold with tamper := if bitOf d.fold.tamper b then d.fold.tamper else d.fold.tamper + 2 ^ b } }

/-- A tamper that is recorded by a runtime entry only (bits 4 and 7). -/
def Dev.tamperRecord (d : Dev) (b : Nat) (fails : TallyFails) : Dev :=
  ((d.tamperSet b).appendEntry { Entry.blank 0x0B with detail := b } fails).1

/-- A debug TAP access: served while its scope is open, else refused as a locked-JTAG tamper (R381). -/
def Dev.tapAccess (d : Dev) (tap : Nat) (b : Bytes) (fails : TallyFails) : Dev :=
  if bitOf d.fold.tapOpen tap then d.emit (.jtag b) else d.tamperRecord 7 fails
/-- TAP_ACCESS: TAP 0 hub, 1 channel dies, 2 host die, 3 Fold (Table 14-13). -/
def execTapAccess (tap : Fin 4) (b : Bytes) (fails : TallyFails) (s : State) : Out := s.apply fun d => d.tapAccess tap.val b fails

end Sys2Proof.Machine
end

