-- ==== Sys2Proof/Machine/Digest.lean ====
section
/-! DEFINITION. The digest engine and the public-key engines (R426 to R431). -/

namespace Sys2Proof.Machine

/-- A digest slot. -/
def Dev.dslot (d : Dev) (i : Nat) : DigSlot := d.dig.get DigSlot.init i
/-- Replaces a digest slot; a Free slot is not listed. -/
def Dev.setDslot (d : Dev) (i : Nat) (x : DigSlot) : Dev :=
  { d with dig := if x = DigSlot.init then d.dig.erase i else d.dig.set i x }

/-- Block size of an algorithm (Table 16-11). -/
def digBlock (alg : Nat) : Nat :=
  match alg with
  | 1 => 64
  | 2 => 128
  | 3 => 128
  | 4 => 136
  | 5 => 104
  | _ => 136

/-- Digest length of an algorithm; SHAKE256 gives OUTLEN bytes. -/
def digLen (alg out : Nat) : Nat :=
  match alg with
  | 1 => 32
  | 2 => 48
  | 3 => 64
  | 4 => 32
  | 5 => 48
  | _ => out

/-- The ALG, HMAC, KEYLEN and OUTLEN of a slot are valid at START (R426, R428). -/
def DigSlot.ctlOk (x : DigSlot) : Bool :=
  decide (1 ≤ x.alg) && decide (x.alg ≤ 6)
  && (!x.hmac || (decide (x.alg ≤ 5) && decide (1 ≤ x.keyLen) && decide (x.keyLen ≤ digBlock x.alg)))
  && (x.alg != 6 || (decide (1 ≤ x.outLen) && decide (x.outLen ≤ 64)))

/-- A read of DIG.ALLOC by a core (R427): the lowest Free slot becomes Held and is the reader's, or BUSY is set. -/
def Dev.digAlloc (d : Dev) (core : Nat) : Dev × Nat :=
  match d.dig.firstIdx DigSlot.init (fun x => x.st == .free) 64 with
  | some i => (d.setDslot i { DigSlot.init with st := .held, owner := coreIdOf core }, i)
  | none => (d, 2 ^ 31)

/-- A slot register is written by a core that does not own the slot: the write is ignored and a record posted (R427). -/
def Dev.digForeign (d : Dev) (core off : Nat) : Dev := d.post 0x007 (coreIdOf core) off 0x09 2

/-- Register offset of a slot's register in the DIG window. -/
def digOff (i r : Nat) : Nat := 0x1000 + i * 0x100 + r

/-- A write to a slot register, checked for its owner. -/
def Dev.digWrite (d : Dev) (core i r : Nat) (f : DigSlot → DigSlot) : Dev :=
  let x := d.dslot i
  if x.st = .free ∨ x.owner ≠ coreIdOf core then d.digForeign core (digOff i r)
  else d.setDslot i (f x)

/-- DIG.CTL: RELEASE frees the slot; START opens a context from Held or Done (Table 16-12). -/
def DigSlot.ctl (x : DigSlot) (v : Nat) : DigSlot :=
  if bitOf v 31 then DigSlot.init
  else
    let y := if x.st = .opened ∨ x.st = .finishing then x
      else { x with alg := bitsOf v 3 0, hmac := bitOf v 4, keyLen := bitsOf v 12 5, outLen := bitsOf v 19 13 }
    if bitOf v 30 then
      if y.ctlOk && (y.st == .held || y.st == .done) then
        { y with st := .opened, msg := [], words := 0, result := [], matched := false, matchN := true, cmpDone := false }
      else if y.st = .held then { y with st := .error, errCtl := true }
      else y
    else y

/-- DATAHI pushes a word in Open; in Held, Done and Error it moves the slot to Error (Table 16-12). -/
def DigSlot.push (x : DigSlot) (hi : Nat) : DigSlot :=
  match x.st with
  | .opened => { x with msg := x.msg ++ leBytes 4 x.dataLo ++ leBytes 4 hi, words := x.words + 1 }
  | .held => { x with st := .error, errSeq := true }
  | .done => { x with st := .error, errSeq := true }
  | .error => { x with errSeq := true }
  | _ => x

/-- LASTHI ends the message in Open; COUNT above 8 moves the slot to Error. -/
def DigSlot.last (x : DigSlot) (hi : Nat) : DigSlot :=
  match x.st with
  | .opened =>
    if 8 < x.lastCnt then { x with st := .error, errCount := true }
    else { x with st := .finishing, msg := x.msg ++ (leBytes 4 x.lastLo ++ leBytes 4 hi).take x.lastCnt }
  | .held => { x with st := .error, errSeq := true }
  | .done => { x with st := .error, errSeq := true }
  | .error => { x with errSeq := true }
  | _ => x

/-- The digest of a finished message: for HMAC the first KEYLEN bytes are the key, in whole words (R428). -/
def DigSlot.compute (x : DigSlot) : Bytes :=
  padTo (digLen x.alg x.outLen)
    (if x.hmac then Config.hmac x.alg (x.msg.take x.keyLen) (x.msg.drop (roundUp x.keyLen 8))
     else Config.digest x.alg (digLen x.alg x.outLen) x.msg)

/-- The last block is processed: the slot becomes Done. -/
def DigSlot.finish (x : DigSlot) : DigSlot := if x.st = .finishing then { x with st := .done, result := x.compute } else x

/-- A read of RESULTn: the slot after it and the value (R429). -/
def DigSlot.readResult (x : DigSlot) (n : Nat) : DigSlot × Nat :=
  match x.st with
  | .done => (x, leAt x.result (4 * n) 4)
  | .opened => ({ x with st := .error, errEarly := true }, 0)
  | .finishing => ({ x with st := .error, errEarly := true }, 0)
  | _ => (x, 0)

/-- The EXPECT bytes of a slot. -/
def DigSlot.expected (x : DigSlot) : Bytes := (List.range 16).flatMap (fun n => leBytes 4 (x.expect.get 0 n))

/-- CMP.START in Done compares EXPECT with the result (R430). -/
def DigSlot.compare (x : DigSlot) : DigSlot :=
  if x.st = .done then
    let eq := x.expected.take (digLen x.alg x.outLen) == x.result
    { x with matched := eq, matchN := !eq, cmpDone := true }
  else x

/-- CMP.START by a core; any outcome but MATCH with MATCH_N clear is a tamper event of bit 4. -/
def Dev.digCompare (d : Dev) (core i : Nat) (fails : TallyFails) : Dev :=
  let x := d.dslot i
  if x.st = .free ∨ x.owner ≠ coreIdOf core then d.digForeign core (digOff i 0xC0)
  else
    let y := x.compare
    let d1 := d.setDslot i y
    if x.st = .done ∧ !(y.matched && !y.matchN) then d1.tamperRecord 4 fails else d1

/-- A reset of an owner core frees its slots (R427). -/
def Dev.digFreeOwner (d : Dev) (core : Nat) : Dev := { d with dig := d.dig.filter (fun e => e.2.owner != coreIdOf core) }

/-- A read of a slot's RESULTn. -/
def Dev.digRead (d : Dev) (i n : Nat) : Dev × Nat :=
  let r := (d.dslot i).readResult n
  (d.setDslot i r.1, r.2)

/-- DIG_ALLOC. -/
def execDigAlloc (core : CoreId) (s : State) : Out :=
  s.apply fun d => let r := d.digAlloc core.val; r.1.emit (.regRead core.val 0x20040000 r.2)
/-- DIG_START: CTL is written with START. -/
def execDigStart (core : CoreId) (slot : Fin 64) (ctl : BitVec 20) (s : State) : Out :=
  s.apply fun d => d.digWrite core.val slot.val 0 (fun x => x.ctl (ctl.toNat + 2 ^ 30))
/-- DIG_RELEASE. -/
def execDigRelease (core : CoreId) (slot : Fin 64) (s : State) : Out :=
  s.apply fun d => d.digWrite core.val slot.val 0 (fun x => x.ctl (2 ^ 31))
/-- DIG_DATA_PUSH: DATALO, then DATAHI. -/
def execDigDataPush (core : CoreId) (slot : Fin 64) (lo hi : W32) (s : State) : Out :=
  s.apply fun d => d.digWrite core.val slot.val 0xC (fun x => ({ x with dataLo := lo.toNat } : DigSlot).push hi.toNat)
/-- DIG_LAST: LASTCNT, LASTLO, then LASTHI. -/
def execDigLast (core : CoreId) (slot : Fin 64) (count : BitVec 4) (lo hi : W32) (s : State) : Out :=
  s.apply fun d => d.digWrite core.val slot.val 0x18
    (fun x => ({ x with lastCnt := count.toNat, lastLo := lo.toNat } : DigSlot).last hi.toNat)
/-- DIG_FINISH. -/
def execDigFinish (slot : Fin 64) (s : State) : Out := s.apply fun d => d.setDslot slot.val (d.dslot slot.val).finish
/-- DIG_RESULT_READ. -/
def execDigResultRead (core : CoreId) (slot : Fin 64) (n : Fin 16) (s : State) : Out :=
  s.apply fun d => let r := d.digRead slot.val n.val
    r.1.emit (.regRead core.val (0x20040000 + digOff slot.val (0x40 + 4 * n.val)) r.2)
/-- DIG_COMPARE. -/
def execDigCompare (core : CoreId) (slot : Fin 64) (fails : TallyFails) (s : State) : Out :=
  s.apply fun d => d.digCompare core.val slot.val fails

/-! ### Public-key engines (R431) -/

/-- The descriptor at an offset of Fold scratch. -/
def Dev.pkaDesc (d : Dev) (off : Nat) : PkaOp :=
  let b := d.bytes (scratchBase 0 + off) 64
  { op := leAt b 0 1, len := leAt b 4 4, msg := leAt b 8 8, key := leAt b 0x10 8, sig := leAt b 0x18 8, out := leAt b 0x20 8,
    bad := !allZero (sliceOf b 1 3) || !allZero (b.drop 0x28) }

/-- The engine an operation runs on: ECDSA for 0x01, 0x02, 0x06; LMS/HSS for 0x03 to 0x05. -/
def pkaIsEc (op : Nat) : Bool := op == 1 || op == 2 || op == 6
def pkaIsHbs (op : Nat) : Bool := op == 3 || op == 4 || op == 5

/-- PKA.STATUS after an operation: its result and OP; e2 of the Fold core is asserted. -/
def Dev.pkaEnd (d : Dev) (op res : Nat) : Dev := { d with pka := { d.pka with result := res, op := op, done := true } }

/-- A write of PKA.DESC: ignored while the addressed engine is busy; an unknown OP ends at once with result 0x03. -/
def Dev.pkaStart (d : Dev) (off : Nat) : Dev :=
  let o := d.pkaDesc off
  let bad := off % 64 != 0 || decide (0x80000 < off + 64)
  if bad || !(pkaIsEc o.op || pkaIsHbs o.op) then ({ d with pka := { d.pka with desc := off } } : Dev).pkaEnd o.op 3
  else if pkaIsEc o.op then
    if d.pka.ec.isSome then d else { d with pka := { d.pka with desc := off, ec := some o } }
  else if d.pka.hbs.isSome then d
  else { d with pka := { d.pka with desc := off, hbs := some o } }

/-- The addresses an operation uses and their lengths. -/
def PkaOp.operands (o : PkaOp) : List (Nat × Nat) :=
  match o.op with
  | 1 => [(o.key, 97), (o.msg, 48), (o.sig, 96)]
  | 2 => [(o.key, 48), (o.msg, 48), (o.out, 96)]
  | 3 => [(o.key, 52), (o.msg, o.len), (o.sig, 4)]
  | 4 => [(o.key, 44), (o.msg, o.len), (o.out, 1252)]
  | 5 => [(o.key, 44), (o.out, 24)]
  | _ => [(o.key, 48), (o.out, 97)]

/-- Bytes at an operand address in Fold scratch. -/
def Dev.foldBytes (d : Dev) (a n : Nat) : Bytes :=
  match inScratch 0 a n with
  | some x => d.bytes x n
  | none => []

/-- Writes bytes at an operand address in Fold scratch. -/
def Dev.foldPut (d : Dev) (a : Nat) (b : Bytes) : Dev :=
  match inScratch 0 a b.length with
  | some x => (d.putBytes x b).clearMarks x b.length
  | none => d

/-- An operation is carried out (Table 16-20): the device and its result (Table 16-22). -/
def Dev.pkaRun (d : Dev) (o : PkaOp) : Dev × Nat :=
  if o.bad then (d, 3)
  else if !(o.operands.all (fun e => (inScratch 0 e.1 e.2).isSome)) then (d, 4)
  else match o.op with
    | 1 =>
      let key := d.foldBytes o.key 97
      if !Config.ecdsaPointOk key then (d, 2)
      else (d, bit (!Config.ecdsaVerify key (d.foldBytes o.msg 48) (d.foldBytes o.sig 96)))
    | 2 =>
      if !d.drbgOk then (d, 5)
      else (d.tickFree.foldPut o.out (padTo 96 (Config.ecdsaSign (d.foldBytes o.key 48) (d.foldBytes o.msg 48) d.free)), 0)
    | 3 =>
      let key := d.foldBytes o.key 52
      let sig := match scratchOff 0 o.sig with
        | some x => d.bytes (scratchBase 0 + x) (Nat.min 16408 (0x80000 - x))
        | none => []
      if !hssKeyOk key then (d, 2) else (d, bit (!Config.hssVerify key (d.foldBytes o.msg o.len) sig))
    | 4 => (d.foldPut o.out (padTo 1252 (Config.lmotsSign (d.foldBytes o.key 44) (d.foldBytes o.msg o.len))), 0)
    | 5 => (d.foldPut o.out (padTo 24 (Config.lmsLeaf (d.foldBytes o.key 44))), 0)
    | _ => (d.foldPut o.out (padTo 97 (Config.ecdsaPublic (d.foldBytes o.key 48))), 0)

/-- An engine's operation ends. -/
def Dev.pkaComplete (d : Dev) (ec : Bool) : Dev :=
  match (if ec then d.pka.ec else d.pka.hbs) with
  | none => d
  | some o =>
    let r := d.pkaRun o
    let p := if ec then { r.1.pka with ec := none } else { r.1.pka with hbs := none }
    ({ r.1 with pka := p } : Dev).pkaEnd o.op r.2

/-- A write of PKA.DESC whose descriptor names one operation. -/
def Dev.pkaStartOp (d : Dev) (op off : Nat) : Dev := if (d.pkaDesc off).op = op then d.pkaStart off else d

/-- ECDSA_VERIFY. -/
def execEcdsaVerify (off : BitVec 24) (s : State) : Out := s.apply fun d => d.pkaStartOp 1 off.toNat
/-- ECDSA_SIGN. -/
def execEcdsaSign (off : BitVec 24) (s : State) : Out := s.apply fun d => d.pkaStartOp 2 off.toNat
/-- HSS_VERIFY. -/
def execHssVerify (off : BitVec 24) (s : State) : Out := s.apply fun d => d.pkaStartOp 3 off.toNat
/-- LMOTS_SIGN. -/
def execLmotsSign (off : BitVec 24) (s : State) : Out := s.apply fun d => d.pkaStartOp 4 off.toNat
/-- LMS_LEAF. -/
def execLmsLeaf (off : BitVec 24) (s : State) : Out := s.apply fun d => d.pkaStartOp 5 off.toNat
/-- ECDSA_PUBLIC_KEY. -/
def execEcdsaPublicKey (off : BitVec 24) (s : State) : Out := s.apply fun d => d.pkaStartOp 6 off.toNat
/-- PKA_COMPLETE: `ec` for the ECDSA engine, else the LMS/HSS engine. -/
def execPkaComplete (ec : Bool) (s : State) : Out := s.apply fun d => d.pkaComplete ec

end Sys2Proof.Machine
end

