-- ==== Sys2Proof/Machine/Events.lean ====
section
/-! DEFINITION. Handling of event records, device fatal and the Collie's counting (R509 to R516). -/

namespace Sys2Proof.Machine

/-- Every source number (Table 21-1). -/
def sources : List Nat :=
  List.range 0x012 ++ (List.range 8).map (· + 0x014) ++ (List.range 8).map (· + 0x020) ++ (List.range 7).map (· + 0x030)
    ++ (List.range 32).map (· + 0x040) ++ (List.range 128).map (· + 0x100)

/-- TAKE: the FIFO head is copied into HEAD and HANDLING is set; ignored from another core, on an empty FIFO and while HANDLING. -/
def Dev.evtTake (d : Dev) (core src : Nat) : Dev :=
  let x := d.src src
  match x.fifo with
  | [] => d
  | r :: _ => if handlerOf src ≠ some core ∨ x.handling then d else d.setSrc src { x with head := some r, handling := true }
/-- DONE: the head record moves to the history ring and HANDLING clears. -/
def Dev.evtDone (d : Dev) (core src : Nat) : Dev :=
  let x := d.src src
  match x.fifo with
  | [] => d
  | r :: t => if handlerOf src ≠ some core ∨ !x.handling then d else d.setSrc src ({ x with fifo := t, handling := false }.pushHist r)
/-- TAKE by a core at a source. -/
def execTake (core : CoreId) (src : BitVec 9) (s : State) : Out := s.apply fun d => d.evtTake core.val src.toNat
/-- DONE by a core at a source. -/
def execDone (core : CoreId) (src : BitVec 9) (s : State) : Out := s.apply fun d => d.evtDone core.val src.toNat

/-- A core handles some source. -/
def isHandler (core : Nat) : Bool := sources.any (fun s => handlerOf s == some core)
/-- DECLARE from a handling core enters device fatal; SOURCE names no record and reads 0 (DESIGN CHOICE, assumption log 21). -/
def Dev.evtDeclare (d : Dev) (core : Nat) : Dev := if isHandler core then d.enterFatal 4 0 else d
/-- DECLARE. -/
def execDeclare (core : CoreId) (s : State) : Out := s.apply fun d => d.evtDeclare core.val

/-- Sets FLAGS bit 0 of the record of a SEQ in a FIFO. -/
def SrcSt.escalate (x : SrcSt) (seq : Nat) : SrcSt :=
  { x with fifo := x.fifo.map (fun r => if r.seq = seq ∧ !bitOf r.flags 0 then { r with flags := r.flags + 1 } else r) }
/-- A class 3 record has stayed in a FIFO for 1,000 ms without being taken (R513). The head being handled is taken. -/
def Dev.class3NotTaken (d : Dev) (src : Nat) : Dev :=
  let x := d.src src
  match (if x.handling then x.fifo.drop 1 else x.fifo).find? (fun r => r.cls == 3) with
  | none => d
  | some r =>
    if d.evt.fatal then d
    else
      let d1 := d.advanceTo (d.now + ((r.postedAt + 1000000000) - d.run))
      (d1.setSrc src ((d1.src src).escalate r.seq)).enterFatal 3 src
/-- CLASS3_NOT_TAKEN at a source. -/
def execClass3NotTaken (src : BitVec 9) (s : State) : Out := s.apply fun d => d.class3NotTaken src.toNat

/-- The Collie's period at the present stage (R516). -/
def Dev.colliePeriod (d : Dev) : Nat :=
  if d.fold.stage < 8 then 5000000000
  else if d.mapc.rbPhase ≠ 0 then 60000000000
  else d.cfgv 0x00E 1 * 1000000
/-- The Collie does not count: disarmed while a boot is halted and in Standby, paused in a clock hold and while the Fold alone is in reset. -/
def Dev.collieStill (d : Dev) : Bool :=
  !d.evt.collieArmed || d.fold.halted || d.pwr.standby || d.clk.hold || (d.fold.inReset && d.ilu.act.isSome)
/-- A pet: a write of 0xC011 to PET. -/
def Dev.pet (d : Dev) (v : Nat) : Dev :=
  if v = 0xC011 ∧ d.evt.collieArmed then
    { d with evt := { d.evt with colliePet := d.run, collieNs := d.colliePeriod, colliePre := false } }
  else d
/-- PET: a write of a value. -/
def execPet (v : BitVec 16) (s : State) : Out := s.apply fun d => d.pet v.toNat
/-- Three quarters of the period have passed: e12 of the Fold core is asserted. -/
def Dev.colliePreExpiry (d : Dev) : Dev :=
  if d.collieStill then d
  else
    let t := d.evt.colliePet + d.colliePeriod * 3 / 4
    { d.advanceTo (d.now + (t - d.run)) with evt := { d.evt with colliePre := true } }
/-- COLLIE_PRE_EXPIRY. -/
def execColliePreExpiry (s : State) : Out := s.apply Dev.colliePreExpiry

end Sys2Proof.Machine
end

