-- ==== Sys2Proof/Machine/Member.lean ====
section
/-! DEFINITION. Member failure and rebuild: declarations, rebuild passes onto spare dies, the switch, evacuation, and the quiesce of a
Drover core's channels (R301 to R318). -/

namespace Sys2Proof.Machine

/-! ### Declarations (R301 to R304) -/

/-- All modules of channel die k's link are down (R17). -/
def Dev.dieLinkDown (d : Dev) (k : Nat) : Bool :=
  (List.range 2).all (fun j => match d.hub.mods.get? (3 + 2 * k + j) with
    | some m => !m.up && decide (3 ≤ m.attempts)
    | none => false)
/-- The dies of a channel for which a condition of Table 11-1 holds, or that are declared already. -/
def Dev.declWanted (d : Dev) (ch : Nat) : Nat :=
  let c := d.chan ch
  let own := d.committed (cfgId (0x100 + ch) 3)
  let uncorr := fun (die : Nat) => decide (d.cfgv 0x014 2 ≤ (((d.die die).uncorr.filter (fun e => decide (d.now < e.2 + 86400000000000)))).length)
  let m := (List.range 32).foldl (fun (v : Nat) i =>
    let die := ch * 32 + i
    if bitOf v i then v
    else if bitOf c.diemap i && ((bitOf c.suspect i && (d.die die).lost) || (d.die die).lost || uncorr die) then v + 2 ^ i else v) own
  let late := match c.downAt with
    | some t => decide (t + 10000000000 ≤ d.now)
    | none => false
  if c.faultTrain || late || decide (8 < countOnes 32 m) || d.dieLinkDown (ch / 32) then 0xFFFFFFFF else m
/-- The policy's commit of a channel's FAIL_MASK; while the Crook is held, or a commit shares the block, it stays pending (R302). -/
def Dev.declare (d : Dev) (ch : Nat) (fails : TallyFails) : Dev :=
  let id := cfgId (0x100 + ch) 3
  let v := d.declWanted ch
  if v = d.committed id then { d with drove := { d.drove with declPending := dropAll ch d.drove.declPending } }
  else
    let r := d.ownCommit none [(id, v)] fails
    let l := if r.2 = 0 then dropAll ch r.1.drove.declPending else addOnce ch r.1.drove.declPending
    { r.1 with drove := { r.1.drove with declPending := l } }
/-- AUTO_DECLARE of a channel: with AUTO_DECLARE at 1, or for a channel die that has lost all its links. -/
def execAutoDeclare (ch : Chan) (fails : TallyFails) (s : State) : Out :=
  s.apply fun d => if d.cfgv 0x014 1 == 1 || d.dieLinkDown (ch.val / 32) then d.declare ch.val fails else d
/-- DECLARE_RETRY: every declaration that waits is tried again. -/
def execDeclareRetry (fails : TallyFails) (s : State) : Out :=
  s.apply fun d => d.drove.declPending.foldl (fun d ch => d.declare ch fails) d

/-- A drove's members on declared dies take MSTATE 0x04. A drove that still fills leaves them out of its later rows: END_ROW is the last row
they take part in. -/
def Dev.declareDrove (d : Dev) (serial : Nat) (lost : List Nat) : Dev :=
  match d.drv? serial with
  | none => d
  | some x =>
    let end_ := fun (i : Nat) =>
      if 5 ≤ x.state ∨ (x.member i).mstate = 3 then (x.member i).endRow
      else if (d.unit? serial x.nextRow i).any UnitSt.folded then x.nextRow else x.nextRow - 1
    let x1 := lost.foldl (fun (y : Drove) i => { y with members := y.members.set i { y.member i with mstate := 4, endRow := end_ i } }) x
    let d1 := (d.setDrove x1).writeHeader serial
    let d2 := if x.state = 2 then lost.foldl (fun d i => d.replaceMember serial i) d1 else d1
    if x.state = 2 ∧ x1.active.length < 8 then d2.closeEarly serial else d2.pumpDrove serial
/-- DECLARATION_APPLY: every drove that is not Released; passes that write into declared dies are abandoned. -/
def Dev.declApply (d : Dev) (ch : Nat) : Dev :=
  let d1 := d.drove.droves.foldl (fun d e =>
    let x := e.2
    let lost := (x.dataIdx ++ x.parityIdx).filter (fun i => (x.member i).mstate != 4 && (x.member i).die / 32 == ch && d.dieFailed (x.member i).die)
    if x.state = 7 ∨ lost = [] then d else d.declareDrove e.1 lost) d
  d1.dropPasses (fun p => d1.dieFailed p.die)

/-! ### Margins (R310, R317) -/

/-- Levels left in row r of a Closed drove, less its declared data members, shifted up by 32. -/
def Drove.rowMargin (x : Drove) (r : Nat) : Nat :=
  (x.parityIdx.filter (fun i => (x.member i).mstate != 4 && !x.absent r i)).length + 32
    - (x.dataIdx.filter (fun i => (x.member i).mstate == 4 && !x.absent r i)).length
/-- Lowest margin at any position. -/
def Drove.margin (x : Drove) : Nat := (List.range x.w).foldl (fun m r => Nat.min m (x.rowMargin r)) 64
/-- A Closed drove has a position whose losses equal its levels (DROVE.MFAIL.NOMARGIN). -/
def Dev.noMargin (d : Dev) : Bool := d.drove.droves.any (fun e => e.2.state == 5 && (e.2.dataIdx ++ e.2.parityIdx).any (fun i => (e.2.member i).mstate == 4)
  && decide (e.2.margin ≤ 32))
/-- The causes of SMART critical warning bit 2 that R317 names, with the losses that other rules record. -/
def Dev.integrityWarn (d : Dev) : Bool := d.noMargin || d.drove.integrityLost || d.drove.integrityNs != []
/-- Where bit 2 has become set, the SMART event goes to the controllers whose Asynchronous Event Configuration permits it (R317; the bit of
feature 0x0B and the event's numbers as NVMe lays them out, PRESUMED, assumption log 30). -/
def Dev.warnFrom (d : Dev) (was : Bool) : Dev :=
  if was || !d.integrityWarn then d
  else d.enabledCtrls.foldl (fun (x : Dev) k => if bitOf ((x.ctrl k).features.get 0 0x0B) 2 then x.asyncEvent k 1 0 2 else x) d
/-- DECLARATION_APPLY of a channel. -/
def execDeclarationApply (ch : Chan) (s : State) : Out := s.apply fun d => (d.declApply ch.val).warnFrom d.integrityWarn
/-- Failed members that are rebuilt: those whose drove was Closed when their die was declared. -/
def Drove.rebuildable (x : Drove) : List Nat :=
  if x.state ≠ 5 then [] else (x.dataIdx ++ x.parityIdx).filter (fun i => (x.member i).mstate == 4 && (x.member i).endRow == 0xFFFF)
/-- Members of a drove that wait for a pass. -/
def Dev.waiting (d : Dev) (x : Drove) : List Nat :=
  x.rebuildable.filter (fun i => !d.drove.passes.any (fun p => p.serial == x.serial && p.member == i))
/-- The policy of a group is spare-and-rebuild. -/
def Dev.rebuilds (d : Dev) (grp : Nat) : Bool := d.cfgv 0x014 (0x10 + grp) == 1

/-! ### Spares (R307, R309) -/

/-- The spare block for a member of a drove: the lowest pool die of the group whose channel holds no other member and none of the blocks
chosen already, with a free, erased block. -/
def Dev.spareFind (d : Dev) (x : Drove) (i : Nat) (taken : List Nat) : Option (Nat × Nat) :=
  let others := (((x.dataIdx ++ x.parityIdx).filter (· != i)).map (fun j => (x.member j).die / 32)) ++ taken
  d.liveDies.findSome? (fun die =>
    if !d.inGroup x.group (die / 32) ∨ !d.poolDie die ∨ others.contains (die / 32) ∨ d.chanQuiesced (die / 32) then none
    else (d.pickBlock die false).map (fun g => (die, g)))
/-- Passes for the members of a drove that a spare qualifies for. -/
def Dev.newPasses (d : Dev) (x : Drove) : List RebuildPass :=
  (d.waiting x).foldl (fun (ps : List RebuildPass) i =>
    match d.spareFind x i ((d.drove.passes.filter (fun p => p.serial == x.serial)).map (fun p => p.die / 32) ++ ps.map (fun p => p.die / 32)) with
    | some b => ps ++ [{ serial := x.serial, member := i, die := b.1, grp := b.2, row := 0, verified := false }]
    | none => ps) []
/-- A member has no qualifying spare (DROVE.REBUILD.WAITSPARE). -/
def Dev.waitSpare (d : Dev) : Bool := d.drove.droves.any (fun e => d.rebuilds e.2.group && (d.waiting e.2).any (fun i => (d.spareFind e.2 i []).isNone))
/-- The drove that R310 takes next in a group. -/
def Dev.nextRebuild (d : Dev) (grp : Nat) : Option Drove :=
  let xs := (d.drove.droves.map (fun e => e.2)).filter (fun x => x.group == grp && d.newPasses x != []
    && !d.drove.passes.any (fun p => p.serial == x.serial))
  lowestBy Drove.margin xs

/-! ### Passes (R311, Table 11-2) -/

/-- The codeword of a failed member at a position: a data member's reconstructed, a parity member's computed again. -/
def Dev.rebuiltCw (d : Dev) (bad : List Nat) (x : Drove) (r i k : Nat) : Option (Bytes × Bytes) :=
  if i < 30 then (if x.excluded r i then some (padCw.data, padCw.spare) else d.rebuildCw bad x r i k)
  else
    let l := if i = 30 then PLevel.p else PLevel.q
    let ws := x.dataIdx.map (fun j => (j, match d.memberWord bad x r j k with
      | some w => some w
      | none => (d.rebuildCw bad x r j k).map (fun (c : Bytes × Bytes) => infoWord c.1 c.2)))
    if ws.any (fun e => e.2.isNone) then none
    else
      let w := ws.foldl (fun acc e => xorBytes acc (scaleBytes (coefOf x.k l e.1) (e.2.getD []))) (zeros 4128)
      some (w.take 4096, if i = 30 then spSetKind (sliceOf w 4096 32) 5 else sliceOf w 4096 32)
/-- Programs a row of a member into its spare block; none when a position cannot be rebuilt. -/
def Dev.passRow (d : Dev) (bad : List Nat) (x : Drove) (p : RebuildPass) : Option Dev :=
  let cws := (List.range 48).map (fun k => d.rebuiltCw bad x p.row p.member k)
  if cws.any Option.isNone then none
  else
    let first := ((cws.getD 0 none).getD ([], [])).2
    let slot := if p.member < 30 ∧ spKind first = 0 then d.keySlotFor (spNsid first) (spWsn first) else 0
    let d1 := (List.range 48).foldl (fun d k =>
      let c := (cws.getD k none).getD ([], [])
      let key := d.unitKey p.die p.grp p.row k
      d.putCw key { data := c.1, spare := c.2, sealed := some ⟨(d.slot slot).content, key⟩, cond := .good }) d
    some { d1 with drove := { d1.drove with mediaBytes := d1.drove.mediaBytes + 196608 } }
/-- Replaces the pass of a member. -/
def Dev.setPass (d : Dev) (p : RebuildPass) : Dev :=
  { d with drove := { d.drove with passes := d.drove.passes.map (fun q => if q.serial = p.serial ∧ q.member = p.member then p else q) } }
/-- One step of a drove's pass: its next row in every spare block, or the verify of the blocks whose rows are done. -/
def Dev.passStep (d : Dev) (x : Drove) (bad : List Nat) (fails : Nat) : Dev :=
  let ps := d.drove.passes.filter (fun p => p.serial == x.serial && !p.verified)
  ps.foldl (fun d p =>
    if (d.media.drvs.get DrvSt.init (p.die / 128)).quiesced then d
    else if p.row < x.w then
      match d.passRow bad x p with
      | some d1 => d1.setPass { p with row := p.row + 1 }
      | none => d.dropPasses (fun q => q.serial == x.serial)
    else if bitOf fails p.member then
      let d1 := d.retireBlock p.die p.grp 3 x.serial
      { d1 with drove := { d1.drove with passes := d1.drove.passes.filter (fun q => !(q.serial == p.serial && q.member == p.member)) } }
    else d.setPass { p with verified := true }) d
/-- MEMBER_REBUILD_PASS of a drove: it begins a pass in R310's order while fewer than REBUILD_PAR droves of the group are in passes, or takes
the next step of the pass. -/
def Dev.rebuildPass (d : Dev) (serial : Nat) (bad : List Nat) (fails : Nat) : Dev :=
  match d.drv? serial with
  | none => d
  | some x =>
    let mine := d.drove.passes.filter (fun p => p.serial == serial)
    if d.drove.stopped ∨ !d.rebuilds x.group ∨ !d.rebuildOn ∨ d.mapc.rbPhase ≠ 0 then d
    else if mine != [] then d.passStep x bad fails
    else
      let others := d.drove.passes.foldl (fun (l : List Nat) p =>
        if (d.drv? p.serial).any (fun y => y.group == x.group) then addOnce p.serial l else l) []
      if d.cfgv 0x014 0x22 ≤ others.length ∨ ((d.nextRebuild x.group).map (fun y => y.serial)) ≠ some serial then d
      else
        let ps := d.newPasses x
        let d1 := ps.foldl (fun d p => d.openBlk p.die p.grp) d
        { d1 with drove := { d1.drove with passes := d1.drove.passes ++ ps } }
/-- MEMBER_REBUILD_PASS: the drove, the slots that do not decode, and the members whose spare block fails its verify. -/
def execMemberRebuildPass (serial : W32) (bad : List (BitVec 38)) (fails : W32) (s : State) : Out :=
  s.apply fun d => d.rebuildPass serial.toNat (bad.map BitVec.toNat) fails.toNat

/-- The map entries of a member's slots are updated to the spare block, each only while it still names the failed slot, with its TYPE kept;
reads already looked up go to the spare slot (R312). -/
def Dev.switchEntries (d : Dev) (x : Drove) (i : Nat) (p : RebuildPass) : Dev :=
  let m := x.member i
  let moved := fun (key : Nat) =>
    let u := d.unslot key
    if key / 2 ^ 26 = m.die ∧ u.1 = m.grp then some (d.unitKey p.die p.grp u.2.1 u.2.2) else none
  let y := { x with members := x.members.set i { m with die := p.die, grp := p.grp } }
  let d1 := (d.memberEntries [] y i).foldl (fun d e =>
    let old := d.unitKey m.die m.grp e.1 e.2.1
    let new := d.unitKey p.die p.grp e.1 e.2.1
    if spKind e.2.2 = 1 then
      { d with drove := { d.drove with tombs := d.drove.tombs.map (fun t => if t.at_ = some old then { t with at_ := some new } else t) } }
    else
      let diu := d.iuBase (spNsid e.2.2) + spLiu e.2.2
      let r := d.mapUpdateIf diu (mapEntry (entType (d.mapPeek diu)) 0 0 + new) old
      if r.2 then (r.1.subValid (mapEntry 1 0 0 + old)).addValid new else r.1) d
  { d1 with nvme := { d1.nvme with pens := d1.nvme.pens.mapVals (fun _ q => { q with ius := q.ius.map (fun j =>
      if 2 ≤ j.state ∨ entType j.entry = 0 then j
      else match moved (entKey j.entry) with
        | some k => { j with entry := mapEntry (entType j.entry) 0 0 + k }
        | none => j) }) } }
/-- MEMBER_SWITCH: the header names the spares, then the entries move (steps 4 and 5). It waits for an erased lamb slot. -/
def Dev.memberSwitch (d : Dev) (serial : Nat) : Dev :=
  match d.drv? serial with
  | none => d
  | some x =>
    let ps := d.drove.passes.filter (fun p => p.serial == serial)
    if ps = [] ∨ ps.any (fun p => !p.verified) ∨ d.drove.stopped ∨ (d.lambFree []).isNone then d
    else
      let x1 := ps.foldl (fun (y : Drove) p => { y with members := y.members.set p.member { y.member p.member with die := p.die, grp := p.grp, mstate := 5 } }) x
      let d1 := ps.foldl (fun (d : Dev) p =>
        let m := x.member p.member
        let b := d.setBlkState p.die p.grp 3
        let c := if p.member < 30 then (b.blkPut p.die p.grp 8 4 (d.blkWritten m.die m.grp)).blkPut p.die p.grp 0x18 8 (d.blkMin m.die m.grp) else b
        (if p.member < 30 then c.blkPut p.die p.grp 0x10 8 (x.closeFirst + p.member) else c).postInfo 6 (p.die * 2 ^ 32 + p.grp) 0 0x0D)
        ((d.setDrove x1).writeHeader serial)
      let d2 := ps.foldl (fun d p => if p.member < 30 then d.switchEntries x p.member p else d) d1
      { d2 with drove := { d2.drove with passes := d2.drove.passes.filter (fun p => p.serial != serial),
                                         switched := sat 0xFFFF (d2.drove.switched + ps.length) } }
/-- MEMBER_SWITCH of a drove. -/
def execMemberSwitch (serial : W32) (s : State) : Out := s.apply fun d => d.memberSwitch serial.toNat

/-! ### Evacuation (R316) -/

/-- Some position of a drove with a declared member cannot be reconstructed. -/
def Dev.beyond (d : Dev) (bad : List Nat) (x : Drove) : Bool :=
  (x.dataIdx.filter (fun i => (x.member i).mstate == 4)).any (fun i => (List.range x.w).any (fun r =>
    !x.absent r i && (List.range 48).any (fun k => (d.rebuildCw bad x r i k).isNone)))
/-- The IUs of the map that name a slot of a member and are in no entry list: namespace, LIU and slot. -/
def Dev.lostEntries (d : Dev) (x : Drove) (i : Nat) (es : List (Nat × Nat × Bytes)) : List (Nat × Nat × Nat) :=
  let m := x.member i
  let known := es.map (fun e => d.unitKey m.die m.grp e.1 e.2.1)
  d.namespaces.flatMap (fun n => (List.range (d.iuCount n)).filterMap (fun l =>
    let e := d.mapPeek (d.iuBase n + l)
    if (entType e = 1 ∨ entType e = 2) ∧ entKey e / 2 ^ 26 = m.die ∧ (d.unslot (entKey e)).1 = m.grp ∧ !known.contains (entKey e)
    then some (n, l, entKey e) else none))
/-- An entry of the lists is the current copy of its IU and cannot be recovered, or an IU of the map names a slot in no list: evacuation marks it. -/
def Dev.evacMarks (d : Dev) (bad : List Nat) (x : Drove) (lists : List (Nat × List (Nat × Nat × Bytes))) : Bool :=
  lists.any (fun l => l.2.any (fun e =>
    let m := x.member l.1
    let key := d.unitKey m.die m.grp e.1 e.2.1
    let old := d.mapPeek (d.iuBase (spNsid e.2.2) + spLiu e.2.2)
    spKind e.2.2 == 0 && entNames old key && entType old == 1 && (d.readIu bad (d.copySource key)).isNone)
    || d.lostEntries x l.1 l.2 != [])
/-- EVACUATION: every entry of every data member is copied; an IU that cannot be reconstructed is copied marked with its WSN, and one whose
entry is lost too with a new WSN. -/
def Dev.evacuate (d : Dev) (serial : Nat) (bad : List Nat) : Dev :=
  match d.drv? serial with
  | none => d
  | some x =>
    if x.state ≠ 5 ∨ d.drove.stopped ∨ d.validSum x = 0 ∨ !d.beyond bad x then d
    else
      let d0 := d.dropPasses (fun p => p.serial == serial)
      let lists := x.dataIdx.map (fun i => (i, d0.memberEntries bad x i))
      let marks := d0.evacMarks bad x lists
      let r := lists.foldl (fun (acc : Dev × Bool) e => if acc.2 then acc.1.copyMember bad .gc true x e.1 e.2 else acc) (d0, true)
      let q := lists.foldl (fun (acc : Dev × Bool) e =>
        if !acc.2 then acc
        else (acc.1.lostEntries x e.1 e.2).foldl (fun (a : Dev × Bool) l =>
          if a.2 then a.1.copyIu bad .gc x.stream l.2.2 0 l.2.1 l.1 l.2.2 true else a) acc) r
      if !q.2 then q.1
      else
        let first := ((x.dataIdx.find? (fun i => (x.member i).mstate == 4)).map (fun i => x.member i)).getD Member.init
        { q.1 with drove := { q.1.drove with evacuated := sat 0xFFFF (q.1.drove.evacuated + 1),
                                               integrityLost := q.1.drove.integrityLost || marks } }.post
          6 (first.die * 2 ^ 32 + first.grp) 0 0x0D 2
/-- EVACUATION of a drove, with the slots that do not decode. -/
def execEvacuation (serial : W32) (bad : List (BitVec 38)) (s : State) : Out :=
  s.apply fun d => (d.evacuate serial.toNat (bad.map BitVec.toNat)).warnFrom d.integrityWarn

/-! ### Quiesce (R318) -/

/-- The channels of a Drover core. -/
def drvChans (v : Nat) : List Nat := (List.range 4).map (fun j => 4 * v + j)
/-- Droves that are not Closed and have a member on a Drover core's channels. -/
def Dev.quiesceDroves (d : Dev) (v : Nat) : List Nat :=
  (d.openDroves.filter (fun x => (x.dataIdx ++ x.parityIdx).any (fun i => (x.member i).die / 128 == v))).map (fun x => x.serial)
/-- The core is quiesced once no such drove remains and no operation of its channels is in flight. -/
def Dev.quiesceCheck (d : Dev) (v : Nat) : Dev :=
  let y := d.media.drvs.get DrvSt.init v
  if !y.quiescing ∨ d.quiesceDroves v != [] ∨ d.media.dies.any (fun e => e.1 / 128 == v && e.2.ops != [])
      ∨ d.media.jobs.any (fun j => j.item.die / 128 == v && j.posted) then d
  else d.modDrv v (fun y => { y with quiesced := true })
/-- QUIESCE_REQUEST: e14 of the Drover core asks for it. -/
def Dev.quiesceRequest (d : Dev) (v : Nat) : Dev :=
  if !(d.core (9 + v)).e14 ∨ (d.drv v).quiescing then d
  else
    ((d.modCore (9 + v) (fun k => { k with e14 := false })).modDrv v (fun y =>
      { y with quiescing := true, quiesced := false, quiesceAt := d.now })).quiesceCheck v
/-- QUIESCE_REQUEST of Drover core v. -/
def execQuiesceRequest (v : Fin 32) (s : State) : Out := s.apply fun d => d.quiesceRequest v.val
/-- QUIESCE_CLOSE_TIMEOUT: QUIESCE_CLOSE_MS has passed; the droves that remain close at the end of their current row. -/
def Dev.quiesceTimeout (d : Dev) (v : Nat) : Dev :=
  let y := d.drv v
  if !y.quiescing ∨ y.quiesced then d
  else
    let d1 := d.advanceTo (y.quiesceAt + d.cfgv 0x014 0x30 * 1000000)
    ((d1.quiesceDroves v).foldl (fun d s => d.closeEarly s) d1).quiesceCheck v
/-- QUIESCE_CLOSE_TIMEOUT of Drover core v. -/
def execQuiesceCloseTimeout (v : Fin 32) (s : State) : Out := s.apply fun d => d.quiesceTimeout v.val

end Sys2Proof.Machine
end

