-- ==== Sys2Proof/Machine/Protect.lean ====
section
/-! DEFINITION. Protection information and LBA formats (R152, R153, R223, Tables 5-12 and 5-13). The layouts of protection information
and of PRINFO are those of the NVMe specification (PRESUMED, assumption log 30). -/

namespace Sys2Proof.Machine

/-- Data bytes and metadata bytes of an LBA format (Table 5-13). -/
def lbaFormat (f : Nat) : Nat × Nat :=
  match f with
  | 0 => (512, 0)
  | 1 => (512, 8)
  | 2 => (4096, 0)
  | 3 => (4096, 8)
  | _ => (4096, 16)

/-- One bit of the CRC-16 T10-DIF, polynomial 0x8BB7, most significant bit first. -/
def t10Bits : Nat → Nat → Nat
  | 0, c => c
  | n + 1, c => t10Bits n (if 0x8000 ≤ c then ((c * 2) % 0x10000) ^^^ 0x8BB7 else (c * 2) % 0x10000)
/-- The 16-bit guard of a sector. -/
def guard16 (b : Bytes) : Nat := b.foldl (fun c x => t10Bits 8 (c ^^^ (x.toNat * 256))) 0
/-- The 64-bit guard of a sector: the reflected CRC-64 of NVMe. -/
def guard64 (b : Bytes) : Nat :=
  (b.foldl (fun c x => crcBitsR 0x9A6C9329AC4BC9B5 8 (c ^^^ x.toNat)) (2 ^ 64 - 1)) ^^^ (2 ^ 64 - 1)

/-- The big-endian number in bytes of a list. -/
def beAt (b : Bytes) (o n : Nat) : Nat := ofLe ((sliceOf b o n).reverse)

/-- Protection information of a sector: guard, application tag, reference tag. -/
structure PiInfo where
  guard : Nat
  app : Nat
  ref : Nat
  deriving DecidableEq, Repr

/-- Reads protection information: 8 bytes with a 16-bit guard, 16 bytes with a 64-bit guard. -/
def PiInfo.ofBytes (wide : Bool) (b : Bytes) : PiInfo :=
  if wide then { guard := beAt b 0 8, app := beAt b 8 2, ref := beAt b 10 6 }
  else { guard := beAt b 0 2, app := beAt b 2 2, ref := beAt b 4 4 }
/-- The bytes of protection information. -/
def PiInfo.toBytes (wide : Bool) (p : PiInfo) : Bytes :=
  if wide then beBytes 8 p.guard ++ beBytes 2 p.app ++ beBytes 6 p.ref else beBytes 2 p.guard ++ beBytes 2 p.app ++ beBytes 4 p.ref
/-- The guard of a sector's data. -/
def piGuard (wide : Bool) (data : Bytes) : Nat := if wide then guard64 data else guard16 data

/-- What a command asks of protection information (PRINFO, tags). -/
structure PiReq where
  /-- Type of the namespace, 0 for none. -/
  kind : Nat
  wide : Bool
  pract : Bool
  chkGuard : Bool
  chkApp : Bool
  chkRef : Bool
  ref : Nat
  app : Nat
  mask : Nat
  deriving DecidableEq, Repr

/-- The request in a submission entry's dwords, for a namespace. -/
def piReqOf (ns : NsSt) (dw : Nat → Nat) : PiReq :=
  let wide := ns.lbaf == 4
  let w := dw 12
  { kind := ns.pi, wide := wide, pract := bitOf w 29, chkGuard := bitOf w 28, chkApp := bitOf w 27, chkRef := bitOf w 26,
    ref := if wide then dw 14 + dw 3 % 65536 * 2 ^ 32 else dw 14, app := dw 15 % 65536, mask := dw 15 / 65536 }
/-- The reference tag expected of sector i of the command. -/
def PiReq.refOf (q : PiReq) (i : Nat) : Nat := if q.kind = 3 then q.ref else (q.ref + i) % 2 ^ (if q.wide then 48 else 32)
/-- The protection information a controller inserts for sector i. -/
def PiReq.insert (q : PiReq) (i : Nat) (data : Bytes) : Bytes :=
  (PiInfo.toBytes q.wide { guard := piGuard q.wide data, app := q.app, ref := q.refOf i })
/-- Checks of a stored or received sector are disabled by its tags. -/
def PiReq.escaped (q : PiReq) (p : PiInfo) : Bool :=
  p.app == 0xFFFF && (q.kind != 3 || p.ref == 2 ^ (if q.wide then 48 else 32) - 1)
/-- The check of sector i: 0, or the status of the first check that fails (guard, application tag, reference tag). -/
def PiReq.check (q : PiReq) (i : Nat) (data pi : Bytes) : Nat :=
  let p := PiInfo.ofBytes q.wide pi
  if q.kind = 0 ∨ q.escaped p then 0
  else if q.chkGuard && p.guard != piGuard q.wide data then 0x282
  else if q.chkApp && (p.app &&& q.mask) != (q.app &&& q.mask) then 0x283
  else if q.chkRef && q.kind != 3 && p.ref != q.refOf i then 0x284
  else 0

/-- The metadata of sector j of a 4 KiB part in the 64 bytes the drove engine keeps for the part. -/
def partMeta (fmt : Nat) (hm : Bytes) (j : Nat) : Bytes := sliceOf hm (if (lbaFormat fmt).1 = 512 then 8 * j else 0) (lbaFormat fmt).2
/-- The 64 bytes with the metadata of sector j replaced. -/
def partMetaPut (fmt : Nat) (hm : Bytes) (j : Nat) (m : Bytes) : Bytes :=
  let o := if (lbaFormat fmt).1 = 512 then 8 * j else 0
  let n := (lbaFormat fmt).2
  if n = 0 then hm else hm.take o ++ padTo n m ++ hm.drop (o + n)
/-- The 64 bytes of a part that was never written: metadata of all ones (R217). -/
def partMetaNone (fmt : Nat) : Bytes :=
  let n := if (lbaFormat fmt).1 = 512 then 8 * (lbaFormat fmt).2 else (lbaFormat fmt).2
  List.replicate n 0xFF ++ zeros (64 - n)

end Sys2Proof.Machine
end

