-- ==== Sys2Proof/Machine/Hurdle.lean ====
section
/-! DEFINITION. Doorbells, fetch into pens, hurdles, the data-pointer walk, and entry to Held
(R135, R142 to R151, R154, R159 to R171, R424, R425; Tables 5-12, 6-1 to 6-5). -/

namespace Sys2Proof.Machine

/-! ### Namespaces as commands see them -/

/-- A namespace. -/
def Dev.nspace (d : Dev) (n : Nat) : NsSt := d.nvme.ns.get NsSt.init n
/-- Replaces a namespace. -/
def Dev.setNspace (d : Dev) (n : Nat) (x : NsSt) : Dev := { d with nvme := { d.nvme with ns := d.nvme.ns.set n x } }
/-- The committed attachment set of a namespace holds a controller (R135, R136). -/
def Dev.attached (d : Dev) (n k : Nat) : Bool :=
  decide (1 ≤ n) && decide (n ≤ 1024) && (d.nspace n).exists_ && bitOf (d.committed (cfgId (0x1FF + n) (1 + k / 64))) (k % 64)
/-- Data bytes of an LBA of a namespace. -/
def NsSt.lbaSize (n : NsSt) : Nat := (lbaFormat n.lbaf).1
/-- Metadata bytes of an LBA. -/
def NsSt.metaSize (n : NsSt) : Nat := (lbaFormat n.lbaf).2
/-- SLBA of an I/O command. -/
def PenSt.slba (p : PenSt) : Nat := p.dw 10 + p.dw 11 * 2 ^ 32
/-- 0-based block count of an I/O command. -/
def PenSt.nlb (p : PenSt) : Nat := p.dw 12 % 65536
/-- Metadata travels with the data of a command: there is some, and the controller does not insert or strip it. -/
def hostMeta (n : NsSt) (dw12 : Nat) : Bool := n.metaSize != 0 && !(bitOf dw12 29 && n.pi != 0)
/-- Bytes of one LBA in the data transfer of a command: with its metadata where that is extended. -/
def xferSize (n : NsSt) (dw12 : Nat) : Nat := n.lbaSize + (if n.extended && hostMeta n dw12 then n.metaSize else 0)
/-- Transfer length of an I/O command in bytes. -/
def PenSt.xferLen (p : PenSt) (n : NsSt) : Nat :=
  match p.opcode with
  | 0x01 => (p.nlb + 1) * xferSize n (p.dw 12)
  | 0x02 => (p.nlb + 1) * xferSize n (p.dw 12)
  | 0x05 => (p.nlb + 1) * xferSize n (p.dw 12)
  | 0x09 => (p.dw 10 % 256 + 1) * 16
  | 0x0D => 16
  | 0x0E => (p.dw 10 + 1) * 4
  | 0x11 => 16
  | 0x15 => 8
  | _ => 0
/-- Separate metadata length of a command. -/
def PenSt.metaLen (p : PenSt) (n : NsSt) : Nat :=
  if !n.extended && hostMeta n (p.dw 12) && [0x01, 0x02, 0x05].contains p.opcode then (p.nlb + 1) * n.metaSize else 0
/-- The ranges of a Dataset Management command: starting LBA and length (NVMe layout, PRESUMED, assumption log 30). -/
def dsmRanges (b : Bytes) (n : Nat) : List (Nat × Nat) := (List.range n).map (fun i => (leAt b (16 * i + 8) 8, leAt b (16 * i + 4) 4))
/-- The ranges of a pen's Dataset Management command. -/
def PenSt.ranges (p : PenSt) : List (Nat × Nat) := dsmRanges p.data (p.dw 10 % 256 + 1)
/-- The command deallocates. -/
def PenSt.deallocates (p : PenSt) : Bool := p.opcode == 0x09 && bitOf (p.dw 11) 2

/-! ### Doorbells (R142) -/

/-- A doorbell write: `cq` selects the completion queue's head doorbell. A value beyond the size or behind the other pointer posts an
asynchronous event and is ignored. -/
def Dev.doorbell (d : Dev) (k q : Nat) (cq : Bool) (v : Nat) : Dev :=
  let c := d.ctrl k
  let bad := fun (info : Nat) => d.asyncEvent k 0 info 1
  if !c.en ∨ d.evt.fatal then d
  else if cq then
    match c.cqs.get? q with
    | none => bad 0
    | some x =>
      if x.size ≤ v ∨ (x.tail + x.size - x.head) % x.size < (v + x.size - x.head) % x.size then bad 1
      else (d.setCtrl k { c with cqs := c.cqs.set q { x with head := v } }).flushDue k
  else
    match c.sqs.get? q with
    | none => bad 0
    | some x =>
      if x.size ≤ v ∨ (v + x.size - x.head) % x.size < (x.tail + x.size - x.head) % x.size then bad 1
      else d.setCtrl k { c with sqs := c.sqs.set q { x with tail := v } }
/-- DOORBELL_WRITE. -/
def execDoorbellWrite (k : Ctrl) (q : BitVec 16) (cq : Bool) (v : W32) (s : State) : Out :=
  s.apply fun d => d.doorbell k.val q.toNat cq v.toNat

/-! ### Pens (R145, R146) -/

/-- PEN_RESERVE and PEN_QUOTA of a controller. -/
def Dev.reserveOf (d : Dev) (k : Nat) : Nat := d.cfgv (0x600 + k) 2
/-- PEN_QUOTA, taken as PEN_RESERVE where it is below it. -/
def Dev.quotaOf (d : Dev) (k : Nat) : Nat := Nat.max (d.cfgv (0x600 + k) 1) (d.reserveOf k)
/-- Pens other than admin pens that a controller holds. -/
def Dev.heldPens (d : Dev) (k : Nat) : Nat := (d.nvme.pens.filter (fun e => e.2.ctrl == k && !e.2.adminPen)).length
/-- Admin pens in use. -/
def Dev.adminPens (d : Dev) : Nat := (d.nvme.pens.filter (fun e => e.2.adminPen)).length
/-- Pens of the shared pool left. -/
def Dev.sharedLeft (d : Dev) : Nat :=
  let pool := 16320 - ((List.range 128).map d.reserveOf).foldl (· + ·) 0
  pool - ((List.range 128).map (fun k => d.heldPens k - d.reserveOf k)).foldl (· + ·) 0
/-- The lowest free pen of a kind: admin pens are the last 64 (DESIGN CHOICE, assumption log 29). -/
def Dev.freePen (d : Dev) (admin : Bool) : Option Nat :=
  let first := if admin then 16320 else 0
  let n := if admin then 64 else 16320
  ((List.range n).map (· + first)).find? (fun p => (d.pen p).isNone)
/-- The pen a command takes: an admin pen for an admin command, then the reserve, then the shared pool within the quota. -/
def Dev.takePen (d : Dev) (k : Nat) (admin : Bool) : Option (Nat × Bool) :=
  match (if admin then d.freePen true else none) with
  | some p => some (p, true)
  | none =>
    if d.heldPens k < d.reserveOf k ∨ (0 < d.sharedLeft ∧ d.heldPens k < d.quotaOf k) then (d.freePen false).map (fun p => (p, false)) else none

/-! ### Checks 1 to 7 (Table 6-4) -/

/-- The I/O opcodes of Table 5-5. -/
def ioOpcodes : List Nat := [0x00, 0x01, 0x02, 0x05, 0x08, 0x09, 0x0C, 0x0D, 0x0E, 0x11, 0x15]
/-- The admin opcodes of Table 5-4. -/
def adminOpcodes : List Nat :=
  [0x00, 0x01, 0x02, 0x04, 0x05, 0x06, 0x08, 0x09, 0x0A, 0x0C, 0x0D, 0x10, 0x11, 0x15, 0x1C, 0x1D, 0x1E, 0x80, 0x81, 0x82, 0x84, 0xC1, 0xC4]
/-- Commands that name an LBA range. -/
def rangeOpcodes : List Nat := [0x01, 0x02, 0x05, 0x08, 0x0C]
/-- The placement handle a write names, as an index into the namespace's list; none where the directive type is not supported. -/
def PenSt.handleIdx (p : PenSt) : Option Nat :=
  match bitsOf (p.dw 12) 23 20 with
  | 0 => some 0
  | 2 => some (p.dw 13 / 65536)
  | _ => none
/-- A fetched Format NVM (0x80) or Sanitize (0x84) that has not completed and covers a namespace (R176). -/
def Dev.wholePending (d : Dev) (op n : Nat) : Bool :=
  d.nvme.pens.any (fun e => e.2.isAdmin && e.2.opcode == op && e.2.due.isNone && e.2.stage != .ready
    && (op == 0x84 || e.2.nsid == 0xFFFFFFFF || e.2.nsid == n))
/-- Check 3. -/
def Dev.fieldsBad (d : Dev) (p : PenSt) : Bool :=
  let n := d.nspace p.nsid
  let w0 := p.dw 0
  let op := p.opcode
  bitsOf w0 13 8 != 0 || bitsOf w0 15 14 == 3 || decide (0x200000 < p.xferLen n)
    || ([0x01, 0x02, 0x05, 0x08].contains op && (match bitsOf (p.dw 12) 19 16 with
        | 0 => false
        | 1 => p.dw 13 % 65536 != 0
        | _ => true))
    || (op == 0x01 && (match p.handleIdx with
        | some i => decide (i != 0 && n.handles.length ≤ i) || (i != 0 && n.handles == [])
        | none => true))
    || (op == 0x0D && (decide (2 < p.dw 10 % 8) || bitsOf (p.dw 10) 31 30 == 1))
    || (op == 0x11 && (decide (2 < p.dw 10 % 8) || bitsOf (p.dw 10) 15 8 == 0 || decide (6 < bitsOf (p.dw 10) 15 8)))
    || (op == 0x15 && (decide (1 < p.dw 10 % 8) || (p.dw 10 % 8 == 0 && (bitsOf (p.dw 10) 15 8 == 0 || decide (6 < bitsOf (p.dw 10) 15 8)))))
/-- The status of the first of checks 1 to 7 that an I/O command fails; 0 when it passes them. -/
def Dev.ioChecks (d : Dev) (p : PenSt) (clash : Bool) : Nat :=
  let op := p.opcode
  let n := d.nspace p.nsid
  let all := op == 0 && p.nsid == 0xFFFFFFFF
  if !ioOpcodes.contains op then scInvalidOpcode
  else if clash then scIdConflict
  else if d.fieldsBad p then scInvalidField
  else if !all && !d.attached p.nsid p.ctrl then scInvalidNs
  else if d.wholePending 0x84 p.nsid then 0x01D
  else if !all && d.wholePending 0x80 p.nsid then 0x084
  else if rangeOpcodes.contains op ∧ n.nsze < p.slba + p.nlb + 1 then 0x080
  else if op = 0x09 ∧ p.ranges.any (fun r => decide (n.nsze < r.1 + r.2)) then 0x080
  else 0
/-- The status of the checks an admin command meets when it is fetched; 0 when it passes them. -/
def adminChecks (p : PenSt) (clash : Bool) : Nat :=
  if !adminOpcodes.contains p.opcode then scInvalidOpcode
  else if clash then scIdConflict
  else if bitsOf (p.dw 0) 15 8 ≠ 0 then scInvalidField
  else 0

/-! ### Hurdles (R159 to R162) -/

/-- IUs that a range of LBAs of a namespace touches, first and last (R160). -/
def Dev.iuRange (d : Dev) (n : NsSt) (slba count : Nat) : Nat × Nat :=
  let u := d.iuKib * 1024
  (slba * n.lbaSize / u, ((slba + count) * n.lbaSize - 1) / u)
/-- The hurdle kind, range and namespace of a command; none for a command that takes no hurdle (Table 6-1, R161). -/
def Dev.hurdleOf (d : Dev) (p : PenSt) : Option (Nat × Nat × Nat × Nat) :=
  let n := d.nspace p.nsid
  let ns := if p.nsid = 0xFFFFFFFF then 0xFFFF else p.nsid
  if p.isAdmin then (if p.opcode = 0x80 then some (4, 0, ones64, ns) else if p.opcode = 0x84 then some (4, 0, ones64, 0xFFFF) else none)
  else
    let r := d.iuRange n p.slba (p.nlb + 1)
    match p.opcode with
    | 0x00 => some (3, 0, ones64, ns)
    | 0x01 => some (2, r.1, r.2, ns)
    | 0x02 => some (1, r.1, r.2, ns)
    | 0x05 => some (1, r.1, r.2, ns)
    | 0x08 => some (2, r.1, r.2, ns)
    | 0x0C => some (1, r.1, r.2, ns)
    | 0x09 =>
      if !p.deallocates then none
      else
        let rs := p.ranges.map (fun e => d.iuRange n e.1 (Nat.max e.2 1))
        some (2, rs.foldl (fun m e => Nat.min m e.1) ones64, rs.foldl (fun m e => Nat.max m e.2) 0, ns)
    | 0x0D => some (4, 0, ones64, ns)
    | 0x11 => some (4, 0, ones64, ns)
    | 0x15 => some (4, 0, ones64, ns)
    | _ => none
/-- Two hurdles overlap (R162). -/
def HurdleSt.overlaps (a b : HurdleSt) : Bool :=
  (a.nsid == b.nsid || a.nsid == 0xFFFF || b.nsid == 0xFFFF) && decide (a.first ≤ b.last) && decide (b.first ≤ a.last)
/-- The younger kind waits for the older (Table 6-2). -/
def waitsFor (younger older : Nat) : Bool :=
  match younger with
  | 1 => older == 2 || older == 4
  | 2 => older == 1 || older == 2 || older == 4
  | 3 => older == 2 || older == 4
  | _ => true
/-- Places the hurdle of pen p; its blockers are computed once, against every live entry (R165). -/
def Dev.placeHurdle (d : Dev) (p : Nat) (x : PenSt) (h : Nat × Nat × Nat × Nat) : Dev :=
  let e : HurdleSt := { fetch := x.fetch, first := h.2.1, last := h.2.2.1, nsid := h.2.2.2, cntlid := x.ctrl + 1, kind := h.1, state := 1,
                        waits := [], placedAt := d.now, longPosted := false }
  let ws := (d.nvme.hurdles.filter (fun o => o.2.overlaps e && waitsFor e.kind o.2.kind)).map (fun o => o.1)
  { d with nvme := { d.nvme with hurdles := d.nvme.hurdles.set p { e with waits := ws },
                                 waits := sat 0xFFFFFFFF (d.nvme.waits + bit (ws != [])) } }
/-- Frees the hurdle of a pen: no entry waits for it any longer. -/
def Dev.freeHurdle (d : Dev) (p : Nat) : Dev :=
  { d with nvme := { d.nvme with hurdles := (d.nvme.hurdles.erase p).mapVals (fun _ h => { h with waits := dropAll p h.waits }) } }

/-! ### Fetch (R143 to R146) -/

/-- The front end may fetch from a queue of a controller. -/
def Dev.mayFetch (d : Dev) (k q : Nat) : Bool :=
  let c := d.ctrl k
  c.en && c.rdy && c.online && !d.moversHalted k && !d.nvme.fetchStopped && !d.postingStopped &&
    (match c.sqs.get? q with
     | some x => x.head != x.tail && x.deleting.isNone
     | none => false)
/-- COMMAND_FETCH: the entry at the queue's head goes into a pen with the next fetch number; the checks before the hurdle are made, and a
hurdle is placed. Where no pen is free the controller's fetch stops, which counts once until it fetches again (R146). `data` is the range
list of a Dataset Management command. -/
def Dev.fetch (d : Dev) (k q : Nat) (cdw : List Nat) (data : Bytes) : Dev :=
  let admin := q == 0
  if !d.mayFetch k q then d
  else match d.takePen k admin with
    | none =>
      let c := d.ctrl k
      if c.paused then d
      else { d with nvme := { d.nvme with pauses := sat 0xFFFFFFFF (d.nvme.pauses + 1), ctrls := d.nvme.ctrls.set k { c with paused := true } } }
    | some (p, ap) =>
      let c := d.ctrl k
      let cid := (cdw.getD 0 0) / 65536
      let clash := d.nvme.pens.any (fun e => e.2.ctrl == k && e.2.sq == q && e.2.cid == cid && e.2.stage != .orphan)
      let x0 : PenSt := { ctrl := k, sq := q, cid := cid, cdw := cdw, fetch := d.nvme.fetchNo, adminPen := ap, stage := .ready, walk := 0,
                          ius := [], data := data, retries := 0, due := none }
      let noData := if admin then false else x0.xferLen (d.nspace x0.nsid) == 0
      let x := { x0 with walk := bit noData }
      let sqs := match c.sqs.get? q with
        | some s => c.sqs.set q { s with head := if s.head + 1 < s.size then s.head + 1 else 0 }
        | none => c.sqs
      let d1 := d.setCtrl k { c with sqs := sqs, lastIo := if admin then c.lastIo else d.now, paused := false }
      let d2 := { d1 with nvme := { d1.nvme with fetchNo := d1.nvme.fetchNo + 1 } }
      let d3 := if admin then d2 else d2.ioWake k
      let st := if admin then adminChecks x clash else d3.ioChecks x clash
      let d4 := d3.setPen p x
      if st ≠ 0 then d4.complete p st 0
      else match d4.hurdleOf x with
        | some h => (d4.placeHurdle p x h).setPen p { x with stage := .waiting, walk := if admin then 1 else x.walk }
        | none => d4
/-- COMMAND_FETCH of the entry (16 dwords) of a queue. -/
def execCommandFetch (k : Ctrl) (q : BitVec 16) (cdw : List W32) (ranges : Bytes) (s : State) : Out :=
  s.apply fun d => d.fetch k.val q.toNat (cdw.map BitVec.toNat) ranges

/-! ### The data-pointer walk (R148 to R150, R170) -/

/-- The walk of PRP entries: status. The first is dword aligned, the others at page offset 0 (pages of CC.MPS). -/
def prpStatus (page : Nat) (es : List Nat) : Nat :=
  match es with
  | [] => 0
  | e :: t => if e % 4 ≠ 0 ∨ t.any (fun a => decide (a % page ≠ 0)) then 0x013 else 0
/-- The walk of SGL segments: status. Types: 0 Data Block, 1 Bit Bucket, 2 Segment, 3 Last Segment. The conditions are taken in the
order of Table 5-12 (DESIGN CHOICE, assumption log 31). -/
def sglStatus (read : Bool) (len mlen : Nat) (segs : List (List SglDesc)) (md : List SglDesc) : Nat :=
  let ds := segs.flatMap id
  let isSeg := fun (x : SglDesc) => x.kind.toNat == 2 || x.kind.toNat == 3
  let okType := fun (x : SglDesc) => x.sub == 0 && (x.kind.toNat == 0 || (x.kind.toNat == 1 && read) || isSeg x)
  let total := ((ds.filter (fun x => !isSeg x)).map (fun x => x.length.toNat)).foldl (· + ·) 0
  if !ds.all okType ∨ 1 < md.length ∨ md.any (fun x => x.kind != 0 || x.sub != 0) then 0x011
  else if segs.any (fun s => (s.dropLast).any isSeg)
      ∨ ((segs.zip (segs.drop 1)).any (fun e => (e.1.getLast?).any (fun x => x.kind.toNat == 3) && e.2.any isSeg)) then 0x00D
  else if 32 < segs.length ∨ 256 < ds.length then 0x00E
  else if total ≠ len then 0x00F
  else if (md.map (fun x => x.length.toNat)).foldl (· + ·) 0 ≠ mlen then 0x010
  else 0
/-- DATA_POINTER_WALK_END: the walk ends; a command that fails it leaves the table at once. -/
def Dev.walkEnd (d : Dev) (p : Nat) (w : WalkData) : Dev :=
  match d.pen p with
  | none => d
  | some x =>
    if x.walk ≠ 0 ∨ x.due.isSome ∨ (x.stage ≠ .ready ∧ x.stage ≠ .waiting) ∨ d.moversHalted x.ctrl then d
    else
      let n := d.nspace x.nsid
      let page := 4096 * 2 ^ bitsOf (d.ctrl x.ctrl).cc 10 7
      let st := match w with
        | .prp es => prpStatus page (es.map BitVec.toNat)
        | .sgl segs md => if x.isAdmin then scInvalidField else sglStatus (x.opcode == 2) (x.xferLen n) (x.metaLen n) segs md
      if st = 0 then d.setPen p { x with walk := 1 } else (d.freeHurdle p).complete p st 0
/-- DATA_POINTER_WALK_END of a pen, with what the walk read. -/
def execDataPointerWalkEnd (p : Pen) (w : WalkData) (s : State) : Out := s.apply fun d => d.walkEnd p.val w

/-! ### Held (R165, R171, R299, R425) -/

/-- Host identifier of a controller (feature 0x81); empty where none is set. -/
def Dev.hostId (d : Dev) (k : Nat) : Bytes := (d.ctrl k).featData.get [] 0x81
/-- The registrant of a controller's host on a namespace. -/
def Dev.registrant (d : Dev) (n k : Nat) : Option Registrant :=
  (d.nspace n).resv.regs.find? (fun r => r.ctrl == k || (r.hostId != [] && !allZero r.hostId && r.hostId == d.hostId k))
/-- Check 9: the reservation of a namespace lets a command of a controller run (types and groups as NVMe gives them, PRESUMED, log 30). -/
def Dev.resvAllows (d : Dev) (n k op : Nat) : Bool :=
  let r := (d.nspace n).resv
  let me := d.registrant n k
  let reads := [0x02, 0x05, 0x0C].contains op
  if op = 0x0E ∨ op = 0x0D then true
  else if op = 0x11 ∨ op = 0x15 then me.isSome
  else match r.rtype with
    | 0 => true
    | t =>
      let holder := me.isSome && (if t = 5 ∨ t = 6 then true else r.holder == me.map (fun x => x.ctrl))
      let exclusive := t == 2 || t == 4 || t == 6
      if holder then true
      else if (t = 3 ∨ t = 4 ∨ t = 5 ∨ t = 6) ∧ me.isSome then true
      else reads && !exclusive
/-- R425: the locking state and key binding of a namespace let a command run. -/
def Dev.lockAllows (d : Dev) (n : Nat) (x : PenSt) : Bool :=
  let r := d.tcg.ranges.get { rle := false, wle := false, rl := false, wl := false, lockOnReset := false } n
  let b := d.keyBind n
  let op := x.opcode
  let reads := [0x02, 0x05, 0x0C].contains op
  let writes := op == 0x01 || op == 0x08 || x.deallocates
  let key := match b.current with
    | some g => (d.slot g.slot).st != .empty
    | none => false
  if op = 0x00 ∨ op = 0x0D ∨ op = 0x0E ∨ op = 0x11 ∨ op = 0x15 then true
  else key && !(reads && r.rle && r.rl) && !(writes && r.wle && r.wl)
/-- The status of checks 9 and 10 and of R425 between them; 0 when the command may run. -/
def Dev.heldChecks (d : Dev) (x : PenSt) : Nat :=
  if x.isAdmin ∨ x.nsid = 0xFFFFFFFF then 0
  else if !d.resvAllows x.nsid x.ctrl x.opcode then 0x083
  else if !d.lockAllows x.nsid x then scAccessDenied
  else if (x.opcode = 0x01 ∨ x.opcode = 0x08 ∨ x.deallocates) ∧ d.readOnly then 0x280
  else 0
/-- HURDLE_HELD: no blocker is left and the walk has ended. -/
def Dev.hurdleHeld (d : Dev) (p : Nat) : Dev :=
  match d.pen p, d.nvme.hurdles.get? p with
  | some x, some h =>
    if h.state ≠ 1 ∨ h.waits != [] ∨ x.walk = 0 ∨ x.due.isSome then d
    else
      let us := (d.now - h.placedAt) / 1000
      let d1 := { d with nvme := { d.nvme with hurdles := d.nvme.hurdles.set p { h with state := 2 },
                                               maxWait := sat 0xFFFFFFFF (Nat.max d.nvme.maxWait us) } }
      let st := d1.heldChecks x
      let d2 := d1.setPen p { x with stage := .executing }
      if st = 0 then d2 else d2.complete p st 0
  | _, _ => d
/-- HURDLE_HELD of a pen. -/
def execHurdleHeld (p : Pen) (s : State) : Out := s.apply fun d => d.hurdleHeld p.val
/-- HURDLE_LONG_WAIT: a wait exceeds WAIT_EVENT_US. -/
def Dev.longWait (d : Dev) (p : Nat) : Dev :=
  match d.nvme.hurdles.get? p with
  | none => d
  | some h =>
    if h.state ≠ 1 ∨ h.longPosted then d
    else
      let lim := d.cfgv 3 1
      let d1 := d.advanceTo (h.placedAt + lim * 1000)
      { d1 with nvme := { d1.nvme with hurdles := d1.nvme.hurdles.set p { h with longPosted := true },
                                       longWaits := sat 0xFFFF (d1.nvme.longWaits + 1) } }.postInfo 3 p lim 0x0A
/-- HURDLE_LONG_WAIT of a pen's hurdle. -/
def execHurdleLongWait (p : Pen) (s : State) : Out := s.apply fun d => d.longWait p.val

end Sys2Proof.Machine
end

