-- ==== Sys2Proof/Machine/IoCmd.lean ====
section
/-! DEFINITION. I/O commands: writes and their placement, Write Zeroes and deallocation, Flush, reads and their dispatch, reconstruction
requests, Compare and Verify, and host read failures (R28 to R31, R151 to R158, R166 to R168, R217, R229, R232, R277, R328, R329, R337;
Tables 1-11 and 1-12). -/

namespace Sys2Proof.Machine

/-! ### Sectors and IUs -/

/-- IU size in bytes. -/
def Dev.iuBytes (d : Dev) : Nat := d.iuKib * 1024
/-- Number of sectors of an I/O command. -/
def PenSt.count (x : PenSt) : Nat := x.nlb + 1
/-- Data and metadata of sector i as the host gave them; with PRACT the metadata is inserted (R153). -/
def sectorOf (n : NsSt) (dw12 : Nat) (q : PiReq) (data md : Bytes) (i : Nat) : Bytes × Bytes :=
  let x := xferSize n dw12
  let b := padTo n.lbaSize (sliceOf data (i * x) n.lbaSize)
  let m := if q.pract && q.kind != 0 then q.insert i b
    else if n.extended then sliceOf data (i * x + n.lbaSize) n.metaSize
    else sliceOf md (i * n.metaSize) n.metaSize
  (b, padTo n.metaSize m)
/-- Puts a sector at a byte offset of an IU: the IU's data and its 64 bytes of metadata a part. -/
def putSector (fmt : Nat) (iu : Bytes × Bytes) (off : Nat) (data md : Bytes) : Bytes × Bytes :=
  let p := off / 4096
  let j := off % 4096 / (lbaFormat fmt).1
  (iu.1.take off ++ data ++ iu.1.drop (off + data.length),
   iu.2.take (64 * p) ++ partMetaPut fmt (sliceOf iu.2 (64 * p) 64) j md ++ iu.2.drop (64 * p + 64))
/-- The sector at a byte offset of an IU. -/
def getSector (fmt : Nat) (iu : Bytes × Bytes) (off : Nat) : Bytes × Bytes :=
  let p := off / 4096
  (sliceOf iu.1 off (lbaFormat fmt).1, partMeta fmt (sliceOf iu.2 (64 * p) 64) (off % 4096 / (lbaFormat fmt).1))
/-- An IU that was never written. -/
def Dev.blankIu (d : Dev) (fmt : Nat) : Bytes × Bytes := (zeros d.iuBytes, (List.range d.iuParts).flatMap (fun _ => partMetaNone fmt))
/-- The IU a slot holds is marked in staging (R326, R328). -/
def Dev.stagedMark (d : Dev) (key : Nat) : Bool :=
  let u := d.unslot key
  match d.ownerOf (key / 2 ^ 26) u.1 with
  | none => false
  | some (x, i) => match d.unit? x.serial u.2.1 i with
    | none => false
    | some t => ((t.cws.get? u.2.2).map (fun c => c.marked || bitOf (spTag c.spare) 6)).getD false
/-- The current copy of an IU; none when it is marked or cannot be recovered. -/
def Dev.currentIu (d : Dev) (bad : List Nat) (nsid liu : Nat) : Option (Bytes × Bytes) :=
  let e := d.mapPeek (d.iuBase nsid + liu)
  match entType e with
  | 0 => some (d.blankIu (d.nspace nsid).lbaf)
  | 1 => if d.stagedMark (entKey e) then none else (d.readIu bad (entKey e)).map (fun c => (c.1, c.2.1))
  | _ => none
/-- An IU can neither be decoded nor reconstructed: a mark is created, its entry becomes TYPE 0b10, its block is marked (R31, R337). -/
def Dev.iuLost (d : Dev) (diu key : Nat) : Dev :=
  ((d.createMark 6 (slotObj key)).mapUpdateIf diu (mapEntry 2 0 0 + key) key).1.markRetire key

/-! ### Placement (Table 1-11 step 4; R273, R277) -/

/-- An IU to place, or a range to deallocate (state 4: `liu` the first IU, `diu` the count). -/
def IuJob.new (liu : Nat) (st : Nat) (iu : Bytes × Bytes) : IuJob :=
  { diu := 0, liu := liu, entry := 0, epoch := none, ticket := none, state := st, data := iu.1, hmeta := iu.2 }
/-- The placement stream of a command (R154). -/
def Dev.streamOf (d : Dev) (x : PenSt) : Nat :=
  let hs := (d.nspace x.nsid).handles
  if x.opcode = 0x01 then hs.getD ((x.handleIdx).getD 0) 0 else hs.getD 0 0
/-- Why placement stops: 0 it goes on, 1 at the floor or for want of room, 2 at TOMB_LIMIT. -/
def Dev.placeJob (d : Dev) (x : PenSt) (p : Nat) (j : IuJob) : Dev × Nat :=
  let st := d.streamOf x
  if j.state = 4 then
    if d.tombFull then (d, 2)
    else
      let r := d.trim x.nsid j.liu j.diu st
      (r.1, if r.2 then 0 else 1)
  else if d.freePm (d.streamGroup st) < d.cfgv 0x012 0x12 then (d, 1)
  else
    let r := d.placeIu { nsid := x.nsid, liu := j.liu, wsn := 0, data := j.data, hmeta := j.hmeta, marked := false, raddle := false, stream := st,
                         use := .host, pen := some p, onlyIf := none }
    (r.1, if r.2 then 0 else 1)
/-- Places what a command still has to place; the completion posts once everything is placed (R28). -/
def Dev.placePen (d : Dev) (p : Nat) : Dev :=
  match d.pen p with
  | none => d
  | some x =>
    let r := x.ius.foldl (fun (acc : Dev × List IuJob × Nat) j =>
      if acc.2.2 ≠ 0 ∨ j.state = 2 then (acc.1, acc.2.1 ++ [j], acc.2.2)
      else
        let t := acc.1.placeJob x p j
        (t.1, acc.2.1 ++ [if t.2 = 0 then { j with state := 2 } else j], t.2)) (d, [], 0)
    let d1 := r.1.setPen p { x with ius := r.2.1 }
    match r.2.2 with
    | 0 =>
      let d2 := { d1 with nvme := { d1.nvme with writeCmds := d1.nvme.writeCmds + bit (x.opcode == 1),
                                                  writeUnits := d1.nvme.writeUnits + (if x.opcode = 1 then x.count * ((d.nspace x.nsid).lbaSize / 512) else 0) } }
      d2.complete p scOk 0
    | 2 => d1.modPen p (fun y => { y with stage := .tombWait })
    | _ =>
      let d2 := d1.modPen p (fun y => { y with stage := .placeWait })
      if x.stage = .placeWait then d2 else { d2 with drove := { d2.drove with hostWaits := sat 0xFFFF (d2.drove.hostWaits + 1) } }
/-- PLACEMENT_WAIT_END of a pen. -/
def execPlacementWaitEnd (p : Pen) (s : State) : Out :=
  s.apply fun d => if (d.pen p.val).any (fun x => x.stage == PenStage.placeWait) then d.placePen p.val else d
/-- TOMBSTONE_WAIT_END of a pen: records have been dropped. -/
def execTombstoneWaitEnd (p : Pen) (s : State) : Out :=
  s.apply fun d => if (d.pen p.val).any (fun x => x.stage == PenStage.tombWait) && !d.tombFull then d.placePen p.val else d

/-- A Held I/O command of an opcode whose execution has not begun. -/
def Dev.held (d : Dev) (p op : Nat) : Option PenSt :=
  match d.pen p with
  | some x => if !x.isAdmin ∧ x.opcode = op ∧ x.stage = .executing ∧ x.due.isNone then some x else none
  | none => none

/-! ### Write (R28, R151, R329) -/

/-- WRITE: the transfer of a Held write's data begins. -/
def execWrite (p : Pen) (s : State) : Out :=
  s.apply fun d => match d.held p.val 1 with
    | some x => d.setPen p.val { x with stage := .external }
    | none => d
/-- COMPARE: the transfer of a Held compare's data begins. -/
def execCompare (p : Pen) (s : State) : Out :=
  s.apply fun d => match d.held p.val 5 with
    | some x => d.setPen p.val { x with stage := .external }
    | none => d
/-- The IUs of a command with sectors put into them, each over its current copy where the command covers it in part; none when such a copy is
marked or lost. -/
def Dev.buildIus (d : Dev) (bad : List Nat) (x : PenSt) (secs : List (Bytes × Bytes)) : List (Nat × Option (Bytes × Bytes)) :=
  let n := d.nspace x.nsid
  let spu := d.iuBytes / n.lbaSize
  let first := x.slba / spu
  let last := (x.slba + x.count - 1) / spu
  (List.range (last + 1 - first)).map (fun i =>
    let l := first + i
    let lo := Nat.max (l * spu) x.slba
    let hi := Nat.min ((l + 1) * spu) (x.slba + x.count)
    let base := if hi - lo = spu then some (d.blankIu n.lbaf) else d.currentIu bad x.nsid l
    (l, base.map (fun b => (List.range (hi - lo)).foldl (fun b j =>
      let s := secs.getD (lo + j - x.slba) ([], [])
      putSector n.lbaf b ((lo + j - l * spu) * n.lbaSize) s.1 s.2) b)))
/-- Starts the placement of a command's IUs; with a marked copy among those it merges it ends with Unrecovered Read Error. -/
def Dev.startPlace (d : Dev) (p : Nat) (x : PenSt) (ius : List (Nat × Option (Bytes × Bytes))) (more : List IuJob) : Dev :=
  if ius.any (fun e => e.2.isNone) then
    let d1 := ius.foldl (fun d e =>
      let m := d.mapPeek (d.iuBase x.nsid + e.1)
      if e.2.isNone ∧ entType m = 1 ∧ !d.stagedMark (entKey m) then d.iuLost (d.iuBase x.nsid + e.1) (entKey m) else d) d
    d1.complete p 0x281 0
  else
    (d.setPen p { x with ius := ius.map (fun e => IuJob.new e.1 0 (e.2.getD ([], []))) ++ more }).placePen p

/-! ### Reads (R30, R166, R217, R285, R306) -/

/-- IUs of a read-type command. -/
def Dev.readRange (d : Dev) (x : PenSt) : Nat × Nat := d.iuRange (d.nspace x.nsid) x.slba x.count
/-- Looks up every IU of a read-type command, each with the read epoch it takes with its lookup; an entry under repair holds it back. -/
def Dev.startRead (d : Dev) (p : Nat) (x : PenSt) : Dev :=
  let r := d.readRange x
  let base := d.iuBase x.nsid
  let lius := (List.range (r.2 + 1 - r.1)).map (fun i => r.1 + i)
  if lius.any (fun l => d.underRepair (base + l)) then d
  else
    let a := lius.foldl (fun (acc : Dev × List IuJob × Bool) l =>
      let t := acc.1.mapLookup (base + l)
      match t.2 with
      | none => (t.1, acc.2.1, true)
      | some e =>
        let k := if entType e = 1 then (t.1.epochTake.1, some t.1.epochTake.2) else (t.1, none)
        (k.1, acc.2.1 ++ [{ IuJob.new l 0 ([], []) with diu := base + l, entry := e, epoch := k.2 }], acc.2.2)) (d, [], false)
    if a.2.2 then d else a.1.setPen p { x with stage := .media, ius := a.2.1 }
/-- READ: the lookups of a Held read. -/
def execRead (p : Pen) (s : State) : Out :=
  s.apply fun d => match d.held p.val 2 with
    | some x => d.startRead p.val x
    | none => d
/-- VERIFY: the lookups of a Held verify. -/
def execVerify (p : Pen) (s : State) : Out :=
  s.apply fun d => match d.held p.val 0x0C with
    | some x => d.startRead p.val x
    | none => d

/-- Changes IU i of a pen's command. -/
def Dev.modIu (d : Dev) (p i : Nat) (f : IuJob → IuJob) : Dev :=
  d.modPen p (fun x => match x.ius[i]? with
    | some j => { x with ius := x.ius.set i (f j) }
    | none => x)
/-- The data and metadata of sector i of a read-type command. -/
def Dev.readSector (d : Dev) (x : PenSt) (i : Nat) : Option (IuJob × Bytes × Bytes) :=
  let n := d.nspace x.nsid
  let spu := d.iuBytes / n.lbaSize
  match x.ius[(x.slba + i) / spu - x.slba / spu]? with
  | none => none
  | some j =>
    let s := getSector n.lbaf (j.data, j.hmeta) ((x.slba + i) % spu * n.lbaSize)
    some (j, s.1, s.2)
/-- The status of a read-type command whose IUs have all ended: Unrecovered Read Error first, then the protection checks of mapped IUs, then
the comparison. -/
def Dev.readStatus (d : Dev) (x : PenSt) : Nat :=
  let n := d.nspace x.nsid
  let q := piReqOf n x.dw
  if x.ius.any (fun j => j.state == 3) then 0x281
  else
    let pi := (List.range x.count).foldl (fun st i =>
      if st ≠ 0 then st else match d.readSector x i with
        | some (j, b, m) => if entType j.entry = 0 then 0 else q.check i b m
        | none => 0) 0
    if pi ≠ 0 then pi
    else if x.opcode = 5 ∧ (List.range x.count).any (fun i => match d.readSector x i with
        | some (_, b, m) =>
          let h := sectorOf n (x.dw 12) { q with pract := false } x.data (x.data.drop (x.count * xferSize n (x.dw 12))) i
          b != h.1 || (hostMeta n (x.dw 12) && m != h.2)
        | none => false) then 0x285
    else 0
/-- The sectors of the IUs that were recovered go to the host, with their metadata where it is transferred. -/
def Dev.deliver (d : Dev) (x : PenSt) : Dev :=
  let n := d.nspace x.nsid
  let sz := xferSize n (x.dw 12)
  (List.range x.count).foldl (fun d i => match d.readSector x i with
    | some (j, b, m) =>
      if j.state = 3 then d
      else
        let d1 := d.emit (.hostData x.ctrl x.cid (i * sz) (if sz = n.lbaSize then b else b ++ m))
        if !n.extended && hostMeta n (x.dw 12) then d1.emit (.hostMeta x.ctrl x.cid (i * n.metaSize) m) else d1
    | none => d) d
/-- Reconstruction has been asked for an IU of a pen. -/
def Dev.reconWaits (d : Dev) (p : Nat) : Bool := d.drove.recon.any (fun e => e.2.any (fun w => w.1 == p))
/-- The read epochs that a pen's IUs still hold are given back. -/
def Dev.dropEpochs (d : Dev) (x : PenSt) : Dev := (x.ius.filterMap (fun j => j.epoch)).foldl (fun (d : Dev) e => d.epochDrop e) d
/-- A read-type command whose IUs have all ended completes, unless its movers are halted (R157). One whose controller was reset ends with its
media operations (R146). -/
def Dev.finishRead (d : Dev) (p : Nat) : Dev :=
  match d.pen p with
  | none => d
  | some x =>
    if x.stage = .orphan then (if x.ius.all (fun j => j.ticket.isNone) && !d.reconWaits p then (d.dropEpochs x).releasePen p else d)
    else if x.stage ≠ .media ∨ x.due.isSome ∨ x.ius = [] ∨ x.ius.any (fun j => decide (j.state < 2)) ∨ d.moversHalted x.ctrl ∨ d.postingStopped then d
    else
      let st := d.readStatus x
      let d1 := if x.opcode = 2 then d.deliver x else d
      let d2 := { d1 with nvme := { d1.nvme with
        readCmds := d1.nvme.readCmds + bit (x.opcode == 2),
        readUnits := d1.nvme.readUnits + (if x.opcode = 2 then x.count * ((d.nspace x.nsid).lbaSize / 512) else 0) } }
      d2.complete p st 0
/-- An IU of a read ends: its epoch is given back, and the command completes with its last one. -/
def Dev.iuEnd (d : Dev) (p i : Nat) (st : Nat) (data hm : Bytes) : Dev :=
  match (d.pen p).bind (fun x => x.ius[i]?) with
  | none => d
  | some j =>
    let d1 := match j.epoch with
      | some e => d.epochDrop e
      | none => d
    (d1.modIu p i (fun j => { j with state := st, data := data, hmeta := hm, epoch := none, ticket := none })).finishRead p
/-- The read work item of an IU: the page's codewords up to the IU's last one. -/
def Dev.readItem (d : Dev) (key : Nat) (urgent : Bool) (tweak ticket : Nat) : WorkItem :=
  let u := d.unslot key
  let die := key / 2 ^ 26
  let last := u.2.2 % 4 + (if urgent then d.iuParts - 1 else 0)
  let spare := ((d.cwAt key).map (fun c => c.spare)).getD (zeros 32)
  { kind := 1, flags := bit urgent, die := die, block := 4 * u.1, page := 3 * u.2.1 + u.2.2 / 16, planes := 2 ^ (u.2.2 / 4 % 4),
    keyslot := d.unitKeySlot key spare, buf := 0, len := (Nat.min last 3 + 1) * 4096, tweak := tweak,
    stage := stagingBase + ticket % 1024 * 0x5000, ticket := 0 }
/-- READ_DISPATCH: an IU that is not mapped reads as zeros, a marked one ends unrecovered, a staged one is served from staging; any other goes
to its die, or to reconstruction when its die is not read. -/
def Dev.dispatch (d : Dev) (p i : Nat) : Dev :=
  match d.pen p with
  | none => d
  | some x =>
    match x.ius[i]? with
    | none => d
    | some j =>
      if x.stage ≠ .media ∨ j.state ≠ 0 then d
      else
        let blank := d.blankIu (d.nspace x.nsid).lbaf
        let key := entKey j.entry
        let u := d.unslot key
        match entType j.entry with
        | 0 => d.iuEnd p i 2 blank.1 blank.2
        | 1 =>
          let staged := match d.ownerOf (key / 2 ^ 26) u.1 with
            | some (y, m) => (d.unit? y.serial u.2.1 m).isSome
            | none => false
          if staged then
            if d.stagedMark key then d.iuEnd p i 3 [] []
            else match d.readIu [] key with
              | some c => d.iuEnd p i 2 c.1 c.2.1
              | none => d.iuEnd p i 3 [] []
          else if !d.readable (key / 2 ^ 26) then d.modIu p i (fun j => { j with state := 1, ticket := none })
          else
            let r := d.addJob (d.readItem key true key d.drove.ticket) (.hostRead p i) j.epoch
            r.1.modIu p i (fun j => { j with state := 1, ticket := some r.2 })
        | _ => d.iuEnd p i 3 [] []
/-- READ_DISPATCH of an IU of a pen's command. -/
def execReadDispatch (p : Pen) (iu : BitVec 13) (s : State) : Out := s.apply fun d => d.dispatch p.val iu.toNat

/-! ### Reconstruction (R31, R250, R306, R337) -/

/-- RECONSTRUCTION_REQUEST: an IU whose die read failed, or whose die is not read, is asked for. -/
def Dev.reconRequest (d : Dev) (p i : Nat) : Dev :=
  match (d.pen p).bind (fun x => x.ius[i]?) with
  | none => d
  | some j =>
    let e := (entKey j.entry, some (p, i))
    if j.state ≠ 1 ∨ j.ticket.isSome ∨ entType j.entry ≠ 1 ∨ d.drove.recon.contains e then d
    else { d with drove := { d.drove with recon := d.drove.recon ++ [e] } }
/-- RECONSTRUCTION_REQUEST of an IU of a pen's command. -/
def execReconstructionRequest (p : Pen) (iu : BitVec 13) (s : State) : Out := s.apply fun d => d.reconRequest p.val iu.toNat
/-- The DIU whose map entry names a slot, a marked entry apart. -/
def Dev.diuOf (d : Dev) (key : Nat) : Option Nat :=
  d.namespaces.findSome? (fun n => ((List.range (d.iuCount n)).find? (fun l =>
    d.mapPeek (d.iuBase n + l) == mapEntry 1 0 0 + key)).map (fun l => d.iuBase n + l))
/-- RECONSTRUCTION_COMPLETE: the IU of the oldest request is in staging, or it is lost. A position that waits for a quiesced Drover core, or
for a key slot to be loaded, waits on. -/
def Dev.reconComplete (d : Dev) (bad : List Nat) : Dev :=
  match d.drove.recon with
  | [] => d
  | (key, w) :: t =>
    let die := key / 2 ^ 26
    let quiet := d.media.drvs.any (fun e => e.2.quiesced)
    let d0 := { d with drove := { d.drove with recon := t, reconEvt := true } }
    -- a soft read of the slot itself has failed: it is taken as lost on its die
    match d.readIu (key :: bad) key with
    | some c =>
      let d1 := if d.readable die then d0.markRetire key else d0
      match w with
      | some (p, i) => d1.iuEnd p i 2 c.1 c.2.1
      | none => d1
    | none =>
      if quiet then { d with drove := { d.drove with recon := t ++ [(key, w)] } }
      else match w with
        | some (p, i) =>
          let diu := (((d.pen p).bind (fun x => x.ius[i]?)).map (fun j => j.diu)).getD 0
          (d0.iuLost diu key).iuEnd p i 3 [] []
        | none =>
          let iu := key - (d.unslot key).2.2 % d.iuParts
          match d.diuOf iu with
          | some diu => d0.iuLost diu iu
          | none => d0.markRetire key
/-- RECONSTRUCTION_COMPLETE, with the slots that do not decode. -/
def execReconstructionComplete (bad : List (BitVec 38)) (s : State) : Out := s.apply fun d => d.reconComplete (bad.map BitVec.toNat)

/-! ### Results of work items (R209, R337) -/

/-- Table 12-5: what the outcome of a die read does, whatever issued it. `soft` says that a soft read ran. -/
def Dev.readOutcome (d : Dev) (key status steps : Nat) (soft : Bool) : Dev :=
  let die := key / 2 ^ 26
  let g := (d.unslot key).1
  let idx := die * 4096 + g
  if status = 3 then d.modDie die (fun e => { e with uncorr := if e.uncorr.any (fun q => q.1 == g) then e.uncorr else e.uncorr ++ [(g, d.now)] })
  else if status ≤ 1 ∧ soft then
    let n := d.drove.softCounts.get 0 idx + 1
    let d1 := { d with drove := { d.drove with softCounts := d.drove.softCounts.set idx n } }
    if d.cfgv 0x016 5 ≤ n then d1.markRetire key else d1
  else if status ≤ 1 ∧ d.cfgv 0x016 4 < steps then
    { d with integ := { d.integ with recalDies := addOnce die d.integ.recalDies, recal := sat 0xFFFF (d.integ.recal + 1) } }
  else d
/-- The result of a host read's item. -/
def Dev.hostReadResult (d : Dev) (p i : Nat) (w : WorkItem) (status steps : Nat) (soft : Bool) : Dev :=
  match (d.pen p).bind (fun x => x.ius[i]?) with
  | none => d
  | some j =>
    if j.ticket ≠ some w.ticket then d
    else
      let key := entKey j.entry
      let d1 := d.readOutcome key status steps soft
      let u := d.unslot key
      if status ≤ 1 then
        let at_ := w.stage + u.2.2 % 4 * 4096
        let data := d.bytes at_ (4096 * d.iuParts)
        let fmt1 := (((d.pen p).map (fun x => (d.nspace x.nsid).lbaf)).getD 0) == 1
        let ovf := if fmt1 then ((d.readSlot [] (d.unitKey (key / 2 ^ 26) u.1 u.2.1 47)).map (fun c => c.1)).getD (zeros 4096) else zeros 4096
        let hm := (List.range d.iuParts).flatMap (fun q =>
          metaOf (d.bytes (w.stage + w.len + (u.2.2 % 4 + q) * 32) 32) ovf (u.2.2 + q))
        let sp := d.bytes (w.stage + w.len + u.2.2 % 4 * 32) 32
        -- a codeword whose KIND is not user data is unreadable (R222)
        if spKind sp ≠ 0 then ((d1.post 6 (slotObj key) 0 0x10 2).modIu p i (fun j => { j with ticket := none })).finishRead p
        else if bitOf (spTag sp) 6 ∨ d.markedRun at_ (4096 * d.iuParts) then d1.iuEnd p i 3 [] []
        else d1.iuEnd p i 2 data hm
      else (d1.modIu p i (fun j => { j with ticket := none })).finishRead p
/-- The blocks a NAND graze pass reads: the member blocks of every drove that was Closed or Sealed when the pass began, by serial (R336). -/
def Dev.grazeBlocks (d : Dev) : List (Nat × Nat × Nat) :=
  (d.drove.droves.filter (fun e => (e.2.state == 5 && d.integ.passStart.all (fun t => decide (e.2.closedAt ≤ t))) || e.2.state == 6)).flatMap (fun e =>
    (e.2.dataIdx ++ e.2.parityIdx).map (fun i => ((e.2.member i).die, (e.2.member i).grp, e.2.nextRow)))
/-- The result of a graze read: its outcome, the pass's progress, and the pass's end with the last word line of the last block. -/
def Dev.grazeResult (d : Dev) (key status steps : Nat) (soft : Bool) : Dev :=
  let d1 := d.readOutcome key status steps soft
  let u := d.unslot key
  let bs := d1.grazeBlocks
  let i := (bs.findIdx? (fun b => b.1 == key / 2 ^ 26 && b.2.1 == u.1)).getD 0
  let ended := decide (i + 1 = bs.length) && (bs[i]?).any (fun b => decide (b.2.2 ≤ u.2.1 + 1))
  let d2 := if status = 3 then { d1 with drove := { d1.drove with recon := d1.drove.recon ++ [(key, none)] } } else d1
  if ended then
    { d2 with integ := { d2.integ with nandPct := 0, nandLate := false, passes := sat 0xFFFF (d2.integ.passes + 1), passStart := none },
              drove := { d2.drove with softCounts := [] } }
  else { d2 with integ := { d2.integ with nandPct := if bs = [] then 0 else i * 100 / bs.length } }
/-- RESULT_POST: a Drover core posts a result and the drove engine consumes it. -/
def Dev.resultPost (d : Dev) (ticket : Nat) : Dev :=
  let soft := d.media.dies.any (fun e => e.2.ops.any (fun o => o.origin == .work ticket && o.desc.op == 9))
  let r := d.postResult ticket
  match r.2 with
  | none => r.1.pumpJobs
  | some (j, status, steps) =>
    let d1 := match j.kind with
      | .hostRead p i => r.1.hostReadResult p i j.item status steps soft
      | .unit serial row m => r.1.unitResult serial row m status
      | .erase die g serial => r.1.eraseResult die g serial status
      | .graze key => (match j.epoch with
        | some e => r.1.epochDrop e
        | none => r.1).grazeResult key status steps soft
    (d1.pumpJobs).quiesceCheck (j.item.die / 128)
/-- RESULT_POST of a ticket. -/
def execResultPost (ticket : W32) (s : State) : Out := s.apply fun d => d.resultPost ticket.toNat

/-- GRAZE_READ of a codeword: non-urgent, at most one queue position of its die, with a read epoch. -/
def Dev.grazeNand (d : Dev) (die slot : Nat) : Dev :=
  let key := slotKey die slot
  let u := d.unslot key
  let busy := d.media.jobs.any (fun j => j.item.die == die && (match j.kind with
    | .graze _ => true
    | _ => false))
  if busy ∨ !d.grazeOn ∨ !d.readable die ∨ !d.grazeBlocks.any (fun b => b.1 == die && b.2.1 == u.1 && decide (u.2.1 < b.2.2)) ∨ d.drove.stopped then d
  else
    let d1 := if d.integ.passStart.isNone then { d with integ := { d.integ with passStart := some d.now } } else d
    let t := d1.epochTake
    (t.1.addJob (t.1.readItem key false key t.1.drove.ticket) (.graze key) (some t.2)).1
/-- Progress of the DRAM pass, by the address it has reached (Table 12-10). -/
def Dev.grazeAt (d : Dev) (a : Nat) : Dev :=
  if dramBase ≤ a ∧ a < dramBase + d.dramSize then { d with integ := { d.integ with dramPct := (a - dramBase) * 100 / d.dramSize } } else d
/-- The memory at an address is grazed: graze may run, its paddock is On, and a DRAM channel is out of self-refresh (R335). -/
def Dev.grazed (d : Dev) (a : Nat) : Bool :=
  d.grazeOn && (if dramBase ≤ a then
      let n := (dramDecode d.pins.dramCfg d.dram.order a).ch
      (d.dch n).up && d.padOn (221 + n)
    else d.padOn (sramPad a))
/-- GRAZE_READ. -/
def execGrazeRead (t : GrazeTarget) (s : State) : Out :=
  s.apply fun d => match t with
    | .memory a f => if d.grazed a.toNat then (d.memFault a.toNat f).grazeAt a.toNat else d
    | .mapLine line word f => if d.grazeOn && d.padOn (169 + line.toNat % 16) then d.mapLineFault line.toNat word.val f else d
    | .nand die slot => d.grazeNand die.toNat slot.toNat

/-! ### Host data (R151, R153, R156, R158) -/

/-- The status of the protection checks of a write's sectors. -/
def piStatus (q : PiReq) (secs : List (Bytes × Bytes)) : Nat :=
  if q.pract then 0
  else (List.range secs.length).foldl (fun st i => if st ≠ 0 then st else q.check i (secs.getD i ([], [])).1 (secs.getD i ([], [])).2) 0
/-- HOST_DATA_ARRIVAL: a write's data is checked and its IUs are placed; a compare's data is kept and its lookups are made. `bad` lists slots
that do not decode when a part-written IU is merged. -/
def Dev.dataArrival (d : Dev) (p : Nat) (data md : Bytes) (bad : List Nat) : Dev :=
  match d.pen p with
  | none => d
  | some x =>
    if x.stage ≠ .external ∨ x.isAdmin ∨ (x.opcode ≠ 1 ∧ x.opcode ≠ 5) ∨ d.moversHalted x.ctrl ∨ d.postingStopped then d
    else
      let n := d.nspace x.nsid
      let b := padTo (x.count * xferSize n (x.dw 12)) data
      if x.opcode = 5 then
        let y := { x with data := b ++ padTo (x.metaLen n) md }
        (d.setPen p y).startRead p y
      else
        let q := piReqOf n x.dw
        let secs := (List.range x.count).map (fun i => sectorOf n (x.dw 12) q b md i)
        let st := piStatus q secs
        if st ≠ 0 then d.complete p st 0 else d.startPlace p x (d.buildIus bad x secs) []
/-- HOST_DATA_ARRIVAL of a pen's data and separate metadata. -/
def execHostDataArrival (p : Pen) (data md : Bytes) (bad : List (BitVec 38)) (s : State) : Out :=
  s.apply fun d => d.dataArrival p.val data md (bad.map BitVec.toNat)

/-- A completion time-out of a link: counted, and more than 16 within a second post a fatal record (R158). -/
def Dev.linkTimeout (d : Dev) (k : Nat) : Dev :=
  let i := d.linkOf k
  let l := d.links.get LinkSt.init i
  let recent := (l.recentTo.filter (fun t => decide (d.now < t + 1000000000))) ++ [d.now]
  let d1 := { d with links := d.links.set i { l with cplto := sat 0xFF (l.cplto + 1), recentTo := recent } }
  if recent.length = 17 then d1.post (0x010 + k / 64) k 5 0x07 3 else d1
/-- A host read of a command fails, or times out: it is retried up to HOST_RETRIES times, then the transfer stops. -/
def Dev.hostReadFail (d : Dev) (p : Nat) (timeout : Bool) : Dev :=
  match d.pen p with
  | none => d
  | some x =>
    let moving := (x.stage == .external && !x.isAdmin) || (x.walk == 0 && (x.stage == .waiting || x.stage == .ready))
    if !moving ∨ x.due.isSome ∨ d.moversHalted x.ctrl then d
    else
      let d1 := d.post (0x010 + x.ctrl / 64) x.ctrl (if timeout then 5 else 4) 0x07 2
      let d2 := if timeout then d1.linkTimeout x.ctrl else d1
      if x.retries < d.cfgv 6 3 then d2.setPen p { x with retries := x.retries + 1 }
      else (if x.stage = .external then d2 else d2.freeHurdle p).complete p scDataTransfer 0
/-- HOST_READ_FAILURE of a pen's transfer. -/
def execHostReadFailure (p : Pen) (timeout : Bool) (s : State) : Out := s.apply fun d => d.hostReadFail p.val timeout

/-! ### Flush, Write Zeroes, Dataset Management (R167, R168, R229, R232) -/

/-- FLUSH: no older overlapping write remains. -/
def execFlush (p : Pen) (s : State) : Out :=
  s.apply fun d => if (d.held p.val 0).isSome then d.complete p.val scOk 0 else d
/-- The IUs a byte range covers whole: first and count. -/
def Dev.wholeIus (d : Dev) (n : NsSt) (slba count : Nat) : Nat × Nat :=
  let u := d.iuBytes
  let a := (slba * n.lbaSize + u - 1) / u
  (a, (slba + count) * n.lbaSize / u - a)
/-- WRITE_ZEROES: with the deallocate bit the whole IUs are deallocated, unless records number TOMB_LIMIT; everything else is written as zeros. -/
def Dev.writeZeroes (d : Dev) (p : Nat) (bad : List Nat) : Dev :=
  match d.held p 8 with
  | none => d
  | some x =>
    let n := d.nspace x.nsid
    let q := piReqOf n x.dw
    let z := zeros n.lbaSize
    let secs := (List.range x.count).map (fun i => (z, if q.pract && q.kind != 0 then q.insert i z else zeros n.metaSize))
    let w := d.wholeIus n x.slba x.count
    let trim := bitOf (x.dw 12) 25 && decide (0 < w.2) && !d.tombFull
    let ius := d.buildIus bad x secs
    if trim then
      d.startPlace p x (ius.filter (fun e => decide (e.1 < w.1) || decide (w.1 + w.2 ≤ e.1))) [{ IuJob.new w.1 4 ([], []) with diu := w.2 }]
    else d.startPlace p x ius []
/-- WRITE_ZEROES of a pen. -/
def execWriteZeroes (p : Pen) (bad : List (BitVec 38)) (s : State) : Out := s.apply fun d => d.writeZeroes p.val (bad.map BitVec.toNat)
/-- DATASET_MANAGEMENT: each range's whole IUs are deallocated; without the deallocate attribute it has no effect. -/
def Dev.dataset (d : Dev) (p : Nat) : Dev :=
  match d.pen p with
  | none => d
  | some x =>
    if x.isAdmin ∨ x.opcode ≠ 9 ∨ x.due.isSome then d
    else if !x.deallocates then (if x.stage = .ready ∧ x.walk = 1 then d.complete p scOk 0 else d)
    else if x.stage ≠ .executing then d
    else
      let n := d.nspace x.nsid
      let jobs := x.ranges.filterMap (fun r =>
        let w := d.wholeIus n r.1 r.2
        if w.2 = 0 then none else some { IuJob.new w.1 4 ([], []) with diu := w.2 })
      (d.setPen p { x with ius := jobs }).placePen p
/-- DATASET_MANAGEMENT of a pen. -/
def execDatasetManagement (p : Pen) (s : State) : Out := s.apply fun d => d.dataset p.val

end Sys2Proof.Machine
end

