-- ==== Sys2Proof/Machine/Resv.lean ====
section
/-! DEFINITION. Reservations (R137, R171, R175; Tables 5-5 and 6-3). What each command does to the registrants and the holder follows the
NVMe specification that R132 names (PRESUMED, assumption log 30). -/

namespace Sys2Proof.Machine

/-- Replaces the reservation state of a namespace. -/
def Dev.setResv (d : Dev) (n : Nat) (r : ResvSt) : Dev := d.setNspace n { d.nspace n with resv := r }
/-- The reservation of a namespace is of an all-registrants type. -/
def ResvSt.allRegs (r : ResvSt) : Bool := r.rtype == 5 || r.rtype == 6
/-- A registrant holds the reservation. -/
def ResvSt.holds (r : ResvSt) (x : Registrant) : Bool := r.rtype != 0 && (r.allRegs || r.holder == some x.ctrl)
/-- A reservation notification (1 registration preempted, 2 released, 3 reservation preempted) for a controller, unless its mask bit is set. -/
def Dev.resvNote (d : Dev) (k n type : Nat) : Dev :=
  if bitOf ((d.ctrl k).features.get 0 (0x820000 + n)) type then d
  else (d.modCtrl k (fun c => { c with resvNotes := c.resvNotes ++ [(type, n)] })).asyncEvent k 6 0 0x80
/-- The reservation is released; other registrants of a registrants-only or all-registrants reservation are told. -/
def Dev.resvRelease (d : Dev) (n k : Nat) : Dev :=
  let r := (d.nspace n).resv
  let d1 := d.setResv n { r with holder := none, rtype := 0 }
  if 3 ≤ r.rtype then (r.regs.filter (fun x => x.ctrl != k)).foldl (fun d x => d.resvNote x.ctrl n 2) d1 else d1
/-- A Held reservation command of an opcode. -/
def Dev.resvCmd (d : Dev) (p op : Nat) : Option (PenSt × ResvSt × Option Registrant) :=
  (d.held p op).map (fun x => (x, (d.nspace x.nsid).resv, d.registrant x.nsid x.ctrl))
/-- Reservation Conflict. -/
def scConflict : Nat := 0x083

/-- RESERVATION_REGISTER with its 16 bytes: register, unregister, replace. -/
def Dev.resvRegister (d : Dev) (p : Nat) (b : Bytes) : Dev :=
  match d.resvCmd p 0x0D with
  | none => d
  | some (x, r, me) =>
    let w := x.dw 10
    let cr := leAt b 0 8
    let nr := leAt b 8 8
    let ptpl := match bitsOf w 31 30 with
      | 2 => false
      | 3 => true
      | _ => r.ptpl
    let keyOk := fun (m : Registrant) => bitOf w 3 || m.key == cr
    match w % 8, me with
    | 0, none =>
      let reg : Registrant := { ctrl := x.ctrl, hostId := d.hostId x.ctrl, key := nr }
      (d.setResv x.nsid { r with regs := r.regs ++ [reg], gen := r.gen + 1, ptpl := ptpl }).complete p scOk 0
    | 0, some m => if m.key = nr then (d.setResv x.nsid { r with ptpl := ptpl }).complete p scOk 0 else d.complete p scConflict 0
    | 1, some m =>
      if !keyOk m then d.complete p scConflict 0
      else
        let last := r.regs.all (fun y => y.ctrl == m.ctrl)
        let d1 := if r.holds m ∧ (!r.allRegs ∨ last) then d.resvRelease x.nsid x.ctrl else d
        let r1 := (d1.nspace x.nsid).resv
        (d1.setResv x.nsid { r1 with regs := r1.regs.filter (fun y => y != m), gen := r1.gen + 1, ptpl := ptpl }).complete p scOk 0
    | _, some m =>
      if !keyOk m then d.complete p scConflict 0
      else (d.setResv x.nsid { r with regs := r.regs.map (fun y => if y = m then { y with key := nr } else y), gen := r.gen + 1, ptpl := ptpl }).complete p scOk 0
    | _, none => d.complete p scConflict 0
/-- RESERVATION_REGISTER. -/
def execReservationRegister (p : Pen) (b : Bytes) (s : State) : Out := s.apply fun d => d.resvRegister p.val b

/-- Waiting commands of a preempted host on a namespace end (R175). -/
def Dev.preemptAbort (d : Dev) (n : Nat) (gone : List Registrant) : Dev :=
  let hits := d.nvme.pens.filter (fun e => e.2.nsid == n && !e.2.isAdmin && e.2.stage == PenStage.waiting && e.2.due.isNone
    && gone.any (fun g => g.ctrl == e.2.ctrl || (g.hostId != [] && !allZero g.hostId && g.hostId == d.hostId e.2.ctrl)))
  hits.foldl (fun d e => (d.freeHurdle e.1).complete e.1 0x01B 0) d
/-- RESERVATION_ACQUIRE with its 16 bytes: acquire, preempt, preempt and abort. -/
def Dev.resvAcquire (d : Dev) (p : Nat) (b : Bytes) : Dev :=
  match d.resvCmd p 0x11 with
  | none => d
  | some (x, r, me) =>
    let w := x.dw 10
    let t := bitsOf w 15 8
    let pr := leAt b 8 8
    match me with
    | none => d.complete p scConflict 0
    | some m =>
      if bitOf w 3 then d.complete p scInvalidField 0
      else if m.key ≠ leAt b 0 8 then d.complete p scConflict 0
      else if w % 8 = 0 then
        if r.rtype = 0 then (d.setResv x.nsid { r with holder := some m.ctrl, rtype := t }).complete p scOk 0
        else if r.holds m ∧ r.rtype = t then d.complete p scOk 0
        else d.complete p scConflict 0
      else
        let holderKey := (r.regs.find? (fun y => r.holder == some y.ctrl)).map (fun y => y.key)
        let takes := r.rtype != 0 && (if r.allRegs then pr == 0 else holderKey == some pr)
        let gone := r.regs.filter (fun y => y != m && (if r.rtype != 0 && r.allRegs && pr == 0 then true else y.key == pr))
        if !takes ∧ gone = [] then d.complete p scConflict 0
        else
          let r1 := { r with regs := r.regs.filter (fun y => !gone.contains y), gen := r.gen + 1 }
          let r2 := if takes then { r1 with holder := some m.ctrl, rtype := t } else r1
          let d1 := gone.foldl (fun d g => d.resvNote g.ctrl x.nsid (if r.holds g ∧ takes then 3 else 1)) (d.setResv x.nsid r2)
          let d2 := if w % 8 = 2 then d1.preemptAbort x.nsid gone else d1
          d2.complete p scOk 0
/-- RESERVATION_ACQUIRE. -/
def execReservationAcquire (p : Pen) (b : Bytes) (s : State) : Out := s.apply fun d => d.resvAcquire p.val b

/-- RESERVATION_RELEASE with its 8 bytes: release, clear. -/
def Dev.resvReleaseCmd (d : Dev) (p : Nat) (b : Bytes) : Dev :=
  match d.resvCmd p 0x15 with
  | none => d
  | some (x, r, me) =>
    let w := x.dw 10
    match me with
    | none => d.complete p scConflict 0
    | some m =>
      if !bitOf w 3 && m.key != leAt b 0 8 then d.complete p scConflict 0
      else if w % 8 = 1 then
        let others := r.regs.filter (fun y => y != m)
        (others.foldl (fun d y => d.resvNote y.ctrl x.nsid 3) (d.setResv x.nsid { r with regs := [], holder := none, rtype := 0, gen := r.gen + 1 })).complete p scOk 0
      else if !r.holds m then d.complete p scOk 0
      else if r.rtype ≠ bitsOf w 15 8 then d.complete p scInvalidField 0
      else (d.resvRelease x.nsid x.ctrl).complete p scOk 0
/-- RESERVATION_RELEASE. -/
def execReservationRelease (p : Pen) (b : Bytes) (s : State) : Out := s.apply fun d => d.resvReleaseCmd p.val b

/-- The Reservation Status data structure, extended for 128-bit host identifiers. -/
def Dev.resvReportBytes (d : Dev) (n : Nat) : Bytes :=
  let r := (d.nspace n).resv
  leBytes 4 r.gen ++ leBytes 1 r.rtype ++ leBytes 2 r.regs.length ++ zeros 2 ++ leBytes 1 (bit r.ptpl) ++ zeros 54
    ++ r.regs.flatMap (fun y => leBytes 2 (y.ctrl + 1) ++ leBytes 1 (bit (r.holds y)) ++ zeros 5 ++ leBytes 8 y.key ++ padTo 16 y.hostId ++ zeros 32)
/-- RESERVATION_REPORT: takes no hurdle. Host identifiers are 128 bits wide, so the extended structure is the one returned. -/
def Dev.resvReport (d : Dev) (p : Nat) : Dev :=
  match d.pen p with
  | none => d
  | some x =>
    if x.isAdmin ∨ x.opcode ≠ 0x0E ∨ x.stage ≠ .ready ∨ x.walk = 0 ∨ x.due.isSome then d
    else if !bitOf (x.dw 11) 0 then d.complete p 0x024 0
    else d.completeData p ((d.resvReportBytes x.nsid).take (4 * (x.dw 10 + 1)))
/-- RESERVATION_REPORT. -/
def execReservationReport (p : Pen) (s : State) : Out := s.apply fun d => d.resvReport p.val

end Sys2Proof.Machine
end

