-- ==== Sys2Proof/Machine/Power.lean ====
section
/-! DEFINITION. The power sequencer: entry and exit, suspension, access wakes, autonomous transitions, background work in a non-operational
state, L1.2 (R457 to R466, R177). -/

namespace Sys2Proof.Machine

/-- A pen holds an I/O command (R177). -/
def Dev.ioPens (d : Dev) : Bool := d.nvme.pens.any (fun e => !e.2.isAdmin)
/-- A die operation runs or is queued. -/
def Dev.anyDieOp (d : Dev) : Bool := d.media.dies.any (fun e => e.2.ops.any (fun o => o.stage != .ended))
/-- Open droves with a row in progress. -/
def Dev.rowsInProgress (d : Dev) : List Nat :=
  (d.drove.droves.filter (fun e => e.2.state == 2 && (d.drove.units.any (fun u => u.serial == e.1 && u.row == e.2.nextRow && !u.folded)
    || (List.range 32).any (fun i => (e.2.keys.get? (e.2.nextRow * 32 + i)).isSome)))).map (fun e => e.1)
/-- Paddocks from one number to another. -/
def padRange (a b : Nat) : List Nat := (List.range (b + 1 - a)).map (· + a)
/-- Paddocks that a step of R462 takes to their target state; the map cache banks go with step 3 when they are written back, else with
the memories of step 6 (DEDUCED, assumption log 32). -/
def stepPads (target step : Nat) : List Nat :=
  match step with
  | 3 => if target = 4 then padRange 169 184 else []
  | 4 => padRange 162 168
  | 5 => padRange 1 160
  | 6 => (if target = 4 then [] else padRange 169 184) ++ padRange 185 200 ++ padRange 202 220
  | 7 => padRange 221 224 ++ padRange 227 229
  | 9 => [161, 201, 225, 226]
  | _ => []
/-- The Set Features commands that wait for the sequencer complete (R460, R177). -/
def Dev.finishPowerPens (d : Dev) : Dev :=
  let d1 := { d with pwr := { d.pwr with pens := [] } }
  d.pwr.pens.foldl (fun d p => d.complete p scOk 0) d1
/-- The entry is complete: CURRENT is the target. Standby leaves only paddock 0 On, on SIO (R456, R467). -/
def Dev.entryDone (d : Dev) : Dev :=
  let n := sat 0xFFFF (d.pwr.entries + 1)
  if d.pwr.target = 5 then
    { d with pwr := { d.pwr with current := 5, entering := false, step := 9, entries := n, standby := true, pads := (padRange 1 229).map (fun p => (p, 2)) },
             clk := { d.clk with aonSio := true, gates := [] } }
  else { d with pwr := { d.pwr with current := d.pwr.target, entering := false, step := 9, entries := n } }
/-- The next step of an entry, when its condition holds (R462). -/
def Dev.entryStep (d : Dev) : Dev :=
  let k := d.pwr.step + 1
  let t := d.pwr.target
  let done := fun (d : Dev) => ({ d with pwr := { d.pwr with step := k } } : Dev)
  let take := fun (d : Dev) => done (d.setPads (d.padTarget t) (stepPads t k))
  match k with
  | 2 =>
    if t < 3 then done d
    else
      let d1 := d.rowsInProgress.foldl (fun d s => d.fillRow s) d
      if d1.journalUnits = [] ∧ !d1.anyDieOp then done d1 else d1
  | 3 => if t = 4 then take d.mapcFlushBanks else done d
  | 5 => if 2 ≤ t ∧ d.anyDieOp then d else take d
  | 8 => done d.finishPowerPens
  | 9 => (take d).entryDone
  | _ => take d
/-- POWER_STATE_ENTRY: one step; an I/O command in a pen stops the entry at the step boundary (R177, R464), power-fail at the step (R463). -/
def Dev.powerEntry (d : Dev) : Dev :=
  if !d.pwr.entering ∨ d.pwr.suspended ∨ d.pwr.standby ∨ d.pwr.target ≤ d.pwr.current ∨ d.pwr.pf ≠ .idle ∨ d.ioPens then d else d.entryStep
/-- POWER_STATE_ENTRY. -/
def execPowerStateEntry (s : State) : Out := s.apply Dev.powerEntry
/-- ENTRY_SUSPEND: paddocks the entry has changed return to On (R464). -/
def Dev.entrySuspend (d : Dev) : Dev :=
  if !d.pwr.entering ∨ d.pwr.suspended ∨ d.pwr.target ≤ d.pwr.current ∨ !d.ioPens then d
  else
    let ps := (padRange 1 229).filter (fun p => d.pwr.pads.get 0 p != d.padTarget d.pwr.current p)
    let d1 := d.setPads (fun _ => 0) ps
    { d1 with pwr := { d1.pwr with suspended := true, step := 0, suspends := sat 0xFFFF (d1.pwr.suspends + 1) } }
/-- ENTRY_SUSPEND. -/
def execEntrySuspend (s : State) : Out := s.apply Dev.entrySuspend
/-- ENTRY_RESUME: no pen holds an I/O command; the entry starts again at step 1. -/
def Dev.entryResume (d : Dev) : Dev :=
  if d.pwr.entering && d.pwr.suspended && !d.ioPens then { d with pwr := { d.pwr with suspended := false, step := 0 } } else d
/-- ENTRY_RESUME. -/
def execEntryResume (s : State) : Out := s.apply Dev.entryResume
/-- POWER_STATE_EXIT: paddocks return to the states of the target, e11 is asserted on every core, and the commands that waited complete. -/
def Dev.powerExit (d : Dev) : Dev :=
  if !d.pwr.entering ∨ d.pwr.standby ∨ d.pwr.current < d.pwr.target ∨ d.pwr.pf ≠ .idle then d
  else
    let t := d.pwr.target
    let d1 := d.setPads (d.padTarget t) (padRange 1 229).reverse
    { d1 with pwr := { d1.pwr with current := t, entering := false, suspended := false, step := 0, wakeEvt := true } }.finishPowerPens
/-- POWER_STATE_EXIT. -/
def execPowerStateExit (s : State) : Out := s.apply Dev.powerExit
/-- PADDOCK_ACCESS_WAKE: an access targets a paddock in Retention or Off (R457). -/
def execPaddockAccessWake (p : Paddock) (s : State) : Out :=
  s.apply fun d => if d.pwr.standby then d else d.wakePad p.val

/-- The autonomous transition a controller's table gives for its requested state: target state and idle time in ms (NVMe layout, PRESUMED,
assumption log 30). -/
def Dev.apstEntry (d : Dev) (k : Nat) : Nat × Nat :=
  let c := d.ctrl k
  let v := leAt (c.featData.get [] 0x0C) (8 * c.reqPs) 8
  (bitsOf v 7 3, bitsOf v 31 8)
/-- APST_TRANSITION of a controller after its idle time. -/
def Dev.apst (d : Dev) (k : Nat) : Dev :=
  let c := d.ctrl k
  let e := d.apstEntry k
  if !c.en ∨ c.d3hot ∨ !bitOf (c.features.get 0 0x0C) 0 ∨ e.2 = 0 ∨ 4 < e.1 ∨ d.nvme.pens.any (fun x => x.2.ctrl == k && !x.2.isAdmin) then d
  else
    let d1 := d.advanceTo (c.lastIo + e.2 * 1000000)
    (d1.modCtrl k (fun c => { c with reqPs := e.1, opPs := if e.1 < 2 then e.1 else c.opPs })).retarget
/-- APST_TRANSITION of a controller. -/
def execApstTransition (k : Ctrl) (s : State) : Out := s.apply fun d => d.apst k.val

/-- Every controller that requested the device's non-operational state permits background work (NOPPME, feature 0x11 bit 0; R461). -/
def Dev.noppme (d : Dev) : Bool :=
  (d.nvme.ctrls.filter (fun e => e.2.en && !e.2.d3hot && decide (d.pwr.current ≤ e.2.reqPs))).all (fun e => bitOf (e.2.features.get 0 0x11) 0)
/-- NOPPME_WORK: due rebuild or graze work takes its paddocks On for at most 100 ms; `start` false is its end, when the paddocks re-enter
the state. -/
def Dev.noppmeWork (d : Dev) (start : Bool) : Dev :=
  if start then
    if d.pwr.current < 2 ∨ d.pwr.standby ∨ d.pwr.entering ∨ !d.noppme ∨ d.pwr.noppUntil.isSome then d
    else
      let d1 := d.setPads (fun _ => 0) (padRange 1 224)
      { d1 with pwr := { d1.pwr with noppUntil := some (d.now + 100000000) } }
  else if d.pwr.noppUntil.isNone then d
  else
    let d1 := if d.pwr.current = 4 then d.mapcFlushBanks else d
    let d2 := d1.setPads (d1.padTarget d1.pwr.current) (padRange 1 224)
    { d2 with pwr := { d2.pwr with noppUntil := none } }
/-- NOPPME_WORK: its start or its end. -/
def execNoppmeWork (start : Bool) (s : State) : Out := s.apply fun d => d.noppmeWork start

/-- A PCIe link. -/
def Dev.link (d : Dev) (l : Nat) : LinkSt := d.links.get LinkSt.init l
/-- Replaces a link. -/
def Dev.setLink (d : Dev) (l : Nat) (x : LinkSt) : Dev := { d with links := d.links.set l x }
/-- Paddock of a link's port. -/
def linkPad (l : Nat) : Nat := 225 + l / 2
/-- L12_ENTRY: a link that is up enters L1.2; in PS2 to PS4 its port paddock enters Retention with it. -/
def Dev.l12Enter (d : Dev) (l : Nat) : Dev :=
  if (d.link l).width = 0 then d
  else
    let d1 := d.setLink l { d.link l with l12 := true }
    if 2 ≤ d1.pwr.current ∧ !d1.pwr.standby ∧ d1.portL12 (l / 2) then d1.setPad (linkPad l) 1 else d1
/-- L12_ENTRY of a link. -/
def execL12Entry (l : Fin 4) (s : State) : Out := s.apply fun d => d.l12Enter l.val
/-- L12_EXIT: CLKREQ# brings the link out of L1.2; the port returns On, and the device leaves PS2 to PS4. -/
def Dev.l12Exit (d : Dev) (l : Nat) : Dev :=
  if !(d.link l).l12 then d else ((d.setLink l { d.link l with l12 := false }).wakePad (linkPad l)).portWake (l / 2) 3
/-- L12_EXIT of a link. -/
def execL12Exit (l : Fin 4) (s : State) : Out := s.apply fun d => d.l12Exit l.val

end Sys2Proof.Machine
end

