-- ==== Sys2Proof/Machine/Reset.lean ====
section
/-! DEFINITION. Power-fail, the Collie's expiry, the resets of the device and what each keeps, tampers and wakes from Standby
(R34, R35, R389, R463, R466, R467, R478, R487, R511, R516 to R521, R529, R530; Tables 1-13, 21-6, 21-7). -/

namespace Sys2Proof.Machine

/-! ### What a reset leaves -/

/-- The three ways a device-level reset leaves the device (Table 21-7). -/
inductive ResetKind where
  | powerOn | cold | warm
  deriving DecidableEq, Repr

/-- Every operation on the dies is cut without a record. -/
def Dev.cutAll (d : Dev) : Dev := (List.range 128).foldl (fun d c => d.dropChanOps c) d

/-- What the store and the OTP keep of the Fold's state; the leaves of a reservation not used are lost (R407). -/
def FoldSt.kept (f : FoldSt) (reason stage : Nat) : FoldSt :=
  { FoldSt.init with
    otp := f.otp, ownerCtr := f.ownerCtr, ownerA := f.ownerA, ownerB := f.ownerB, lcOwed := f.lcOwed, decomLeft := f.decomLeft,
    endorse := f.endorse, idChain := f.idChain, hssCert := f.hssCert, haltCount := f.haltCount, bootCtr := f.bootCtr,
    vendorCtrs := f.vendorCtrs, ownerCtrs := f.ownerCtrs, refusals := f.refusals, stage := stage, bootReason := reason,
    tally := { TallySt.init with recs := f.tally.recs, nextSlot := f.tally.nextSlot, head := f.tally.head, rseq := f.tally.rseq,
                                 prev := f.tally.prev, wrapped := f.tally.wrapped, bootSlot := f.tally.bootSlot },
    lms := { LmsSt.init with gen := f.lms.gen, next := f.lms.next, cur := f.lms.next, lim := f.lms.next,
                             builtTo := f.lms.next / 32768 } }

/-- What flash keeps of the drove engine's state; a warm reset keeps the journal fixed in staging too. -/
def DroveSt.kept (x : DroveSt) (warm : Bool) : DroveSt :=
  { DroveSt.init with
    lamb := x.lamb, lambNext := x.lambNext, dumps := x.dumps, dumpSeq := x.dumpSeq, gensHeld := x.gensHeld, s0 := x.s0,
    hostBytes := x.hostBytes, mediaBytes := x.mediaBytes, integrityLost := x.integrityLost, integrityNs := x.integrityNs,
    fixed := if warm then x.fixed else none,
    elog := { ElogSt.init with pos0 := x.elog.pos0, pos1 := x.elog.pos1, pagesSince := x.elog.pagesSince, anyCensus := x.elog.anyCensus } }

/-- What the subsystem keeps: namespaces with their keys and reservations, and the SMART counts. A reservation without PTPL ends at a power
loss (assumption log 30). -/
def NvmeSt.kept (x : NvmeSt) (k : ResetKind) : NvmeSt :=
  { NvmeSt.init with
    ns := x.ns.mapVals (fun _ n => { n with resv := if k = .powerOn ∧ !n.resv.ptpl then ResvSt.init else n.resv }),
    sanitizeStatus := x.sanitizeStatus, groupFeatures := x.groupFeatures, readUnits := x.readUnits, writeUnits := x.writeUnits,
    readCmds := x.readCmds, writeCmds := x.writeCmds }

/-- The read-only fields that outlive a reset: the widths in force and the namespaces' own fields. -/
def keptField (id : Nat) : Bool :=
  let b := cfgBlock id
  let f := id % 2 ^ 20
  (b == 0x007 && (f == 2 || f == 4)) || (b == 0x008 && f == 0x11) || (decide (0x200 ≤ b) && decide (b ≤ 0x5FF) && (f == 0x10 || f == 0x11))

/-- Configuration after a reset: the boot loads the persistent values again (R112). -/
def CfgSt.kept (c : CfgSt) : CfgSt :=
  let t := c.committed.filter (fun e => keptField e.1)
  { CfgSt.init with committed := t, applied := t }

/-- Addresses a warm reset keeps: staging and DRAM (R520). -/
def warmAddr (a : Nat) : Bool := inStaging a 1 || decide (dramBase ≤ a)

/-- DRAM after a warm reset: training is kept, counters are not. -/
def DramSt.warm (x : DramSt) : DramSt :=
  let cs := x.chans.mapVals (fun _ c => { DramChan.init with up := c.up, stepped := c.stepped, failed := c.failed, ppr := c.ppr })
  { DramSt.init with order := x.order, ref2x := x.ref2x, chans := cs }

/-- Event state after a reset: every source restarts with SEQ 1, and EVT.RSTCAUSE tells of the reset (R507, R521). -/
def EvtSt.after (e : EvtSt) (k : ResetKind) (reason run : Nat) : EvtSt :=
  let srcs := sources.map (fun s => (s, { SrcSt.init with base := run }))
  match k with
  | .powerOn => { EvtSt.init with srcs := srcs }
  | _ => { EvtSt.init with
      srcs := srcs, rstLast := reason, rstInplace := k == .warm, rstWasFatal := e.fatal,
      rstCollies := sat 0xFF (e.rstCollies + bit (reason == 2)), rstFold := sat 0xFF (e.rstFold + bit (reason == 3)),
      rstNssr := sat 0xFF (e.rstNssr + bit (reason == 4)), doubleTrapResets := e.doubleTrapResets }

/-- Walk station and management state after a reset: paddock 0 keeps the station unless it is reset itself. -/
def WalkSt.after (w : WalkSt) (k : ResetKind) : WalkSt :=
  match k with
  | .powerOn => WalkSt.init
  | _ => { w with rx := [], tx := [], parts := [], msgs := [], i3c := w.i3c }

/-- Power sequencer after a reset: every paddock On (Table 18-10). -/
def PwrSt.after (p : PwrSt) (k : ResetKind) : PwrSt :=
  match k with
  | .powerOn => PwrSt.init
  | _ => { PwrSt.init with wakeCause := p.wakeCause, wakePort := p.wakePort, wakes := p.wakes, entries := p.entries, suspends := p.suspends }

/-- The device after a device-level reset (R519, R520, Table 21-7). The Crook's release is told to its source once that has left reset
(DEDUCED, assumption log 33); what each part keeps is assumption log 34. -/
def Dev.resetAs (d : Dev) (k : ResetKind) (reason : Nat) : Dev :=
  let c := d.cutAll.iluCut.iluReset
  let warm := k == .warm
  let po := k == .powerOn
  let f := c.fold.kept reason (if po then 0 else 1)
  let n : Dev := { Dev.init with
    now := d.now
    run := d.run
    free := c.free
    outputs := c.outputs
    mem := if warm then c.mem.filter (fun e => warmAddr e.1) else []
    marks := if warm then c.marks.filter warmAddr else []
    cfg := c.cfg.kept
    crook := { CrookSt.init with holder := c.crook.holder }
    hub := if po then Dev.init.hub else { c.hub with degraded := 0 }
    evt := c.evt.after k reason d.run
    media := { nand := c.media.nand, dies := [], chans := [], drvs := [], jobs := [] }
    nvme := c.nvme.kept k
    links := c.links.mapVals (fun _ l => { LinkSt.init with perst := l.perst })
    drove := c.drove.kept warm
    mapc := { MapcSt.init with rbPhase := 1 }
    dram := if warm then c.dram.warm else DramSt.init
    integ := { IntegSt.init with mdi := c.integ.mdi }
    fold := if po then f else { f with tamper := c.fold.tamper, tamperResets := c.fold.tamperResets, latched := c.fold.latched }
    tcg := { c.tcg with session := none, replies := [],
                        ranges := if po then c.tcg.ranges.mapVals (fun _ r => if r.lockOnReset then { r with rl := true, wl := true } else r)
                                  else c.tcg.ranges }
    ilu := c.ilu
    pins := if po then { c.pins with thermtripLow := false } else c.pins
    pwr := c.pwr.after k
    clk := if po then ClkSt.init else { c.clk with gates := [] }
    thm := { ThmSt.init with trip := c.thm.trip, trans1 := c.thm.trans1, trans2 := c.thm.trans2, time1 := c.thm.time1, time2 := c.thm.time2 }
    walk := c.walk.after k }
  n.crookLost 2

/-- A power-on reset: paddock 0 restarts and the clock sequence follows (R471). -/
def Dev.powerOnReset (d : Dev) : Dev := d.resetAs .powerOn 1

/-! ### Power-fail (Table 1-13) -/

/-- The drove engine holds a journal that a reset must keep: one fixed already, or one of its own once replay has run; an empty one with no
armed dump set leaves nothing to write. -/
def Dev.journalHeld (d : Dev) : Bool :=
  d.drove.fixed.isSome ||
  (d.mapc.rbPhase != 1 && (d.dumpArmed false || d.dumpArmed true || d.drove.units != [] || d.openDroves != []))
/-- The channels of both dump sets are all Off: there is nothing to dump (R463). -/
def Dev.dumpOff (d : Dev) : Bool :=
  let cs := d.dumpChans false ++ d.dumpChans true
  cs != [] && cs.all (fun c => d.pad (chanPad c) == 2)
/-- Steps 5 and 6 have ended: every paddock except paddock 0 is Off, and THERMTRIP_N goes low after a trip (R534). -/
def Dev.powerFailEnd (d : Dev) : Dev :=
  let d1 := d.cutAll
  { d1 with pwr := { d1.pwr with pf := .waiting, pads := (padRange 1 229).map (fun p => (p, 2)) },
            pins := { d1.pins with thermtripLow := d1.pins.thermtripLow || d1.pwr.tripHold },
            links := d1.links.mapVals (fun _ l => { LinkSt.init with perst := l.perst }), clk := { d1.clk with gates := [] } }
/-- The paddocks that the dump needs and that are in Retention return On (R463): the dump channels, their Drover cores, paddock 201, staging and
the lamb and parity banks. -/
def Dev.dumpPads (d : Dev) : List Nat :=
  let cs := d.dumpChans false ++ d.dumpChans true
  (201 :: padRange 185 200 ++ padRange 202 208 ++ cs.map chanPad ++ cs.map (fun c => corePad (droverOf c))).filter (fun p => d.pad p == 1)
/-- Steps 1 to 4: e10, no fetch, no completion, the journal fixed; host ports, Shepherd cores and the channels outside the dump sets are turned
off and what runs on them is cut. `units` units of a store program have finished. -/
def Dev.powerFailStart (d : Dev) (units : Nat) : Dev :=
  let seqn := match d.evt.seqn with
    | .foldDue true => ResetSeq.foldDue true
    | _ => .none
  let d1 := { d with pwr := { d.pwr with pfEvt := true, pf := .dumping, pfLatched := false }, evt := { d.evt with seqn := seqn },
                     nvme := { d.nvme with fetchStopped := true } }
  let d2 := d1.powerFailTxns.iluPowerFail units
  if d2.dumpOff || !d2.journalHeld then ({ d2 with drove := { d2.drove with stopped := true } } : Dev).powerFailEnd
  else
    let d3 := if d2.dumpPads = [] then d2 else (d2.setPads (fun _ => 0) d2.dumpPads).noteWake 7 0
    let keep := d3.dumpChans false ++ d3.dumpChans true
    let off := (List.range 128).filter (fun c => !keep.contains c)
    let d4 := off.foldl (fun d c => d.dropChanOps c) d3.fixJournal
    let pads := (off.map chanPad ++ padRange 161 168 ++ [225, 226]).foldl (fun (t : Tab Nat) p => t.set p 2) d4.pwr.pads
    ({ d4 with pwr := { d4.pwr with pads := pads } } : Dev).clearGates (off.flatMap (fun c => padGates (chanPad c)))
/-- PWRFAIL_N asserts, or something acts as if it had (R530). It has no effect in Standby or before the clocks have started; during a clock hold
it is latched (R478). -/
def Dev.powerFail (d : Dev) (units : Nat) : Dev :=
  if d.pwr.standby ∨ !d.pins.pwrok ∨ !d.clk.started ∨ d.pwr.pf ≠ .idle then d
  else if d.clk.hold then { d with pwr := { d.pwr with pfLatched := true } }
  else d.powerFailStart units
/-- PWRFAIL_ASSERT: the pin is low for 1.0 µs (R531); `units` units of the store program in progress have finished. -/
def execPwrfailAssert (units : BitVec 8) (s : State) : Out :=
  s.apply fun d => if d.pins.pwrfailLow then d else ({ d with pins := { d.pins with pwrfailLow := true } } : Dev).powerFail units.toNat
/-- RAIL_FAULT: a rail leaves its tolerance, or PWROK falls, while PWRFAIL_N is high (R530). -/
def execRailFault (pwrokFalls : Bool) (units : BitVec 8) (s : State) : Out :=
  s.apply fun d =>
    let d1 := if d.pins.pwrfailLow then d else d.powerFail units.toNat
    if pwrokFalls then { d1 with pins := { d1.pins with pwrok := false } } else d1
/-- JOURNAL_COPIES_PROGRAMMED: both copies have reported their program status; the descriptor is programmed and step 7 follows. -/
def execJournalCopiesProgrammed (failA failB : Bool) (s : State) : Out :=
  s.apply fun d => if d.pwr.pf = .dumping then (d.programDump failA failB).powerFailEnd else d
/-- PWRFAIL_DEASSERT: the pin rises. A dump in progress still completes (R35); a boot held by the pin is released 1 ms later (R529). -/
def execPwrfailDeassert (s : State) : Out :=
  s.apply fun d =>
    if !d.pins.pwrfailLow then d
    else
      let d1 := { d with pins := { d.pins with pwrfailLow := false } }
      if d1.clk.started && d1.fold.stage == 0 && d1.pwr.pf == .idle then
        { d1.advanceTo (d1.now + 1000000) with fold := { d1.fold with stage := 1 } }
      else d1
/-- POWER_ON_RESET: after Table 1-13 has ended, with PWROK high, PWRFAIL_N high, the rails within tolerance and no thermal hold (R35, R530). -/
def execPowerOnReset (s : State) : Out :=
  s.apply fun d => if d.pwr.pf = .waiting ∧ d.pins.pwrok ∧ !d.pins.pwrfailLow ∧ !d.pwr.tripHold then d.powerOnReset else d
/-- PWROK_RISE: the straps are sampled (R527) and paddock 0 leaves reset (R529, Table 22-5 step 4). -/
def execPwrokRise (bifur : BitVec 2) (dramCfg : BitVec 3) (walkAddr : BitVec 8) (mgmtAddr : BitVec 2) (s : State) : Out :=
  s.apply fun d =>
    if d.pins.pwrok ∨ d.pwr.pf = .dumping then d
    else
      let p := { d.pins with pwrok := true, bifur := bifur.toNat, dramCfg := dramCfg.toNat, walkAddr := walkAddr.toNat, mgmtAddr := mgmtAddr.toNat }
      ({ d with pins := p } : Dev).powerOnReset

/-- PLL_LOCK: a PLL locks to a reference that is ready. During a hold, the lock of the standby PLL to FIO ends it, and a latched power-fail then
runs (R477, R478). -/
def Dev.pllLock (d : Dev) (p : Nat) : Dev :=
  let c := d.clk
  if !c.srcReady (c.pllRef p) then d
  else
    let d1 := d.modClk (fun c => c.setReady p true)
    if c.hold ∧ p = c.standby ∧ c.pllRef p = 2 then
      let d2 := d1.clkRestart
      if d2.pwr.pfLatched then d2.powerFailStart 0 else d2
    else d1
/-- PLL_LOCK: PLL A is 0, PLL B is 1. -/
def execPllLock (p : Fin 2) (s : State) : Out := s.apply fun d => d.pllLock p.val

/-! ### The Collie and warm resets (Table 21-6, R520) -/

/-- COLLIE_EXPIRY: its period has passed without a pet (steps 1 and 2). -/
def Dev.collieExpiry (d : Dev) : Dev :=
  if d.collieStill ∨ d.evt.seqn ≠ .none ∨ d.pwr.pf ≠ .idle then d
  else
    let d1 := d.advanceTo (d.now + ((d.evt.colliePet + d.evt.collieNs) - d.run))
    let d2 := d1.post 0x00F 0 0 0x11 2
    let d3 := ({ d2 with nvme := { d2.nvme with fetchStopped := true } } : Dev).fixJournal.iluResetHold
    { d3 with evt := { d3.evt with seqn := .collieHold (d3.now + 400000000) d3.now } }
/-- COLLIE_EXPIRY. -/
def execCollieExpiry (s : State) : Out := s.apply Dev.collieExpiry
/-- The hold for the store ends: the expiry's record carries how long it was (Table 21-4), and the warm reset is due. -/
def Dev.holdEnd (d : Dev) (since : Nat) : Dev :=
  let us := (d.now - since) / 1000
  let upd := fun (r : EvRec) => if r.cond = 0x11 then { r with arg := us } else r
  let d1 := d.setSrc 0x00F { d.src 0x00F with fifo := (d.src 0x00F).fifo.map upd }
  { d1 with evt := { d1.evt with seqn := .warmDue 2 } }
/-- ILU_BOUNDARY_REPORT: the store's array is idle or holds a suspended erase only (R443). -/
def execIluBoundaryReport (s : State) : Out :=
  s.apply fun d => match d.evt.seqn with
    | .collieHold _ since =>
      let running := match d.ilu.erase with
        | some e => !e.suspended
        | none => false
      if d.ilu.prog.isSome || running then d else d.holdEnd since
    | _ => d
/-- RESET_HOLD_TIMEOUT: 400 ms have passed; the operation in progress is cut (R517). -/
def execResetHoldTimeout (s : State) : Out :=
  s.apply fun d => match d.evt.seqn with
    | .collieHold t since => ((d.advanceTo t).iluCut).holdEnd since
    | _ => d
/-- WARM_RESET: a warm reset that is due takes place; the journal stays in place. -/
def execWarmReset (s : State) : Out :=
  s.apply fun d => match d.evt.seqn with
    | .warmDue r => (d.advanceTo (d.now + 1000)).resetAs .warm r
    | _ => d
/-- NVM_SUBSYSTEM_RESET: 0x4E56_4D65 is written to NSSR of a controller. It is absorbed by a sequence in progress (R518, R519). Its access wakes
no device that is off, and its journal is fixed in place. -/
def Dev.nssr (d : Dev) (v : Nat) : Dev :=
  if v ≠ 0x4E564D65 ∨ d.evt.seqn ≠ .none ∨ d.pwr.pf ≠ .idle ∨ d.pwr.standby ∨ d.fold.stage = 0 then d
  else
    let d1 := ({ d with nvme := { d.nvme with fetchStopped := true } } : Dev)
    let d2 := if d1.journalHeld then d1.fixJournal else d1
    { d2 with evt := { d2.evt with seqn := .warmDue 4 } }
/-- NVM_SUBSYSTEM_RESET: a write of a value to NSSR. -/
def execNvmSubsystemReset (v : W32) (s : State) : Out := s.apply fun d => d.nssr v.toNat

/-! ### Fold-initiated resets (R389, R511, R519) -/

/-- FOLD_INITIATED_RESET: dump, zeroize for a tamper, reset; it is due for a tamper, a Fold double trap or a decommission, and Fold firmware can
request it. While a power-fail dump runs it waits, and after one the power-on reset follows in its place (R530). -/
def Dev.foldReset (d : Dev) (failA failB : Bool) : Dev :=
  let go := fun (tamper : Bool) =>
    let d0 := { d with nvme := { d.nvme with fetchStopped := true } }
    let d1 := if d.pwr.pf = .idle ∧ d.journalHeld then (d0.fixJournal).programDump failA failB else d0
    let d2 := if tamper then d1.zeroize else d1
    let n := d2.fold.tamperResets + 1
    let d3 := if tamper then { d2 with fold := { d2.fold with tamperResets := n, latched := d2.fold.latched || decide (3 ≤ n) } } else d2
    if d.pwr.pf = .idle then d3.resetAs .cold 3 else { d3 with evt := { d3.evt with seqn := .none } }
  if d.pwr.pf = .dumping ∨ d.pwr.standby then d
  else match d.evt.seqn with
    | .foldDue t => go t
    | .none => if (d.core 0).released ∧ d.pwr.pf = .idle then go false else d
    | _ => d
/-- FOLD_INITIATED_RESET: whether each copy of the dump had a program failure. -/
def execFoldInitiatedReset (failA failB : Bool) (s : State) : Out := s.apply fun d => d.foldReset failA failB
/-- FOLD_DOUBLE_TRAP: the reset controller answers the Fold core's halt with a Fold-initiated reset; a sequence in progress absorbs it. -/
def execFoldDoubleTrap (s : State) : Out :=
  s.apply fun d =>
    if (d.core 0).run ≠ .halted ∨ d.evt.seqn ≠ .none ∨ d.pwr.pf ≠ .idle then d
    else { d with evt := { d.evt with seqn := .foldDue false, doubleTrapResets := d.evt.doubleTrapResets + 1 } }
/-- A tamper reset becomes due; it overrides a warm sequence (R518, R519). -/
def Dev.tamperReset (d : Dev) (b : Nat) : Dev :=
  let d1 := d.tamperSet b
  { d1 with evt := { d1.evt with seqn := .foldDue true } }
/-- A boot ROM halt for a tamper: no key is derived and nothing is released. -/
def Dev.romHalt (d : Dev) (code : Nat) : Dev :=
  { d with fold := { d.fold with halted := true, code := code, haltCount := sat 0xFFFFFFFF (d.fold.haltCount + 1) },
           evt := { d.evt with collieArmed := false } }
/-- TAMPER_EVENT: a tamper source trips (Table 14-15). -/
def Dev.tamperEvent (d : Dev) (b : Nat) (fails : TallyFails) : Dev :=
  if !d.pins.pwrok ∨ d.pwr.standby ∨ (b = 1 ∧ d.clk.hold) then d
  else if b = 0 ∨ b = 1 ∨ b = 5 ∨ b = 6 then d.tamperReset b
  else if b = 2 ∨ b = 3 then (if d.fold.stage = 1 ∧ !d.fold.halted then (d.tamperSet b).romHalt b else d)
  else d.tamperRecord b fails
/-- TAMPER_EVENT: the source's bit. -/
def execTamperEvent (b : Fin 8) (fails : TallyFails) (s : State) : Out := s.apply fun d => d.tamperEvent b.val fails
/-- ENTROPY_RECOVERY_TIMEOUT: the source has not recovered within 100 ms: an entropy tamper (R388). -/
def execEntropyRecoveryTimeout (s : State) : Out :=
  s.apply fun d => match d.fold.failedAt with
    | some t => (d.advanceTo (t + 100000000)).tamperReset 5
    | none => d

/-! ### Thermal trip, Standby and wakes -/

/-- THERMAL_TRIP: a valid sensor has read 125 °C or more in 3 samples in a row (R487). -/
def execThermalTrip (units : BitVec 8) (s : State) : Out :=
  s.apply fun d =>
    if d.pwr.tripHold ∨ d.pwr.standby ∨ !d.thm.valid.any (fun x => decide (3 ≤ x.hot)) then d
    else
      let d1 := { d with thm := { d.thm with trip := true }, pwr := { d.pwr with tripHold := true } }
      if d1.pwr.pf = .waiting then d1.powerFailEnd else d1.powerFail units.toNat
/-- THERMAL_TRIP_COOLDOWN: every valid sensor has read below 95 °C for 1 s. -/
def execThermalTripCooldown (s : State) : Out :=
  s.apply fun d => match d.thm.coolSince with
    | some t => if d.pwr.tripHold ∧ d.pwr.pf = .waiting then (d.advanceTo (t + 1000000000)).powerOnReset else d
    | none => d
/-- STANDBY_EXIT: a Walk ring address match, a wake pattern or PERST_N high ends Standby with a power-on reset (R467). -/
def execStandbyExit (s : State) : Out := s.apply fun d => if d.pwr.standby then d.powerOnReset else d
/-- Three electrical-idle exits of 20 to 200 µs with 20 to 200 µs of idle between, within 2 ms: five lengths in µs, measured in 4 µs steps, or
in SIO periods in Standby, where a length may lie one period (30.5 µs) outside the window (R466, R456). -/
def wakePatternOk (standby : Bool) (us : List Nat) : Bool :=
  us.length == 5 && us.all (fun t => (standby || decide (20 ≤ t)) && decide (t ≤ (if standby then 230 else 200)))
    && decide (us.foldl (· + ·) 0 ≤ 2000)
/-- WAKE_PATTERN on lane 0 of a port: the lengths of exit, idle, exit, idle, exit. -/
def Dev.wakePattern (d : Dev) (port : Nat) (us : List Nat) : Dev :=
  if !wakePatternOk d.pwr.standby us ∨ !bitOf (d.cfgv 0x00A 3) port then d
  else if d.pwr.standby then d.powerOnReset
  else d.portWake port 4
/-- WAKE_PATTERN. -/
def execWakePattern (port : Fin 2) (us : List (BitVec 12)) (s : State) : Out :=
  s.apply fun d => d.wakePattern port.val (us.map BitVec.toNat)
/-- MANAGEMENT_WAKE: a Walk ring or I3C address match brings the management path and Shepherd core 0 up for the request (R466). -/
def Dev.mgmtWake (d : Dev) (i3c : Bool) : Dev :=
  if d.pwr.standby then (if i3c then d else d.powerOnReset)
  else if d.pwr.current < 2 ∨ d.pwr.mgmtUp then d
  else
    let d1 := (d.setPads (fun _ => 0) [161, 201, 227, 229]).noteWake (if i3c then 6 else 5) 0
    { d1 with pwr := { d1.pwr with mgmtUp := true } }
/-- MANAGEMENT_WAKE: by the I3C target, or else by the Walk ring station. -/
def execManagementWake (i3c : Bool) (s : State) : Out := s.apply fun d => d.mgmtWake i3c
/-- The request has been served: the paddocks re-enter the state. -/
def Dev.mgmtDone (d : Dev) : Dev :=
  if d.pwr.mgmtUp then
    let d1 := { d with pwr := { d.pwr with mgmtUp := false } }
    if d1.pwr.current < 2 ∨ d1.pwr.entering then d1 else d1.setPads (d1.padTarget d1.pwr.current) [161, 201, 227, 229]
  else d

end Sys2Proof.Machine
end

