-- ==== Sys2Proof/Machine/Boot.lean ====
section
/-! DEFINITION. The boot: image slots and their checks, key derivation, the boot record with its notes, release of the cores and readiness
(R112, R364, R365, R390 to R393, R396, R402, R405, R446, R447; Tables 15-1, 15-4 to 15-6). -/

namespace Sys2Proof.Machine

/-! ### Checking a slot -/

/-- What a module is checked against at this moment (R393). -/
def Dev.checkEnv (d : Dev) (b : Bytes) : CheckEnv :=
  let f := d.fold
  { vendor := f.vendorPairs, owner := f.ownerKid, owned := f.lc == 2, cosign := f.cosign,
    counter := f.counter (ModHeader.ofBytes b).componentId, debugOpen := bitOf f.scope 4, seen := d.nvme.seenModules.contains b }
/-- The module check; a module that passes is remembered for the boot. -/
def Dev.checkModule (d : Dev) (b : Bytes) (given argLen : Nat) (runModule : Bool) : Nat :=
  moduleCheck setOk setOk b given argLen runModule (d.checkEnv b)
/-- LEVEL and CORE_KIND of a component kind (Table 15-5): 1 Fold firmware, 2 Shepherd image, 3 Drover image, 4 owner boot module. -/
def kindFits (kind : Nat) (h : ModHeader) : Bool :=
  match kind with
  | 1 => h.level == 1
  | 2 => h.level == 2 && h.coreKind == 2
  | 3 => h.level == 2 && h.coreKind == 3
  | _ => h.level == 3
/-- Check code of what a slot holds. A module of another kind counts as code 0x04, and one in a sector whose erase was cut as failing its
signatures where nothing else failed (DEDUCED, assumption log 35). -/
def Dev.slotCode (d : Dev) (kind slot : Nat) : Nat :=
  let b := d.ilu.slotModule kind slot
  let c := d.checkModule b b.length 0 (kind == 4)
  if (c = 0 ∨ 4 < c) ∧ !kindFits kind (ModHeader.ofBytes b) then 4
  else if c = 0 ∧ d.ilu.slotInterrupted kind slot then 0x0A
  else c
/-- COMPONENT_ID a slot's module names. -/
def Dev.slotCid (d : Dev) (kind slot : Nat) : Nat := (ModHeader.ofBytes (d.ilu.slotModule kind slot)).componentId
/-- Measurement of a module (R67). -/
def measureOf (b : Bytes) : Bytes := sha384 (b.take (ModHeader.ofBytes b).signedLen)
/-- The cores of a component kind, by unit. -/
def kindUnits (kind : Nat) : List Nat :=
  match kind with
  | 1 => [0]
  | 2 => List.range 8
  | 3 => List.range 32
  | _ => []
/-- Core number of a unit of a component kind. -/
def unitCore (kind unit : Nat) : Nat :=
  match kind with
  | 1 => 0
  | 2 => 1 + unit
  | _ => 9 + unit
/-- The slot a core runs: the one its pointer names, or the other when that fails its check (R391). -/
def Dev.runSlot (d : Dev) (kind unit : Nat) : Option Nat :=
  let s := d.ilu.pointer.slotOf kind unit
  if d.slotCode kind s = 0 then some s
  else if d.slotCode kind (1 - s) = 0 then some (1 - s)
  else none
/-- SIGNERS of a component entry (Table 15-5). -/
def FoldSt.signersOf (f : FoldSt) (b : Bytes) : Nat :=
  let sets := (signatureSets b (ModHeader.ofBytes b)).getD []
  let idx := fun (s : SigSet) => if s.role ≠ 1 then 2 else if f.vendorKid 0 = (s.ecdsaKid, s.lmsKid) then 0 else 1
  match sets with
  | [a] => idx a
  | [a, c] => idx a + 4 * idx c + 16
  | _ => 0
/-- The component entry of a slot. -/
def Dev.compOf (d : Dev) (kind slot units : Nat) : CompEnt :=
  let b := d.ilu.slotModule kind slot
  let h := ModHeader.ofBytes b
  { cid := h.componentId, secver := h.secver, ckind := kind, slot := slot, signers := d.fold.signersOf b, units := units,
    digest := measureOf b }
/-- A boot note. -/
def BootNote.mk' (ntype detail nslot cid ref : Nat) : BootNote := { ntype := ntype, detail := detail, nslot := nslot, cid := cid, ref := ref }
/-- Adds a note. -/
def Dev.addNote (d : Dev) (n : BootNote) : Dev := { d with fold := { d.fold with notes := d.fold.notes ++ [n] } }

/-- Chooses the slots of one component kind: a note for each slot that fails where a pointer names it, an entry for each slot that runs,
and whether every core has one. -/
def Dev.chooseKind (d : Dev) (kind : Nat) : Dev × Bool :=
  let us := kindUnits kind
  let ptr := d.ilu.pointer
  let d1 := [0, 1].foldl (fun (x : Dev) s =>
    let c := d.slotCode kind s
    if c = 0 ∨ !us.any (fun u => ptr.slotOf kind u == s) then x
    else
      let y := x.addNote (BootNote.mk' (if d.slotCode kind (1 - s) = 0 then 1 else 7) c s (d.slotCid kind s) 0)
      { y with fold := { y.fold with code := c } }) d
  let d2 := [0, 1].foldl (fun (x : Dev) s =>
    let mine := us.filter (fun u => d.runSlot kind u == some s)
    if mine = [] then x
    else { x with fold := { x.fold with comps := x.fold.comps ++ [d.compOf kind s (mine.foldl (fun m u => m + 2 ^ u) 0)] },
                  nvme := { x.nvme with seenModules := d.ilu.slotModule kind s :: x.nvme.seenModules } }) d1
  (d2, us.all (fun u => (d.runSlot kind u).isSome))
/-- The owner boot modules (R392): a measured one has an entry even when it is refused (R393). -/
def Dev.bootModules (d : Dev) : Dev :=
  (List.range 8).foldl (fun (x : Dev) i =>
    if d.ilu.sectorErased (slotPlace 4 i).1 then x
    else
      let c := d.slotCode 4 i
      let y := if c = 0 ∨ 0x0A ≤ c then { x with fold := { x.fold with comps := x.fold.comps ++ [d.compOf 4 i 0] } } else x
      if c = 0 then { y with nvme := { y.nvme with seenModules := d.ilu.slotModule 4 i :: y.nvme.seenModules } }
      else y.addNote (BootNote.mk' 6 c i (d.slotCid 4 i) 0)) d

/-! ### Loading an image -/

/-- Writes a module's sections into a core's scratch above an offset, and its page map (R68). -/
def Dev.loadModule (d : Dev) (core off : Nat) (b args : Bytes) : Dev :=
  let h := ModHeader.ofBytes b
  let ss := sectionsOf b h.nsect
  let d1 := (loadImage b h ss args).foldl (fun (x : Dev) e => (x.putBytes (scratchBase core + off + e.1) e.2).clearMarks (scratchBase core + off + e.1) e.2.length) d
  let pm := (pageMap h ss args.length).map (fun e => (e.1 + off / 4096, e.2))
  let keep := fun (e : Nat × PagePerm) => decide (e.1 < off / 4096) || decide ((off + 0x80000) / 4096 ≤ e.1)
  d1.modCore core (fun k => { k with pages := pm.foldl (fun (t : Tab PagePerm) e => t.set e.1 e.2) (k.pages.filter keep) })
/-- A core leaves reset and begins at the entry of its image with g1 its index, g30 the stack top and every other register zero (R58). -/
def Dev.startCore (d : Dev) (core : Nat) (b : Bytes) : Dev :=
  let h := ModHeader.ofBytes b
  let d1 := (d.setCore core (Core.init core)).loadModule core 0 b []
  let idx := (coreIdOf core) / 256
  d1.modCore core (fun k => ({ k with run := .running, pc := BitVec.ofNat 64 (loadBase h.level + h.entry), releasedAt := d.run }.setReg 1 (BitVec.ofNat 64 idx)).setReg 30
    (BitVec.ofNat 64 (loadBase h.level + stackEnd h)))

/-! ### Key derivation (R364, R365) -/

/-- Layer 0 keys from the UDS. -/
def FoldSt.layer0 (f : FoldSt) (uds : Bytes) : FoldSt :=
  { f with idPriv := Config.kdf uds lblId 56, hssSeed := Config.kdf uds lblHssSeed 24, hssI := Config.kdf uds lblHssI 16,
           kSeal := Config.kdf uds lblSeal 32, kBlob := Config.kdf uds lblBlob 32 }
/-- Layer 1 for the Fold firmware module of a slot: cdi1, Alias 1 and its certificate. -/
def FoldSt.layer1 (f : FoldSt) (uds b : Bytes) : FoldSt :=
  let h := ModHeader.ofBytes b
  let m := measureOf b
  let cdi1 := hmac384 uds (lblCdi1 ++ m ++ leBytes 4 h.secver ++ leBytes 1 f.lc ++ padTo 48 f.ownerDigest)
  let a1 := Config.kdf cdi1 lblAlias1 56
  { f with cdi1 := cdi1, alias1 := a1, alias1Cert := Config.aliasCert (Config.ecdsaPublic a1) f.idPriv m h.secver }
/-- Alias 2 for the digest of the boot record. -/
def FoldSt.layer2 (f : FoldSt) (dboot : Bytes) : FoldSt :=
  { f with alias2 := Config.kdf (hmac384 f.cdi1 (lblCdi2 ++ dboot)) lblAlias2 56 }

/-! ### Settling and the boot record -/

/-- FOLD.TAMPER (Table 14-17). -/
def FoldSt.tamperReg (f : FoldSt) : Nat := f.tamper + 256 * Nat.min f.tamperResets 3 + 1024 * bit f.latched
/-- RSEQ of the runtime entry 0x05 that carries a digest; 0 when there is none. -/
def TallySt.preparedSeq (t : TallySt) (dg : Bytes) : Nat :=
  match t.recs.find? (fun e => e.2.good && e.2.rkind == 2 && leAt e.2.bytes 0x80 1 == 5 && sliceOf e.2.bytes 0x98 48 == dg) with
  | some e => e.2.rseq
  | none => 0
/-- Records whose COMMIT and VOID both read clear are voided; a configuration record gives note 0x03 (R405, R445). -/
def Dev.voidUncommitted (d : Dev) : Dev :=
  let ps := d.ilu.pcfg.filter (fun r => !r.commit && !r.void)
  let d1 := ps.foldl (fun (x : Dev) r =>
    (x.voidRecord r.addr r.len).addNote (BootNote.mk' 3 5 0 0 (d.fold.tally.preparedSeq (sha384 (d.ilu.read r.addr r.len))))) d
  (d.ilu.calb.filter (fun r => !r.commit && !r.void)).foldl (fun (x : Dev) r => x.voidRecord r.addr r.len) d1
/-- The persistent values are loaded, and CONFIG_DIGEST is taken over their canonical body (R112, R446). A FIO_KEEP of 0
stops FIO (R470). -/
def Dev.loadConfig (d : Dev) : Dev :=
  let t := d.canonicalBody
  let w : Tab Word := t.map (fun e => (e.1, BitVec.ofNat 64 e.2))
  let into := fun (base : Tab Word) => w.foldl (fun (b : Tab Word) (e : Nat × Word) => b.set e.1 e.2) base
  ({ d with cfg := { d.cfg with committed := into d.cfg.committed, applied := into d.cfg.applied },
            fold := { d.fold with configDigest := sha384 (entryBytes t) } } : Dev).applyFioKeep
/-- CALIB_DIGEST: the newest committed record of each RTYPE and CHAN in ascending order, then the newer copy of the Fold remap record that
verifies (R447). A record is taken up to its flag unit (DEDUCED, assumption log 36). -/
def Dev.calibDigest (d : Dev) : Bytes :=
  let rs := d.ilu.calb.filter StoreRec.counts
  let ks := sortOn (fun k : Nat => k) (rs.foldl (fun l r => addOnce (r.rtype * 256 + r.chan) l) [])
  let newest := ks.filterMap (fun k =>
    let m := rs.filter (fun r => r.rtype * 256 + r.chan == k)
    m.find? (fun r => r.seq == maxSeq m))
  let copy := match d.ilu.foldRemapSeq 14, d.ilu.foldRemapSeq 15 with
    | some x, some y => d.ilu.read ((if x < y then 15 else 14) * 65536) 268
    | some _, none => d.ilu.read (14 * 65536) 268
    | none, some _ => d.ilu.read (15 * 65536) 268
    | none, none => []
  sha384 (newest.flatMap (fun r => d.ilu.read r.addr (r.len - 512)) ++ copy)
/-- The lifecycle entry a past boot could not append (R372, R405). -/
def Dev.settleLifecycle (d : Dev) (fails : TallyFails) : Dev :=
  match d.fold.lcOwed with
  | none => d
  | some (t, kids) =>
    let r := d.appendEntry { Entry.blank 7 with detail := t, ref := d.fold.ownerCtr, digest := d.fold.ownerDigest, kids := kids, eflags := 1 } fails
    if r.2 then ({ r.1 with fold := { r.1.fold with lcOwed := none } } : Dev).addNote (BootNote.mk' 4 0 0 0 r.1.fold.tally.rseq)
    else r.1
/-- Notes of an interrupted slot write and of refusals that no entry reported (R391, R405, R449). -/
def Dev.settleNotes (d : Dev) : Dev :=
  let p := d.ilu.pointer
  let d1 := if p.updKind ≠ 0 then d.addNote (BootNote.mk' 2 0 0 p.updCid 0) else d
  if d1.fold.refusals = 0 then d1
  else ({ d1 with fold := { d1.fold with refusals := 0 } } : Dev).addNote (BootNote.mk' 5 0 0 0 d1.fold.refusals)
/-- A component entry's bytes (Table 15-5). -/
def CompEnt.toBytes (c : CompEnt) : Bytes :=
  leBytes 4 c.cid ++ leBytes 4 c.secver ++ leBytes 1 c.ckind ++ leBytes 1 c.slot ++ leBytes 1 c.signers ++ zeros 1 ++ leBytes 4 c.units
    ++ padTo 48 c.digest
/-- A note's bytes (Table 15-6). -/
def BootNote.toBytes (n : BootNote) : Bytes :=
  leBytes 1 n.ntype ++ leBytes 1 n.detail ++ leBytes 1 n.nslot ++ zeros 1 ++ leBytes 4 n.cid ++ leBytes 8 n.ref
/-- The body of the boot record (Tables 15-4 to 15-6). -/
def Dev.bootBody (d : Dev) (halted : Bool) (nonce : Bytes) : Bytes :=
  let f := d.fold
  let kid := fun (p : Option (Bytes × Bytes)) => match p with
    | some (a, b) => padTo 16 a ++ padTo 16 b
    | none => zeros 32
  let notes := f.notes.take 32
  leBytes 1 f.bootReason
    ++ leBytes 1 (bit f.cosign + 2 * bit halted + 4 * bit f.ownerLost + 8 * bit f.latched + 16 * bit d.ilu.newestDesc.isSome)
    ++ leBytes 1 f.comps.length ++ leBytes 1 notes.length ++ leBytes 2 (Nat.min f.alias1Cert.length 1024) ++ zeros 2
    ++ leBytes 8 f.ownerCtr ++ padTo 48 f.ownerDigest ++ padTo 48 f.configDigest ++ padTo 48 d.calibDigest ++ padTo 32 nonce
    ++ leBytes 4 f.tamperReg ++ leBytes 4 f.haltCount ++ leBytes 8 f.lms.next
    ++ kid (some (f.vendorKid 0)) ++ kid (some (f.vendorKid 1)) ++ kid f.ownerKid ++ zeros 32 ++ zeros 48 ++ padTo 1024 f.alias1Cert
    ++ f.comps.flatMap CompEnt.toBytes ++ notes.flatMap BootNote.toBytes
/-- Cuts bytes into runs of `n`. -/
def chunked (n : Nat) : Nat → Bytes → List Bytes
  | 0, _ => []
  | k + 1, b => if b = [] then [] else b.take n :: chunked n k (b.drop n)

/-! ### BOOT_SEQUENCE (Table 15-1, steps 2 to 7) -/

/-- The boot stops for good at a stage, with a check code. -/
def Dev.bootHalt (d : Dev) (stage : Nat) : Dev :=
  { d with fold := { d.fold with halted := true, stage := stage }, evt := { d.evt with collieArmed := false } }
/-- Steps 5 to 7, run by the Fold firmware: counters and leaves, images and configuration, settling, the boot record. -/
def Dev.bootFirmware (d : Dev) (fails : TallyFails) : Dev :=
  let d1 := { d with fold := { d.fold with bootCtr := d.fold.bootCtr + 1, stage := 4 } }
  match d1.fold.lms.reserve with
  | none => d1.bootHalt 4
  | some l =>
    let d2 := { d1 with fold := { d1.fold with lms := l, stage := 5 } }
    let a := d2.chooseKind 2
    let b := a.1.chooseKind 3
    let d3 := (b.1.bootModules.voidUncommitted.loadConfig).settleLifecycle fails
    let d4 := d3.settleNotes
    let halted := !a.2 || !b.2 || d4.fold.ownerLost || d4.fold.latched || decide (3 ≤ d4.evt.doubleTrapResets)
    let d5 := { d4 with fold := { d4.fold with stage := 6 } }
    let r := d5.tickFree.append 1 (d5.bootBody halted (d5.drawn 32)) fails
    if !r.2 then r.1.bootHalt 6
    else
      let extra := chunked 1024 8 ((r.1.fold.notes.drop 32).flatMap BootNote.toBytes)
      let d6 := extra.foldl (fun (x : Dev) b => (x.appendEntry { Entry.blank 0x0C with data := b } 0).1) r.1
      let f := d6.fold.layer2 r.1.fold.tally.prev
      let d7 := ({ d6 with fold := { f with haltCount := 0, stage := 7 } } : Dev).loadBlobs
      if halted then d7.bootHalt 7 else d7
/-- Steps 2 to 4, run by the boot ROM. -/
def Dev.bootRom (d : Dev) (fails : TallyFails) : Dev :=
  let d0 := { d with fold := { d.fold with lcValid := true, stage := 2, inReset := false } }
  let f := d0.fold
  if fieldWeak f.otp.vp ∨ fieldWeak f.otp.decom then (d0.tamperSet 3).romHalt 0
  else if f.lc = 3 then (if f.decomLeft ∨ f.otp.udsWrap ≠ List.replicate 56 0xFF then d0.decommissionRest else d0)
  else if f.lc = 0 then d0
  else match udsOf f.otp with
    | none => (d0.tamperSet 2).romHalt 0
    | some uds =>
      let d1 := ({ d0 with fold := { f.layer0 uds with stage := 3 } } : Dev).loadSlot 0 (Config.kdf uds lblMedia 64)
      match d1.runSlot 1 0 with
      | none => (d1.chooseKind 1).1.romHalt (d1.slotCode 1 (d1.ilu.pointer.slotOf 1 0))
      | some s =>
        let b := d1.ilu.slotModule 1 s
        let d2 := (d1.chooseKind 1).1
        let d3 := ({ d2 with fold := d2.fold.layer1 uds b } : Dev).startCore 0 b
        ({ d3 with evt := { d3.evt with collieArmed := true, colliePet := d3.run, collieNs := 5000000000, colliePre := false } } : Dev).bootFirmware fails
/-- BOOT_SEQUENCE: it waits while the DRBG gives no output (R388), and runs once after each release of reset. -/
def execBootSequence (fails : TallyFails) (s : State) : Out :=
  s.apply fun d =>
    if d.fold.stage ≠ 1 ∨ d.fold.halted ∨ !d.clk.started ∨ d.pwr.pf ≠ .idle ∨ d.evt.seqn ≠ .none then d
    else if (d.fold.lc = 1 ∨ d.fold.lc = 2) ∧ !d.drbgOk then d
    else d.bootRom fails

/-! ### CORE_RELEASE and CONTROLLER_READY -/

/-- Committed deltas follow the newest committed snapshot. -/
def IluSt.deltasPending (i : IluSt) : Bool :=
  let rs := i.pcfg.filter StoreRec.counts
  let top := maxSeq (rs.filter (fun r => r.rtype == 2))
  rs.any (fun r => r.rtype == 1 && decide (top < r.seq))
/-- Every module of the die links is trained or has used its attempts (R16). -/
def Dev.modulesTrained (d : Dev) : Bool :=
  (List.range 12).all (fun i => (d.hub.mods.get? i).any (fun m => m.up || decide (3 ≤ m.attempts)))
/-- CORE_RELEASE: after step 7, the DRAM fill and the training of the die links, the cores begin in their images, and V firmware writes the snapshot that is due (R446). -/
def Dev.coreRelease (d : Dev) : Dev :=
  if d.fold.stage ≠ 7 ∨ d.fold.halted ∨ !d.integ.dram ∨ !d.modulesTrained ∨ d.pwr.pf ≠ .idle ∨ d.evt.seqn ≠ .none then d
  else
    let go := fun (kind : Nat) (x : Dev) => (kindUnits kind).foldl (fun (x : Dev) u => match d.runSlot kind u with
      | some s => x.startCore (unitCore kind u) (d.ilu.slotModule kind s)
      | none => x) x
    let d1 := go 3 (go 2 d)
    let d2 := { d1 with fold := { d1.fold with stage := 8 } }
    if d2.ilu.deltasPending then d2.writeSnapshot else d2
/-- CORE_RELEASE. -/
def execCoreRelease (s : State) : Out := s.apply Dev.coreRelease
/-- The counters of the boot images rise to the lowest SECVER that runs (R396). -/
def Dev.raiseBoot (d : Dev) (fails : TallyFails) : Dev :=
  let cs := d.fold.comps.filter (fun c => c.ckind != 4)
  let ids := cs.foldl (fun l c => addOnce c.cid l) []
  ids.foldl (fun (x : Dev) i =>
    let vs := (cs.filter (fun c => c.cid == i)).map (fun c => c.secver)
    (x.raiseCounter i (vs.foldl Nat.min (vs.headD 0)) 0 fails).1) d
/-- CONTROLLER_READY: replay and rebuild have ended; RDY is set on every enabled controller (R133), and the first at a boot advances the
counters. -/
def Dev.controllerReady (d : Dev) (fails : TallyFails) : Dev :=
  let ks := (d.nvme.ctrls.filter (fun e => e.2.en && !e.2.rdy)).map (fun e => e.1)
  if d.fold.stage < 8 ∨ d.mapc.rbPhase ≠ 0 ∨ d.evt.fatal ∨ d.pwr.pf ≠ .idle ∨ ks = [] then d
  else
    let d1 := ks.foldl (fun (x : Dev) k => x.modCtrl k (fun c => { c with rdy := true })) d
    let d2 := { d1 with fold := { d1.fold with stage := 10, readyDone := true } }
    if d.fold.readyDone then d2 else d2.raiseBoot fails
/-- CONTROLLER_READY. -/
def execControllerReady (fails : TallyFails) (s : State) : Out := s.apply fun d => d.controllerReady fails

end Sys2Proof.Machine
end

