-- ==== Sys2Proof/Machine/Mctp.lean ====
section
/-! DEFINITION. The Walk ring station, MCTP reassembly and control messages, and the I3C target's modes (R489 to R500, R503). MCTP's header and
control message layouts are those of DMTF DSP0236 (PRESUMED, assumption log 37). -/

namespace Sys2Proof.Machine

/-! ### Frames (R490, R491) -/

/-- A character (Table 20-1): control flag, value, odd parity. -/
def walkChar (ctl : Bool) (v : Nat) : BitVec 10 :=
  let w := bit ctl + 2 * v
  BitVec.ofNat 10 (w + 512 * ((countOnes 9 w + 1) % 2))
/-- Odd parity holds. -/
def charOk (c : BitVec 10) : Bool := countOnes 10 c.toNat % 2 == 1
/-- Control code of a character; none for a data character. -/
def charCtl (c : BitVec 10) : Option Nat := if bitOf c.toNat 0 then some (bitsOf c.toNat 8 1) else none
/-- The data byte of a character. -/
def charByte (c : BitVec 10) : Nat := bitsOf c.toNat 8 1
/-- The characters of a frame whose bytes DEST to CRC are given. -/
def frameChars (b : Bytes) : List (BitVec 10) := walkChar true 1 :: b.map (fun x => walkChar false x.toNat) ++ [walkChar true 2]
/-- The bytes DEST to CRC of a frame. -/
def frameBytes (dest src : Nat) (packet : Bytes) : Bytes :=
  let b := leBytes 1 dest ++ leBytes 1 src ++ leBytes 1 packet.length ++ packet
  b ++ leBytes 2 (crc16 b)
/-- The frame is free of the faults of R491; `broken` says that a break was seen. -/
def frameOk (cs : List (BitVec 10)) (broken : Bool) : Bool :=
  let inner := (cs.drop 1).dropLast
  let b : Bytes := inner.map (fun c => BitVec.ofNat 8 (charByte c))
  let len := leAt b 2 1
  !broken && cs.all charOk && (cs.head?.bind charCtl) == some 1 && (cs.getLast?.bind charCtl) == some 2
    && inner.all (fun c => (charCtl c).isNone) && decide (len ≤ 68) && b.length == len + 5 && crc16 (b.take (len + 3)) == leAt b (len + 3) 2
/-- DEST or SRC character of a frame, when it has been decoded as data. -/
def frameByte (cs : List (BitVec 10)) (i : Nat) : Option Nat :=
  match cs[i]? with
  | some c => if charOk c && (charCtl c).isNone then some (charByte c) else none
  | none => none
/-- The station's address (R492). -/
def Dev.station (d : Dev) : Nat := d.pins.walkAddr % 32
/-- Changes the Walk state. -/
def Dev.modWalk (d : Dev) (f : WalkSt → WalkSt) : Dev := { d with walk := f d.walk }

/-- A frame for this station is captured (R495): in Standby it ends Standby and is discarded; with both buffers full it is dropped; otherwise
it waits for delivery, and in PS2 to PS4 it wakes the management path. -/
def Dev.capture (d : Dev) (f : RxFrame) : Dev :=
  if d.pwr.standby then d.powerOnReset
  else if 2 ≤ d.walk.rx.length then d.modWalk fun w => { w with rxDrop := sat 0xFF (w.rxDrop + 1) }
  else (d.modWalk fun w => { w with rx := w.rx ++ [f] }).mgmtWake false
/-- WALK_FRAME_RECEIVE: a frame not from this station passes it; one for the station is captured, a broadcast captured and forwarded, any other
one repeated (R492, R493). -/
def Dev.walkReceive (d : Dev) (cs : List (BitVec 10)) (broken : Bool) : Dev :=
  if !d.walk.joined then d
  else
    let d0 := d.modWalk fun w => { w with insert := 0, inFrame := false }
    let f : RxFrame := { ok := frameOk cs broken, station := (frameByte cs 2).getD 0,
                         packet := ((cs.drop 4).take ((frameByte cs 3).getD 0)).map (fun c => BitVec.ofNat 8 (charByte c)) }
    if frameByte cs 1 = some d.station then d0.capture f
    else if frameByte cs 2 = some d.station then d0
    else if frameByte cs 1 = some 0xFF then (d0.emit (.walkFrame cs)).capture f
    else d0.emit (.walkFrame cs)
/-- WALK_FRAME_RECEIVE: the characters of the frame and whether a break was seen. -/
def execWalkFrameReceive (cs : List (BitVec 10)) (broken : Bool) (s : State) : Out := s.apply fun d => d.walkReceive cs broken
/-- The probe of a ring check has come back (R497). -/
def Dev.probeBack (d : Dev) : Dev :=
  if d.walk.probeAt.isSome ∨ d.walk.ringFail then d.modWalk fun w => { w with probeAt := none, probes := 0, ringFail := false } else d
/-- WALK_FRAME_REMOVE: downstream sees ABORT in place of character 2 of a frame for the station, or of character 3 of one of its own; a probe
that comes back ends the ring check. -/
def Dev.walkRemove (d : Dev) (cs : List (BitVec 10)) (broken : Bool) : Dev :=
  if !d.walk.joined then d
  else
    let d0 := d.modWalk fun w => { w with insert := 0, inFrame := false }
    let mine := frameByte cs 2 == some d.station
    if frameByte cs 1 = some d.station then
      let d1 := d0.emit (.walkFrame (cs.take 2 ++ [walkChar true 3]))
      if mine && frameOk cs broken && frameByte cs 3 == some 0 then d1.probeBack else d1
    else if mine then d0.emit (.walkFrame (cs.take 3 ++ [walkChar true 3]))
    else d
/-- WALK_FRAME_REMOVE. -/
def execWalkFrameRemove (cs : List (BitVec 10)) (broken : Bool) (s : State) : Out := s.apply fun d => d.walkRemove cs broken

/-- The transmitter may start a frame of its own (R494); it is timed from the root, so only while paddock 201 is On (R456). -/
def Dev.walkMayTx (d : Dev) : Bool := d.walk.joined && d.walk.insert == 0 && !d.walk.inFrame && d.cfgv 0x00D 1 == 1 && d.padOn 201
/-- WALK_TRANSMIT: the oldest frame that waits is sent; `arriving` characters of an upstream frame come in meanwhile and wait in the insertion
buffer until that frame has passed. -/
def Dev.walkTransmit (d : Dev) (arriving : Nat) : Dev :=
  match d.walk.tx with
  | [] => d
  | f :: t =>
    if !d.walkMayTx then d
    else
      let d1 := (d.emit (.walkFrame (frameChars f))).modWalk fun w => { w with tx := t, insert := Nat.min arriving 75, inFrame := decide (0 < arriving) }
      if t = [] ∧ d1.walk.msgs = [] then d1.mgmtDone else d1
/-- WALK_TRANSMIT. -/
def execWalkTransmit (arriving : BitVec 7) (s : State) : Out := s.apply fun d => d.walkTransmit arriving.toNat
/-- Sends a probe of a ring check. -/
def Dev.sendProbe (d : Dev) (n : Nat) : Dev :=
  (d.emit (.walkFrame (frameChars (frameBytes d.station d.station [])))).modWalk fun w => { w with probeAt := some d.now, probes := n, lastCheck := d.now }
/-- RING_CHECK_PROBE: RINGCHECK_MS after the last check, with the transmitter idle. -/
def Dev.ringCheck (d : Dev) : Dev :=
  if !d.walkMayTx ∨ d.walk.probeAt.isSome ∨ d.walk.tx ≠ [] then d
  else (d.advanceTo (d.walk.lastCheck + d.cfgv 0x00D 2 * 1000000)).sendProbe 1
/-- RING_CHECK_PROBE. -/
def execRingCheckProbe (s : State) : Out := s.apply Dev.ringCheck
/-- PROBE_TIMEOUT: no probe has come back within 5 ms: the next of three is sent once the transmitter may, and after the third the check fails
(R497; three probes one after another DEDUCED, assumption log 38). -/
def Dev.probeTimeout (d : Dev) : Dev :=
  match d.walk.probeAt with
  | none => d
  | some t =>
    let d1 := d.advanceTo (t + 5000000)
    if d1.walk.probes < 3 then (if d1.walkMayTx then d1.sendProbe (d1.walk.probes + 1) else d)
    else
      (d1.modWalk fun w => { w with probeAt := none, probes := 0, ringFail := true, probeFail := sat 0xFF (w.probeFail + 1) }).post
        0x00B d.station 5000 0x05 2
/-- PROBE_TIMEOUT. -/
def execProbeTimeout (s : State) : Out := s.apply Dev.probeTimeout
/-- PASS_SWITCH_CHANGE: the switch opens once paddock 0 is out of reset and the station joins with a probe; it closes while paddock 0 is held in
reset (R496). -/
def Dev.passSwitch (d : Dev) (opens : Bool) : Dev :=
  if opens then
    if d.walk.joined ∨ !d.pins.pwrok then d
    else
      let d1 := d.modWalk fun w => { w with joined := true, insert := 0, inFrame := false }
      if d1.walkMayTx then d1.sendProbe 1 else d1
  else if d.pins.pwrok then d
  else d.modWalk fun w => { w with joined := false, insert := 0, inFrame := false, probeAt := none, probes := 0 }
/-- PASS_SWITCH_CHANGE. -/
def execPassSwitchChange (opens : Bool) (s : State) : Out := s.apply fun d => d.passSwitch opens

/-! ### MCTP (R498 to R500) -/

/-- Endpoint ID of a path. -/
def WalkSt.eid (w : WalkSt) (p : MPath) : Nat :=
  match p with
  | .walk => w.eidWalk
  | .i3c => w.eidI3c
/-- A packet of a path is taken into its message. -/
def Dev.mctpTake (d : Dev) (path : MPath) (station : Nat) (b : Bytes) : Dev :=
  let w := d.walk
  let dst := leAt b 1 1
  let src := leAt b 2 1
  let h := leAt b 3 1
  let tag := h % 16
  let seq := bitsOf h 5 4
  let same := fun (x : MctpPart) => x.path == path && x.src == src && x.tag == tag
  let old := w.parts.find? same
  let rest := w.parts.filter (fun x => !same x)
  let body := b.drop 4
  if b.length < 5 ∨ leAt b 0 1 % 16 ≠ 1 ∨ (dst ≠ 0 ∧ dst ≠ 0xFF ∧ dst ≠ w.eid path) then d
  else
    let whole : Option Bytes :=
      if bitOf h 7 then some body
      else match old with
        | some x => if x.nextSeq = seq then some (x.bytes ++ body) else none
        | none => none
    match whole with
    | none => d.modWalk fun w => { w with parts := rest }
    | some m =>
      if 4224 < m.length then d.modWalk fun w => { w with parts := rest }
      else if !bitOf h 6 then
        let x : MctpPart := { path := path, station := station, src := src, tag := tag, bytes := m, nextSeq := (seq + 1) % 4 }
        d.modWalk fun w => { w with parts := x :: rest }
      else
        let mt := leAt m 0 1 % 128
        if mt ≠ 0 ∧ mt ≠ 4 ∧ mt ≠ 5 then d.modWalk fun w => { w with parts := rest, badType := sat 0xFF (w.badType + 1) }
        else if mt ≠ 0 ∧ w.eid path = 0 then d.modWalk fun w => { w with parts := rest }
        else
          let x : MgmtMsg := { path := path, station := station, src := src, tag := tag, mtype := mt, body := if mt = 4 then m else m.drop 1 }
          d.modWalk fun w => { w with parts := rest, msgs := w.msgs ++ [x] }
/-- MCTP_PACKET: the oldest captured frame is delivered and checked, or a packet arrives at the I3C target; both need the management path, and
the target NACKs until it is up (R466, R495). -/
def Dev.mctpPacket (d : Dev) (x : MctpIn) : Dev :=
  if d.pwr.standby ∨ !d.padOn 201 then d
  else match x with
    | .i3c b => d.mctpTake .i3c 0 b
    | .walk => match d.walk.rx with
      | [] => d
      | f :: t =>
        let d1 := d.modWalk fun w => { w with rx := t }
        if !f.ok then d1.modWalk fun w => { w with rxBad := sat 0xFF (w.rxBad + 1) }
        else if f.packet = [] then d1
        else d1.mctpTake .walk f.station f.packet

/-- A requester's number: endpoints of the Walk ring, then of I3C. -/
def MgmtMsg.key (m : MgmtMsg) : Nat := (if m.path = .walk then 0 else 256) + m.src
/-- The message to serve next: round robin over the requesters that wait, oldest first within each (R500). -/
def Dev.nextMsg (d : Dev) : Option MgmtMsg :=
  let ks := sortOn (fun k : Nat => k) (d.walk.msgs.map MgmtMsg.key)
  let k := match ks.find? (fun k => decide (d.walk.lastReq < k)) with
    | some k => some k
    | none => ks.head?
  k.bind (fun k => d.walk.msgs.find? (fun m => m.key == k))
/-- Who answers (R503): 0 nobody yet, 1 the halted boot ROM, 2 Fold firmware, 3 V firmware of Shepherd core 0. -/
def Dev.mgmtLevel (d : Dev) : Nat :=
  if d.pwr.standby ∨ !d.padOn 201 then 0
  else if (d.core 1).run != .inReset then 3
  else if d.fold.inReset then 0
  else if (d.core 0).run != .inReset then 2
  else if d.fold.halted || (d.fold.lcValid && (d.fold.lc == 3 || d.fold.lc == 0)) then 1
  else 0
/-- Packets of a message: at most 64 payload bytes each, with SOM, EOM and sequence numbers. -/
def mctpSplit (dst src tag : Nat) : Nat → Nat → Bytes → List Bytes
  | 0, _, _ => []
  | n + 1, seq, b =>
    let last := decide (b.length ≤ 64)
    let h := 128 * bit (seq == 0) + 64 * bit last + 16 * (seq % 4) + tag % 8
    (leBytes 1 1 ++ leBytes 1 dst ++ leBytes 1 src ++ leBytes 1 h ++ b.take 64) :: (if last then [] else mctpSplit dst src tag n (seq + 1) (b.drop 64))
/-- The answer to a message leaves on its path; over the Walk ring in frames that wait for the transmitter, and not at all with
WALK_TX_ENABLE at 0 (R505). The message has been served. -/
def Dev.mgmtReply (d : Dev) (m : MgmtMsg) (b : Bytes) : Dev :=
  let d1 := d.modWalk fun w => { w with msgs := w.msgs.erase m, lastReq := m.key }
  match m.path with
  | .walk =>
    if d.cfgv 0x00D 1 = 0 then (if d1.walk.msgs = [] then d1.mgmtDone else d1)
    else
      let full := if m.mtype = 4 then b else leBytes 1 m.mtype ++ b
      let ps := mctpSplit m.src d.walk.eidWalk m.tag 512 0 full
      d1.modWalk fun w => { w with tx := w.tx ++ ps.map (frameBytes m.station d.station) }
  | .i3c =>
    let d2 := d1.emit (.mctp .i3c m.src m.tag m.mtype b)
    if d2.walk.msgs = [] ∧ d2.walk.tx = [] then d2.mgmtDone else d2

/-! ### NVMe-MI responses, and requests that no operation serves -/

/-- An NVMe-MI response to a message: status, response field, data, and the CRC-32C of it all. -/
def miResponse (m : MgmtMsg) (st resp : Nat) (b : Bytes) : Bytes :=
  let r := leBytes 1 0x84 ++ leBytes 1 (0x80 + leAt m.body 1 1 % 128) ++ zeros 2 ++ leBytes 1 st ++ leBytes 3 resp ++ b
  r ++ leBytes 4 (crc32c r)
/-- NVMe-MI message type of a message: 1 NVMe-MI command, 2 NVMe Admin command. -/
def MgmtMsg.nmimt (m : MgmtMsg) : Nat := bitsOf (leAt m.body 1 1) 6 3
/-- No operation of Table 20-3 serves the message: an unknown command, or no request at all. -/
def MgmtMsg.unserved (m : MgmtMsg) : Bool :=
  if m.mtype = 0 then !bitOf (leAt m.body 0 1) 7 || ! [1, 2, 3, 4, 5].contains (leAt m.body 1 1)
  else if m.mtype = 5 then ! [0x81, 0x82, 0x83, 0x84, 0x85, 0x86, 0xE0, 0xE1, 0xE3].contains (leAt m.body 1 1)
  else bitOf (leAt m.body 1 1) 7 || (m.nmimt == 1 && ! [0x00, 0x01, 0x02, 0x03, 0x04, 0x05, 0xC0, 0xC1].contains (leAt m.body 4 1))
    || !(m.nmimt == 1 || m.nmimt == 2)
/-- Its answer: an unsupported-command code, or none for a message that is no request. -/
def Dev.unservedAnswer (d : Dev) (m : MgmtMsg) : Option Bytes :=
  if m.mtype = 0 then
    (if bitOf (leAt m.body 0 1) 7 then some (leBytes 1 (leAt m.body 0 1 % 32) ++ leBytes 1 (leAt m.body 1 1) ++ leBytes 1 5) else none)
  else if m.mtype = 5 then if d.fold.lc = 3 then none else some (leBytes 1 0x13 ++ leBytes 1 0x7F ++ leBytes 1 (if d.mgmtLevel < 2 then 4 else 7) ++ zeros 1)
  else if bitOf (leAt m.body 1 1) 7 then none
  else some (miResponse m (if d.mgmtLevel < 3 then 2 else 3) 0 [])
/-- A message has been served without an answer. -/
def Dev.mgmtDrop (d : Dev) (m : MgmtMsg) : Dev := d.modWalk fun w => { w with msgs := w.msgs.erase m, lastReq := m.key }
/-- Every message at the head of the order that no operation serves is answered, once somebody answers (R501, R503; a supported message waits for
its own command). -/
def Dev.sweepMsgs : Nat → Dev → Dev
  | 0, d => d
  | n + 1, d =>
    match d.nextMsg with
    | none => d
    | some m =>
      if !m.unserved ∨ d.mgmtLevel = 0 then d
      else Dev.sweepMsgs n (match d.unservedAnswer m with
        | some b => d.mgmtReply m b
        | none => d.mgmtDrop m)
/-- The same over all messages that wait. -/
def Dev.sweep (d : Dev) : Dev := d.sweepMsgs d.walk.msgs.length

/-! ### Control messages -/

/-- An MCTP control message of a command code is served: `f` gives the new state and the response after the completion code. -/
def Dev.mctpControl (d0 : Dev) (code : Nat) (f : Dev → MgmtMsg → Dev × Nat × Bytes) : Dev :=
  let d := d0.sweep
  match d.nextMsg with
  | none => d
  | some m =>
    if m.mtype ≠ 0 ∨ d.mgmtLevel = 0 ∨ !bitOf (leAt m.body 0 1) 7 ∨ leAt m.body 1 1 ≠ code then d
    else
      let r := f d m
      r.1.mgmtReply m (leBytes 1 (leAt m.body 0 1 % 32) ++ leBytes 1 code ++ leBytes 1 r.2.1 ++ r.2.2)
/-- MCTP_PACKET. -/
def execMctpPacket (x : MctpIn) (s : State) : Out := s.apply fun d => (d.mctpPacket x).sweep
/-- Sets the endpoint ID of a path. -/
def Dev.setEid (d : Dev) (p : MPath) (e : Nat) : Dev :=
  d.modWalk fun w => match p with
    | .walk => { w with eidWalk := e }
    | .i3c => { w with eidI3c := e }
/-- SET_ENDPOINT_ID: operations 0 and 1 set it; 0x00 and 0xFF are no endpoint IDs. -/
def execSetEndpointId (s : State) : Out :=
  s.apply fun d => d.mctpControl 1 fun d m =>
    let e := leAt m.body 3 1
    if 2 ≤ leAt m.body 2 1 % 4 ∨ e = 0 ∨ e = 0xFF then (d, 2, [])
    else (d.setEid m.path e, 0, zeros 1 ++ leBytes 1 e ++ zeros 1)
/-- GET_ENDPOINT_ID. -/
def execGetEndpointId (s : State) : Out :=
  s.apply fun d => d.mctpControl 2 fun d m => (d, 0, leBytes 1 (d.walk.eid m.path) ++ zeros 2)
/-- GET_ENDPOINT_UUID: the manual gives the UUID no value (assumption log 37). -/
def execGetEndpointUuid (s : State) : Out :=
  s.apply fun d => d.mctpControl 3 fun d _ => (d, 0, (List.range 16).map Config.mctpUuid)
/-- GET_MCTP_VERSION_SUPPORT: one version, whose bytes the manual does not give (assumption log 37). -/
def execGetMctpVersionSupport (s : State) : Out :=
  s.apply fun d => d.mctpControl 4 fun d m => (d, 0, leBytes 1 1 ++ (List.range 4).map (Config.mctpVersion (leAt m.body 2 1)))
/-- GET_MESSAGE_TYPE_SUPPORT: NVMe-MI and SPDM beside control. -/
def execGetMessageTypeSupport (s : State) : Out :=
  s.apply fun d => d.mctpControl 5 fun d _ => (d, 0, leBytes 1 2 ++ leBytes 1 4 ++ leBytes 1 5)

/-! ### The I3C target's mode (R499) -/

/-- A change of mode discards packets in transfer on the path. -/
def Dev.i3cMode (d : Dev) (i3c : Bool) (a : Nat) : Dev :=
  d.modWalk fun w => { w with i3c := i3c, dynAddr := a, parts := w.parts.filter (fun x => x.path != .i3c) }
/-- I3C_ADDRESS_ASSIGNMENT: SETDASA or ENTDAA assigns a dynamic address. -/
def execI3cAddressAssignment (a : BitVec 7) (s : State) : Out :=
  s.apply fun d => if d.pwr.standby then d else d.i3cMode true a.toNat
/-- RSTDAA, or a bus reset. -/
def execRstdaa (s : State) : Out := s.apply fun d => if d.walk.i3c then d.i3cMode false 0 else d

end Sys2Proof.Machine
end

