-- ==== Sys2Proof/Machine/Tcg.lean ====
section
/-! DEFINITION. Key generations of namespaces, the TCG security providers and the lifecycle requests that erase keys
(R415 to R418, R422 to R425, R371 to R381). -/

namespace Sys2Proof.Machine

/-! ### Generation changes (Table 16-4) -/

/-- Sets the key binding of a namespace. -/
def Dev.setBind (d : Dev) (n : Nat) (k : KeyBind) : Dev :=
  { d with nvme := { d.nvme with ns := d.nvme.ns.set n { d.nvme.ns.get NsSt.init n with key := k } } }

/-- The lowest empty generation entry. -/
def KeyBind.freeIdx (k : KeyBind) : Option Nat :=
  [0, 1, 2, 3].find? (fun j => (k.gens.get? j).all (fun g => g.gstate == 0))

/-- The whole-namespace record of a change (R230); none while it cannot be placed. -/
def Dev.nsRecord (d : Dev) (n : Nat) : Option Dev :=
  let h := ((d.nvme.ns.get NsSt.init n).handles.head?).getD 0
  let r := d.ensurePlaced h (fun x => x.trimAll n) 3
  if r.2 then some r.1 else none

/-- The current generation of a namespace is retired; which it was. -/
def Dev.retireCurrent (d : Dev) (n : Nat) : Dev × List (Nat × Nat) :=
  let k := d.keyBind n
  match k.current with
  | none => (d, [])
  | some g => (d.setBind n { k with cur := 0xFF, gens := k.gens.set k.cur { g with gstate := 2 } }, [(n, k.cur)])

/-- A slot becomes the current generation of a namespace in entry j, from the next WSN on. -/
def Dev.makeCurrent (d : Dev) (n j slot : Nat) : Dev :=
  let k := d.keyBind n
  d.setBind n { k with cur := j, gens := k.gens.set j { slot := slot, gstate := 1, startWsn := d.drove.wsn } }

/-- A generated key becomes current; none while no entry or slot is free or the DRBG gives no output. -/
def Dev.newGeneration (d : Dev) (n : Nat) : Option Dev :=
  match (d.keyBind n).freeIdx with
  | none => none
  | some j =>
    let r := d.generateKey n j d.drove.wsn
    r.2.map (fun s => r.1.makeCurrent n j s)

/-- The change of Table 16-4 rows 2 and 3 on one namespace: record, retirement, a new generation. -/
def Dev.changeKey (d : Dev) (n : Nat) : Option (Dev × List (Nat × Nat)) :=
  match d.nsRecord n with
  | none => none
  | some d1 =>
    let r := d1.retireCurrent n
    (r.1.newGeneration n).map (fun x => (x, r.2))

/-- The same on several namespaces. -/
def Dev.changeKeys (d : Dev) : List Nat → Option (Dev × List (Nat × Nat))
  | [] => some (d, [])
  | n :: t =>
    match d.changeKey n with
    | none => none
    | some (d1, g) => (d1.changeKeys t).map (fun r => (r.1, g ++ r.2))

/-- Records only, with the bindings unchanged (Format NVM with SES 0). -/
def Dev.nsRecords (d : Dev) : List Nat → Option Dev
  | [] => some d
  | n :: t => (d.nsRecord n).bind (fun x => x.nsRecords t)

/-- A pen's command completes at once when it retired nothing, else when all of it has been released. -/
def Dev.awaitRelease (d : Dev) (p : Nat) (gens : List (Nat × Nat)) : Dev :=
  if gens = [] then d.complete p scOk 0
  else
    let d1 := d.modPen p (fun x => { x with stage := .external })
    { d1 with nvme := { d1.nvme with keyWaits := d1.nvme.keyWaits.set p gens } }

/-- Commands whose last generation has been released complete. -/
def Dev.endKeyWaits (d : Dev) : Dev :=
  let done := (d.nvme.keyWaits.filter (fun e => e.2 == [])).map (fun e => e.1)
  let d1 := { d with nvme := { d.nvme with keyWaits := d.nvme.keyWaits.filter (fun e => e.2 != []) } }
  done.foldl (fun (x : Dev) p => x.complete p scOk 0) d1

/-- GENERATION_RELEASE: a retired generation that no block of a drove not Released holds: its slot is cleared, its blobs are erased and its
entry becomes empty (R418). It waits while another clear is in progress. -/
def Dev.generationRelease (d : Dev) (n j : Nat) : Dev :=
  let k := d.keyBind n
  match k.gens.get? j with
  | none => d
  | some g =>
    if g.gstate ≠ 2 ∨ d.genBlocks n j ≠ 0 ∨ d.keys.busy then d
    else
      let d1 := ((d.keyClear g.slot).eraseBlob g.slot).setBind n { k with gens := k.gens.erase j }
      ({ d1 with nvme := { d1.nvme with keyWaits := d1.nvme.keyWaits.mapVals (fun _ l => dropAll (n, j) l) } } : Dev).endKeyWaits
/-- GENERATION_RELEASE. -/
def execGenerationRelease (n : BitVec 11) (j : Fin 4) (s : State) : Out := s.apply fun d => d.generationRelease n.toNat j.val

/-! ### TCG security providers (R423 to R425). Which authority may call which method is that of Opal's preconfiguration (PRESUMED, log 40). -/

/-- Method status codes of the TCG core specification. -/
def tcgSuccess : Nat := 0
def tcgNotAuthorized : Nat := 1
def tcgBusy : Nat := 3
def tcgInvalid : Nat := 0x0C
def tcgLockedOut : Nat := 0x12
def tcgFail : Nat := 0x3F

/-- An authority before it is changed: Admin1 and the PSID are enabled. -/
def Authority.init (a : Nat) : Authority := { salt := [], pin := [], tries := 0, enabled := a == 1 || a == 13 }
/-- A range before it is configured. -/
def LockRange.init : LockRange := { rle := false, wle := false, rl := false, wl := false, lockOnReset := false }
/-- An authority. -/
def Dev.authority (d : Dev) (a : Nat) : Authority := d.tcg.auths.get (Authority.init a) a
/-- Replaces an authority. -/
def Dev.setAuthority (d : Dev) (a : Nat) (x : Authority) : Dev := { d with tcg := { d.tcg with auths := d.tcg.auths.set a x } }
/-- A stored PIN is the HMAC of the PIN with its salt under k_seal. -/
def FoldSt.pinMac (f : FoldSt) (salt pin : Bytes) : Bytes := hmac384 f.kSeal (salt ++ pin)
/-- A PIN is an authority's. -/
def Dev.pinOk (d : Dev) (a : Nat) (pin : Bytes) : Bool :=
  let x := d.authority a
  if a = 13 then pin == Config.psid
  else if x.salt = [] then pin == Config.defaultPin
  else x.pin == d.fold.pinMac x.salt pin

/-- An authority is proved: the status, and the count of tries (TryLimit 5). -/
def Dev.prove (d : Dev) (a : Nat) (pin : Bytes) : Dev × Nat :=
  let x := d.authority a
  if a = 0 ∨ 13 < a ∨ !x.enabled then (d, tcgNotAuthorized)
  else if 5 ≤ x.tries then (d, tcgLockedOut)
  else if d.pinOk a pin then (d.setAuthority a { x with tries := 0 }, tcgSuccess)
  else (d.setAuthority a { x with tries := x.tries + 1 }, tcgNotAuthorized)

/-- The session of a controller: security provider and authorities proved. -/
def Dev.sessionOf (d : Dev) (k : Nat) : Option (Nat × List Nat) :=
  match d.tcg.session with
  | some (c, sp, l) => if c = k then some (sp, l) else none
  | none => none

/-- Opens or replaces the session. -/
def Dev.setSession (d : Dev) (x : Option (Nat × Nat × List Nat)) : Dev := { d with tcg := { d.tcg with session := x } }

/-- An Admin authority, or the PSID, has been proved. -/
def adminProved (l : List Nat) : Bool := l.any (fun a => decide (1 ≤ a) && decide (a ≤ 4))

/-- Changes a namespace's range. -/
def Dev.modRange (d : Dev) (n : Nat) (f : LockRange → LockRange) : Dev :=
  { d with tcg := { d.tcg with ranges := d.tcg.ranges.set n (f (d.tcg.ranges.get LockRange.init n)) } }

/-- The method changes persistent state (R425). -/
def persistentMethod (m : TcgMethod) : Bool :=
  match m with
  | .startSession _ _ _ => false
  | .endSession => false
  | .authenticate _ _ => false
  | .setLock _ _ _ => false
  | _ => true

/-- The namespaces a method may name. -/
def Dev.nsOk (d : Dev) (n : Nat) : Bool := (d.nvme.ns.get NsSt.init n).exists_

/-- Reverts the security providers to their original state. -/
def Dev.revertSps (d : Dev) : Dev := { d with tcg := { d.tcg with session := none, auths := [], ranges := [], active := false } }

/-- Injection of a media key (Table 16-4): the unwrapped key becomes current; the status. None while it must wait. -/
def Dev.inject (d : Dev) (n i : Nat) (w : Bytes) : Option (Dev × Nat) :=
  let kek := d.slot (16368 + i)
  match kek.st, Config.aesKwUnwrap ((leBytes 64 kek.content).take 32) w with
  | .loaded, some key =>
    if w.length ≠ 72 ∨ halvesEqual (padTo 64 key) then some (d, tcgFail)
    else
      let r := if (d.keyBind n).current.isSome then (d.nsRecord n).map (fun x => (x.retireCurrent n).1) else some d
      match r with
      | none => none
      | some d1 =>
        match (d1.keyBind n).freeIdx, d1.freeSlot with
        | some j, some s =>
          some (((d1.loadSlot s (padTo 64 key)).storeBlob (d1.fold.blob 1 j s n d1.drove.wsn (padTo 64 key))).makeCurrent n j s, tcgSuccess)
        | _, _ => none
  | _, _ => some (d, tcgFail)

/-- A method in the session of a controller: the device, its status and the generations its completion waits for; none while it waits. -/
def Dev.tcgRun (d : Dev) (k sp : Nat) (l : List Nat) (m : TcgMethod) : Option (Dev × Nat × List (Nat × Nat)) :=
  let adm := adminProved l
  let locking := sp == 1 && d.tcg.active
  let no : Option (Dev × Nat × List (Nat × Nat)) := some (d, tcgNotAuthorized, [])
  let bad : Option (Dev × Nat × List (Nat × Nat)) := some (d, tcgInvalid, [])
  match m with
  | .startSession _ _ _ => some (d, tcgBusy, [])
  | .endSession => some (d.setSession none, tcgSuccess, [])
  | .authenticate a pin =>
    let r := d.prove a.toNat pin
    some (if r.2 = tcgSuccess then r.1.setSession (some (k, sp, addOnce a.toNat l)) else r.1, r.2, [])
  | .setPin a pin =>
    if a = 0 ∨ 12 < a.toNat then bad
    else if !(adm || l.contains a.toNat) then no
    else if !d.drbgOk then none
    else
      let salt := d.drawn 32
      some (d.tickFree.setAuthority a.toNat { d.authority a.toNat with salt := salt, pin := d.fold.pinMac salt pin, tries := 0 }, tcgSuccess, [])
  | .enableAuthority a on =>
    if a = 0 ∨ 12 < a.toNat then bad
    else if !adm then no
    else some (d.setAuthority a.toNat { d.authority a.toNat with enabled := on }, tcgSuccess, [])
  | .activate => if sp = 0 ∧ adm then some ({ d with tcg := { d.tcg with active := true } }, tcgSuccess, []) else no
  | .setRange n rle wle rs =>
    if !(locking && adm) then no
    else if !d.nsOk n.toNat ∨ 1 < rs.toNat then bad
    else some (d.modRange n.toNat (fun r => { r with rle := rle, wle := wle, lockOnReset := rs == 1 }), tcgSuccess, [])
  | .setLock n rl wl =>
    if !locking ∨ l = [] then no
    else if !d.nsOk n.toNat then bad
    else some (d.modRange n.toNat (fun r => { r with rl := rl, wl := wl }), tcgSuccess, [])
  | .genKey n =>
    if !(locking && adm) then no
    else if !d.nsOk n.toNat then bad
    else (d.changeKey n.toNat).map (fun r => (r.1, tcgSuccess, []))
  | .revert => if sp = 0 ∧ adm then (d.revertSps.changeKeys d.namespaces).map (fun r => (r.1, tcgSuccess, r.2)) else no
  | .revertSp => if locking && adm then (d.revertSps.changeKeys d.namespaces).map (fun r => (r.1, tcgSuccess, r.2)) else no
  | .psidRevert b =>
    let r := d.prove 13 b
    if r.2 = tcgSuccess then (r.1.revertSps.changeKeys d.namespaces).map (fun q => (q.1, tcgSuccess, q.2)) else some (r.1, r.2, [])
  | .keyPerIo n =>
    if !(locking && adm) then no
    else if !d.nsOk n.toNat then bad
    else if (d.keyBind n.toNat).current.isNone then
      some (d.setBind n.toNat { d.keyBind n.toNat with mode := 2 }, tcgSuccess, [])
    else (d.nsRecord n.toNat).map (fun x =>
      let y := (x.retireCurrent n.toNat).1
      (y.setBind n.toNat { y.keyBind n.toNat with mode := 2 }, tcgSuccess, []))
  | .installKek i kek =>
    if !(locking && adm) then no
    else if kek.length ≠ 32 ∨ (d.slot (16368 + i.val)).st ≠ .empty then some (d, tcgFail, [])
    else
      let key := kek ++ zeros 32
      some ((d.loadSlot (16368 + i.val) key).storeBlob (d.fold.blob 2 0 (16368 + i.val) 0 0 key), tcgSuccess, [])
  | .injectKey n i w =>
    if !(locking && adm) then no
    else if !d.nsOk n.toNat ∨ (d.keyBind n.toNat).mode ≠ 2 then bad
    else (d.inject n.toNat i.val w).map (fun r => (r.1, r.2, []))
  | .clearKey n =>
    if !(locking && adm) then no
    else if !d.nsOk n.toNat ∨ (d.keyBind n.toNat).mode ≠ 2 then bad
    else if (d.keyBind n.toNat).current.isNone then some (d, tcgSuccess, [])
    else (d.nsRecord n.toNat).map (fun x => ((x.retireCurrent n.toNat).1, tcgSuccess, []))

/-- A method of a controller (R423, R425): one session at a time device-wide; a change of persistent state needs the Crook. -/
def Dev.tcgMethod (d : Dev) (k : Nat) (m : TcgMethod) : Option (Dev × Nat × List (Nat × Nat)) :=
  match d.sessionOf k, m with
  | none, .startSession sp a pin =>
    if d.tcg.session.isSome then some (d, tcgBusy, [])
    else if a = 0 then some (d.setSession (some (k, sp.val, [])), tcgSuccess, [])
    else
      let r := d.prove a.toNat pin
      some (if r.2 = tcgSuccess then r.1.setSession (some (k, sp.val, [a.toNat])) else r.1, r.2, [])
  | none, _ => some (d, tcgNotAuthorized, [])
  | some (sp, l), _ => if persistentMethod m && !d.holdsCrook k then some (d, tcgNotAuthorized, []) else d.tcgRun k sp l m

/-- TCG_METHOD of a Security Send of protocol 0x01 or 0x02: the method's status is kept for the Security Receive. -/
def Dev.tcgCommand (d : Dev) (p : Nat) (m : TcgMethod) : Dev :=
  if d.adminReady p 0x81 && (d.secp p == 1 || d.secp p == 2) then
    let k := d.penCtrl p
    match d.tcgMethod k m with
    | none => d
    | some (d1, st, gens) =>
      ({ d1 with tcg := { d1.tcg with replies := d1.tcg.replies.set k st } } : Dev).awaitRelease p gens
  else d
/-- TCG_METHOD. -/
def execTcgMethod (p : Pen) (m : TcgMethod) (s : State) : Out := s.apply fun d => d.tcgCommand p.val m

/-! ### Lifecycle requests (Table 14-10) -/

/-- The crypto erase of every namespace. -/
def Dev.eraseAll (d : Dev) : Dev :=
  match d.changeKeys d.namespaces with
  | some r => r.1
  | none => d
/-- A request that would be accepted must wait, for the crypto erase it makes cannot be done yet (R417). -/
def Dev.eraseWaits (d : Dev) (b : Bytes) : Bool :=
  match d.lcCheck b with
  | (0, some r) => (r.type == 3 || (r.type == 2 && bitOf (leAt r.payload 0 4) 0)) && (d.changeKeys d.namespaces).isNone
  | _ => false
/-- A lifecycle request of one type. -/
def Dev.lcRow (d : Dev) (type : Nat) (src : LcSource) (b : Bytes) (storeOk : Bool) (fails : TallyFails) : Dev :=
  if d.eraseWaits b then d else d.lcArrive Dev.eraseAll type src b storeOk fails

/-- ENROL. -/
def execEnrol (src : LcSource) (b : Bytes) (storeOk : Bool) (fails : TallyFails) (s : State) : Out :=
  s.apply fun d => d.lcRow 1 src b storeOk fails
/-- TRANSFER. -/
def execTransfer (src : LcSource) (b : Bytes) (storeOk : Bool) (fails : TallyFails) (s : State) : Out :=
  s.apply fun d => d.lcRow 2 src b storeOk fails
/-- RELEASE. -/
def execRelease (src : LcSource) (b : Bytes) (storeOk : Bool) (fails : TallyFails) (s : State) : Out :=
  s.apply fun d => d.lcRow 3 src b storeOk fails
/-- SET_POLICY. -/
def execSetPolicy (src : LcSource) (b : Bytes) (storeOk : Bool) (fails : TallyFails) (s : State) : Out :=
  s.apply fun d => d.lcRow 4 src b storeOk fails
/-- OPEN_DEBUG. -/
def execOpenDebug (src : LcSource) (b : Bytes) (storeOk : Bool) (fails : TallyFails) (s : State) : Out :=
  s.apply fun d => d.lcRow 6 src b storeOk fails
/-- CLOSE_DEBUG. -/
def execCloseDebug (src : LcSource) (b : Bytes) (storeOk : Bool) (fails : TallyFails) (s : State) : Out :=
  s.apply fun d => d.lcRow 7 src b storeOk fails
/-- INSTALL_ENDORSEMENT. -/
def execInstallEndorsement (src : LcSource) (b : Bytes) (storeOk : Bool) (fails : TallyFails) (s : State) : Out :=
  s.apply fun d => d.lcRow 8 src b storeOk fails

end Sys2Proof.Machine
end

