-- ==== Sys2Proof/Machine/RegsView.lean ====
section
/-! DEFINITION. Memories of the internal map that are views of other state: hurdle entries, the drove journal SRAM, the accumulators and the
Iluell read window (Tables 1-6, 6-7, R261, R433). -/

namespace Sys2Proof.Machine

/-- The 32 bytes of a hurdle entry (Table 6-7); a Free entry reads as zeros. -/
def Dev.hurdleBytes (d : Dev) (i : Nat) : Bytes :=
  match d.nvme.hurdles.get? i with
  | none => zeros 32
  | some h => leBytes 8 h.fetch ++ leBytes 8 h.first ++ leBytes 8 h.last ++ leBytes 2 h.nsid ++ leBytes 2 h.cntlid ++ leBytes 1 h.kind
      ++ leBytes 1 h.state ++ leBytes 2 h.waits.length

/-- The open drove whose accumulators stand in a slot. -/
def Dev.droveInSlot (d : Dev) (s : Nat) : Option Drove := d.openDroves.find? (fun x => x.slot == some s)
/-- Word k of an accumulator. -/
def accWord (t : Tab Bytes) (k : Nat) : Bytes := padTo 4128 (t.get [] k)
/-- A byte of the P/Q accumulators: slot s at 384 KiB, P before Q. -/
def Dev.pqByte (d : Dev) (o : Nat) : Byte :=
  match d.droveInSlot (o / 0x60000) with
  | none => 0
  | some x =>
    let q := o % 0x60000
    let t := if q < 0x30000 then x.accP else x.accQ
    (accWord t (q % 0x30000 / 4096)).getD (q % 4096) 0
/-- A byte of the lamb parity accumulators: slot s at 192 KiB. -/
def Dev.lambByte (d : Dev) (o : Nat) : Byte :=
  match d.droveInSlot (o / 0x30000) with
  | none => 0
  | some x => (accWord x.accL (o % 0x30000 / 4096)).getD (o % 4096) 0
/-- An entry of the journal index (R261); its first codeword in the image follows from its place. -/
def Dev.indexEntry (d : Dev) (i : Nat) : Bytes :=
  match d.journalUnits[i]? with
  | none => zeros 32
  | some u =>
    let m := (((d.drove.droves.get? u.serial).map (fun x => x.member u.member)).getD Member.init)
    leBytes 8 u.serial ++ leBytes 2 u.row ++ leBytes 1 u.member ++ leBytes 1 (bit u.issued + 2 * bit (decide (30 ≤ u.member))) ++ leBytes 2 u.keyslot
      ++ leBytes 2 m.die ++ leBytes 4 (4 * m.grp) ++ leBytes 4 (65 + 48 * (d.parityK + 1) * 64 + 50 * i) ++ zeros 8
/-- A byte of the drove journal SRAM: 64 headers of 512 bytes, the SPARE parts of the accumulators, the index (order DEDUCED, assumption
log 42). -/
def Dev.journalByte (d : Dev) (o : Nat) : Byte :=
  if o < 0x8000 then
    match d.droveInSlot (o / 512) with
    | some x => x.header.getD (o % 512) 0
    | none => 0
  else if o < 0x38000 then
    let q := o - 0x8000
    match d.droveInSlot (q / 3072) with
    | some x =>
      let r := q % 3072
      let t := if r < 1536 then x.accP else x.accQ
      (accWord t (r % 1536 / 32)).getD (4096 + r % 32) 0
    | none => 0
  else (d.indexEntry ((o - 0x38000) / 32)).getD (o % 32) 0

/-- A region of the internal map as an access meets it (Table 1-6). -/
inductive Region where
  /-- Byte-addressed memory at a direct address. -/
  | mem (a : Nat)
  /-- A read-only view. -/
  | view
  /-- A register window. -/
  | reg
  /-- Nothing is there. -/
  | unmapped
  /-- The region exists; the level may not access it. -/
  | denied
  deriving DecidableEq, Repr

/-- Channel die window offsets that hold memory: scratch and channel buffers (Table 1-8). -/
def dieMemory (o : Nat) : Bool := decide (o < 0x200000) || (decide (0x1000000 ≤ o) && decide (o < 0x2000000))
/-- Channel die window offsets that hold register windows. -/
def dieRegs (o : Nat) : Bool :=
  (decide (0x8000000 ≤ o) && decide (o < 0x8200000)) || (decide (0xA000000 ≤ o) && decide (o < 0xA200000))
  || (decide (0xC000000 ≤ o) && decide (o < 0xC080000))

/-- The region of an internal address for a core at a level, for loads (R20 to R24, R46). -/
def Dev.regionOf (d : Dev) (c : Nat) (lv : Level) (a : Nat) : Region :=
  if 2 ^ 48 ≤ a then .unmapped
  else if aliasBase ≤ a then
    if aliasBase + scratchSize c ≤ a then .unmapped
    else if lv = .o ∧ a < aliasBase + 0x80000 then .denied
    else .mem (scratchBase c + (a - aliasBase))
  else
    let low := fun (r : Region) => if lv = .o then Region.denied else r
    let foldOnly := fun (r : Region) => if lv = .f then r else Region.denied
    if a < 0x1000000 then foldOnly (if a < 0x40000 then .view else if 0x80000 ≤ a ∧ a < 0x100000 then .mem a else .unmapped)
    else if a < 0x1400000 then low (.mem a)
    else if a < 0x14C0000 then low .view
    else if 0x2000000 ≤ a ∧ a < 0x4000000 then low (.mem a)
    else if (0x4000000 ≤ a ∧ a < 0x5800000) ∨ (0x6000000 ≤ a ∧ a < 0x6C00000) then low .view
    else if 0x8000000 ≤ a ∧ a < 0x8800000 then low (.mem a)
    else if 0x10000000 ≤ a ∧ a < 0x18000000 then
      low (if (a - 0x10000000) / 65536 < 848 ∧ lv ≠ .f then .denied else .view)
    else if 0x20000000 ≤ a ∧ a < 0x21000000 then
      low (if 0x20010000 ≤ a ∧ a < 0x20040000 ∧ lv ≠ .f then .denied else .reg)
    else if (0x21000000 ≤ a ∧ a < 0x22000000) ∨ (0x22000000 ≤ a ∧ a < 0x22010000) then low .reg
    else if 0x40000000 ≤ a ∧ a < 0x80000000 then
      low (if dieMemory (a % 0x10000000) then .mem a else if dieRegs (a % 0x10000000) then .reg else .unmapped)
    else if dramBase ≤ a ∧ a < dramBase + d.dramSize then low (.mem a)
    else if 0x18000000 ≤ a ∧ a < 0x20000000 ∨ 0x80000000 ≤ a ∨ 0x22010000 ≤ a then .unmapped
    else .unmapped

/-- A byte of a read-only view. The boot ROM's content is not stated: its bytes are free. -/
def Dev.viewByte (d : Dev) (a : Nat) : Byte :=
  if a < 0x40000 then Config.freeByte 0 a
  else if a < 0x1480000 then (d.hurdleBytes ((a - 0x1400000) / 32)).getD (a % 32) 0
  else if a < 0x14C0000 then d.journalByte (a - 0x1480000)
  else if a < 0x5800000 then d.pqByte (a - 0x4000000)
  else if a < 0x6C00000 then d.lambByte (a - 0x6000000)
  else (d.ilu.read (a - 0x10000000) 1).getD 0 0

end Sys2Proof.Machine
end

