-- ==== Sys2Proof/Machine/RegsHub.lean ====
section
/-! DEFINITION. Registers of the hub: the HUB, TXN, CROOK, PCIE, PEN and HRD windows (Tables 1-3, 1-4, 4-3 to 4-11, 5-2, 5-9, 5-10,
6-8 to 6-11, 12-6 to 12-11). A read answers the device after it and the value; no answer where the offset holds no register (R23). -/

namespace Sys2Proof.Machine

/-- The answer of a register read: none where there is no register. -/
abbrev RegAns := Option (Dev × Nat)

/-- A read that changes nothing. -/
def Dev.ro (d : Dev) (v : Nat) : RegAns := some (d, v)

/-! ### HUB -/

/-- HUB.ID: part 0x9600, stepping A0, all seven dies (Table 1-3). -/
def hubId : Nat := 0x9600107F
/-- HUB.LINKSTAT (Table 1-4): up bits in module order, then the sticky DEGRADED bits by link. -/
def HubSt.linkstat (h : HubSt) : Nat :=
  ((List.range 12).map (fun i => bit (h.mods.get { up := false, attempts := 0 } i).up * 2 ^ i)).foldl (· + ·) 0 + h.degraded % 64 * 65536
/-- HUB.INITSTAT (Table 12-6). -/
def IntegSt.initstat (i : IntegSt) : Nat := bit i.foldSram + 2 * bit i.sram + 4 * bit i.dram + 8 * bit i.remapErr + 16 * bit i.pprFail
/-- HUB.GRAZE (Table 12-10). -/
def IntegSt.graze (i : IntegSt) : Nat := i.nandPct % 128 + 128 * bit i.nandLate + 256 * (i.dramPct % 128) + 65536 * sat 0xFFFF i.passes
/-- A read of the HUB window. -/
def Dev.hubRead (d : Dev) (o : Nat) : RegAns :=
  let i := d.integ
  if o = 0x000 then d.ro hubId
  else if o = 0x010 then d.ro d.hub.linkstat
  else if o = 0x100 then d.ro i.initstat
  else if o = 0x104 then
    some ({ d with integ := { i with ce := 0, ue := 0, hard := 0 } }, sat 0xFFFF i.ce + 65536 * sat 0xFF i.ue + 2 ^ 24 * sat 0xFF i.hard)
  else if o = 0x108 then d.ro (d.sramUsed + 16384 * d.sramFull)
  else if o = 0x110 then d.ro i.graze
  else if o = 0x114 then
    some ({ d with integ := { i with recal := 0, retireMark := 0 } }, sat 0xFFFF i.recal + 65536 * sat 0xFFFF i.retireMark)
  else if 0x4000 ≤ o ∧ o < 0x4000 + 266 * 0x80 then d.ro (d.sramEntry ((o - 0x4000) / 0x80) (o % 0x80 / 4))
  else none
/-- A write to the HUB window: only DEGRADED takes one (W1C). -/
def Dev.hubWrite (d : Dev) (o v : Nat) : Dev :=
  if o = 0x010 then { d with hub := { d.hub with degraded := d.hub.degraded &&& (63 - bitsOf v 21 16) } } else d

/-! ### TXN and CROOK -/

/-- A transaction is between step 1 and step 8 of its commit. -/
def Txn.committing (t : Txn) : Bool := t.phase != .opened
/-- A read of the TXN window. -/
def Dev.txnRead (d : Dev) (o : Nat) : RegAns :=
  let c := d.cfg
  if o = 0x0 then d.ro ((c.txns.filter (fun t => !t.committing)).length % 16 + 16 * ((c.txns.filter Txn.committing).length % 16))
  else if o = 0x4 then some ({ d with cfg := { c with countHiLatch := c.counter / 2 ^ 32 % 2 ^ 32 } }, c.counter % 2 ^ 32)
  else if o = 0x8 then d.ro c.countHiLatch
  else if o = 0xC then some ({ d with cfg := { c with conflicts := 0, drains := 0 } }, sat 0xFFFF c.conflicts + 65536 * sat 0xFFFF c.drains)
  else none
/-- CROOK.HOLDER (Table 4-9). -/
def Dev.crookHolder (d : Dev) : Nat :=
  match d.crook.holder with
  | some h => (h + 1) + h / 64 * 65536 + 131072
  | none => 0xFFFF
/-- A read of the CROOK window by a core; reading HOLDER clears input e14 of a Shepherd core that reads it (assumption log 44). -/
def Dev.crookRead (d : Dev) (core o : Nat) : RegAns :=
  if o = 0x0 then some (if kindOf core = .shepherd then d.modCore core (fun k => { k with e14 := false }) else d, d.crookHolder)
  else if o = 0x4 then d.ro d.crookMs
  else if o = 0x8 then
    some ({ d with crook := { d.crook with expired := 0, forced := 0 } }, sat 0xFFFF d.crook.expired + 65536 * sat 0xFFFF d.crook.forced)
  else none

/-! ### PCIE, PEN and HRD -/

/-- Link index of an offset in the PCIE window. -/
def pcieLink (o : Nat) : Option Nat := if o % 0x80 = 0 ∧ o / 0x80 < 4 then some (o / 0x80) else none
/-- Half B exists only on a bifurcated port. -/
def Dev.linkThere (d : Dev) (l : Nat) : Bool := l % 2 == 0 || bitOf d.pins.bifur (l / 2)
/-- A read of the PCIE window: RETRAINS and CPLTO clear (Table 5-2). -/
def Dev.pcieRead (d : Dev) (o : Nat) : RegAns :=
  match pcieLink o with
  | none => none
  | some l =>
    let x := d.link l
    if !d.linkThere l then d.ro 0
    else some (d.setLink l { x with retrains := 0, cplto := 0 },
      x.rate % 8 + x.width % 32 * 8 + 256 * bit (bitOf d.pins.bifur (l / 2)) + 512 * bit x.flit + 1024 * bit x.degraded + 2048 * bit x.l12
        + 65536 * sat 0xFF x.retrains + 2 ^ 24 * sat 0xFF x.cplto)
/-- A write to the PCIE window: DEGRADED is W1C. -/
def Dev.pcieWrite (d : Dev) (o v : Nat) : Dev :=
  match pcieLink o with
  | some l => if d.linkThere l && bitOf v 10 then d.setLink l { d.link l with degraded := false } else d
  | none => d
/-- A read of the PEN window (Tables 5-9, 5-10). -/
def Dev.penRead (d : Dev) (o : Nat) : RegAns :=
  if o = 0x0 then d.ro (d.nvme.pens.length + 32768 * bit (d.sharedLeft == 0) + 65536 * d.adminPens)
  else if o = 0x4 then some ({ d with nvme := { d.nvme with pauses := 0 } }, sat 0xFFFFFFFF d.nvme.pauses)
  else none
/-- A read of the HRD window (Tables 6-8 to 6-11). -/
def Dev.hrdRead (d : Dev) (o : Nat) : RegAns :=
  let n := d.nvme
  if o = 0x0 then d.ro ((n.hurdles.filter (fun e => e.2.state == 2)).length + 65536 * (n.hurdles.filter (fun e => e.2.state == 1)).length)
  else if o = 0x4 then some ({ d with nvme := { n with waits := 0 } }, sat 0xFFFFFFFF n.waits)
  else if o = 0x8 then some ({ d with nvme := { n with longWaits := 0 } }, sat 0xFFFF n.longWaits)
  else if o = 0xC then some ({ d with nvme := { n with maxWait := 0 } }, sat 0xFFFFFFFF n.maxWait)
  else none

end Sys2Proof.Machine
end

