-- ==== Sys2Proof/Machine/RegsMap.lean ====
section
/-! DEFINITION. Registers of the drove engine, the map cache and the DRAM controller (Tables 8-15, 8-16, 9-10 to 9-13, 10-8 to 10-12,
11-4 to 11-6, 12-12, 12-13, 13-8 to 13-18). -/

namespace Sys2Proof.Machine

/-! ### DROVE -/

/-- The group with the lowest free fraction, the lowest number first. -/
def Dev.lowestGroup (d : Dev) : Nat × Nat :=
  (List.range 8).foldl (fun (m : Nat × Nat) g => if d.freePm g < m.1 then (d.freePm g, g) else m) (d.freePm 0, 0)
/-- Outstanding reads of the oldest epoch still counted. -/
def Dev.oldestReads (d : Dev) : Nat :=
  (((List.range 16).map (fun i => d.epochCount (d.drove.epoch + 1 + i))).find? (· != 0)).getD 0
/-- DROVE.GC (Table 10-8). -/
def Dev.gcReg (d : Dev) : Nat :=
  d.drove.cycles.length % 32 + 32 * ((d.openDroves.filter (fun x => x.use != .host)).length % 128)
    + 4096 * bit ((List.range 8).any (fun g => decide (d.freePm g < d.cfgv 0x12 0x11)))
    + 8192 * bit (d.nvme.pens.any (fun e => e.2.stage == .placeWait) && (List.range 8).any (fun g => decide (d.freePm g < d.cfgv 0x12 0x12))) + 16384 * bit d.readOnly
/-- DROVE.ELOG (Table 10-10). -/
def ElogSt.reg (e : ElogSt) : Nat := Nat.min e.pending.length 510 + 512 * bit e.oneCopy + 1024 * bit e.census + 2048 * bit e.stalled
/-- Dies declared failed, and channels whose 32 dies all are (Table 11-4). -/
def Dev.failedDies (d : Dev) : Nat := ((List.range 128).map (fun c => countOnes 32 (d.cfgv (0x100 + c) 3))).foldl (· + ·) 0
def Dev.failedChans (d : Dev) : Nat := ((List.range 128).filter (fun c => d.cfgv (0x100 + c) 3 == 0xFFFFFFFF)).length
/-- DROVE.MFAIL. -/
def Dev.mfailReg (d : Dev) : Nat :=
  d.failedDies + 8192 * d.failedChans + 2 ^ 21 * bit d.noMargin + 2 ^ 22 * bit (d.drove.declPending != [])
    + 2 ^ 23 * bit (d.media.drvs.any (fun e => e.2.quiesced))
/-- DROVE.REBUILD (Table 11-5). -/
def Dev.rebuildReg (d : Dev) : Nat :=
  sat 0xFFFF ((d.drove.droves.map (fun e => (d.waiting e.2).length)).foldl (· + ·) 0)
    + 65536 * (d.drove.passes.foldl (fun l p => addOnce p.serial l) ([] : List Nat)).length + 2 ^ 23 * bit d.waitSpare
/-- A read of the DROVE window. A read of STATUS also clears inputs e2 and e3 of the Shepherd cores (assumption log 44). -/
def Dev.droveRead (d : Dev) (o : Nat) : RegAns :=
  let v := d.drove
  if o = 0x00 then
    some ({ d with drove := { v with reconEvt := false, closedEvt := false } },
      sat 127 d.openDroves.length + 256 * sat 0xFFFF ((v.droves.filter (fun e => e.2.state == 6)).length)
        + 2 ^ 24 * bit (d.dumpArmed false) + 2 ^ 25 * bit (d.dumpArmed true))
  else if o = 0x04 then d.ro (sat 0xFFFF d.journalLen + 65536 * (d.journalUnits.length % 1024))
  else if o = 0x08 then d.ro (bit v.replayDone + 2 * bit v.replayRaddled + 4 * bit v.replayLost + 65536 * sat 0xFFFF v.replayFromB)
  else if o = 0x0C then d.ro (sat 0xFFFF (d.lambTotal - v.lamb.length) + 65536 * sat 0xFFFF (v.lamb.filter (fun e => !e.2.released)).length)
  else if o = 0x10 then d.ro d.gcReg
  else if o = 0x14 then
    some ({ d with drove := { v with hostWaits := 0 } }, d.lowestGroup.1 % 1024 + 1024 * d.lowestGroup.2 + 65536 * sat 0xFFFF v.hostWaits)
  else if o = 0x18 then d.ro v.elog.reg
  else if o = 0x1C then d.ro (v.epoch % 16 + 16 * bit (d.epochCount (v.epoch + 1) != 0) + 256 * sat 0xFFFF d.oldestReads)
  else if o = 0x20 then
    some ({ d with drove := { v with retiredCount := 0 } },
      sat 0xFFFF (((List.range 8).map d.wearSpread).foldl Nat.max 0) + 65536 * sat 0xFFFF v.retiredCount)
  else if o = 0x24 then d.ro d.mfailReg
  else if o = 0x28 then d.ro d.rebuildReg
  else if o = 0x2C then
    some ({ d with drove := { v with switched := 0, evacuated := 0 } }, sat 0xFFFF v.switched + 65536 * sat 0xFFFF v.evacuated)
  else none

/-! ### MAPC -/

/-- A read of the MAPC window. -/
def Dev.mapcRead (d : Dev) (o : Nat) : RegAns :=
  let m := d.mapc
  if o = 0x00 then d.ro (bit m.enable)
  else if o = 0x04 then d.ro (m.state % 4 + 16 * d.dirtyLines + 2 ^ 22 * d.repairsUsed)
  else if o = 0x08 then d.ro (bit m.flushDone + 2 * bit m.cleanDone + 4 * bit m.repairEvt)
  else if o = 0x10 then some ({ d with mapc := { m with lookups := 0 } }, sat 0xFFFFFFFF m.lookups)
  else if o = 0x14 then some ({ d with mapc := { m with misses := 0 } }, sat 0xFFFFFFFF m.misses)
  else if 0x40 ≤ o ∧ o < 0x60 then
    let r := d.repairSlot ((o - 0x40) / 8)
    d.ro (if o % 8 = 0 then r.line % 2 ^ 31 else r.word % 32 + 2 ^ 31 * bit r.valid)
  else if o = 0x100 then d.ro (m.rbPhase % 16 + 256 * sat 0xFF m.rbPass + 65536 * sat 0xFF m.rbPasses + 2 ^ 24 * sat 0xFF m.rbFallbacks)
  else if o = 0x104 then d.ro (m.rbMs % 2 ^ 32)
  else none
/-- A write to the MAPC window. ENABLE and CLEAN of CTL, the W1C bits of EVT, RELEASE of a repair slot. -/
def Dev.mapcWrite (d : Dev) (o v : Nat) : Dev :=
  let m := d.mapc
  if o = 0x00 then
    let d1 := if bitOf v 0 && !m.enable then d.mapcEnable else if !bitOf v 0 && m.enable then d.mapcDisable else d
    if bitOf v 1 then d1.mapcClean else d1
  else if o = 0x08 then
    { d with mapc := { m with flushDone := m.flushDone && !bitOf v 0, cleanDone := m.cleanDone && !bitOf v 1,
                              repairEvt := m.repairEvt && !bitOf v 2 } }
  else if 0x40 ≤ o ∧ o < 0x60 ∧ o % 8 = 4 ∧ bitOf v 30 then d.repairRelease ((o - 0x40) / 8)
  else d

/-! ### DRAM -/

/-- Four bits, one per channel. -/
def Dev.chanBits (d : Dev) (p : DramChan → Bool) : Nat := ((List.range 4).map (fun n => bit (p (d.dch n)) * 2 ^ n)).foldl (· + ·) 0
/-- A read of the DRAM window. -/
def Dev.dramRead (d : Dev) (o : Nat) : RegAns :=
  let m := d.dram
  if o = 0x00 then
    d.ro (d.pins.dramCfg % 8 + 16 * (m.order % 4) + 64 * d.chanBits (·.up) + 1024 * d.chanBits (·.stepped) + 16384 * d.chanBits (·.failed)
      + 2 ^ 18 * bit m.ref2x)
  else if o = 0x10 then
    some ({ d with dram := { m with retrains := 0 } }, d.chanBits (·.due) + 16 * d.chanBits (·.busy) + 4096 * sat 0xFF m.retrains)
  else if 0x20 ≤ o ∧ o < 0x30 then d.ro ((d.dch ((o - 0x20) / 4)).ppr % 65536)
  else if 0x100 ≤ o ∧ o < 0x120 then
    let p := (o - 0x100) / 4
    some ({ d with dram := { m with maxlat := m.maxlat.erase p, late := m.late.erase p } },
      sat 0xFFFF (m.maxlat.get 0 p) + 65536 * sat 0xFFFF (m.late.get 0 p))
  else if 0x8000 ≤ o ∧ o < 0x8010 then
    let n := (o - 0x8000) / 4
    let c := d.dch n
    some (d.modDch n (fun x => { x with ce := 0, ue := 0 }), sat 0xFFFF c.ce + 65536 * sat 0xFF c.ue + 2 ^ 24 * d.dramRemaps n)
  else if 0x9000 ≤ o ∧ o < 0x9400 then d.ro (d.dramEntry ((o - 0x9000) / 0x100) (o % 0x100 / 4))
  else none
/-- A write to the DRAM window: START of TRAIN for each channel that is due, and the remap entries, whose reserved bit 30 stays 0. -/
def Dev.dramWrite (d : Dev) (o v : Nat) : Dev :=
  if o = 0x10 then (List.range 4).foldl (fun (e : Dev) n => if bitOf v (8 + n) then e.retrainStart n else e) d
  else if 0x9000 ≤ o ∧ o < 0x9400 then
    { d with dram := { d.dram with remap := d.dram.remap.set ((o - 0x9000) / 0x100 * 64 + o % 0x100 / 4) (v % 2 ^ 30 + bitsOf v 31 31 * 2 ^ 31) } }
  else d

end Sys2Proof.Machine
end

