-- ==== Sys2Proof/Machine/RegsFold.lean ====
section
/-! DEFINITION. Registers of the FOLD, KEY, PKA and DIG windows (Tables 14-16 to 14-20, 15-11 to 15-14, 16-8, 16-9, 16-13 to 16-18,
16-21, 16-22, 21-15). -/

namespace Sys2Proof.Machine

/-- FOLD.RNG (Table 14-18). -/
def FoldSt.rngReg (f : FoldSt) : Nat := bit f.healthy + 2 * bit f.rctFail + 4 * bit f.aptFail + 256 * sat 0xFFFF f.reseeds
/-- FOLD.BOOTSTAT (Table 15-11). -/
def FoldSt.bootstat (f : FoldSt) : Nat := f.stage % 16 + 16 * (f.code % 256) + 4096 * bit f.halted
/-- FOLD.TALLY (Table 15-12). -/
def FoldSt.tallyReg (f : FoldSt) : Nat :=
  f.tally.head % 4096 + 4096 * bit f.tally.wrapped + 8192 * bit f.lms.low + 65536 * sat 0xFF f.tally.appFail + 2 ^ 24 * sat 0xFF f.tally.coalesced
/-- FOLD.COLLIE (Table 21-15): ARMED while it counts; REMAIN in ms, rounded down. -/
def Dev.collieReg (d : Dev) : Nat :=
  let used := d.run - d.evt.colliePet
  65536 * bit d.evt.collieArmed + 131072 * bit (d.evt.collieArmed && d.evt.colliePre)
    + 2 ^ 18 * (if d.evt.collieArmed then sat 16383 ((d.evt.collieNs - used) / 1000000) else 0)
/-- A read of the FOLD window. -/
def Dev.foldRead (d : Dev) (o : Nat) : RegAns :=
  let f := d.fold
  let t := f.tally
  if o = 0x00 then d.ro f.lifecycleReg
  else if o = 0x04 then d.ro f.tamperReg
  else if o = 0x08 then some ({ d with fold := { f with reseeds := 0 } }, f.rngReg)
  else if o = 0x10 then d.ro f.bootstat
  else if o = 0x14 then some ({ d with fold := { f with tally := { t with appFail := 0 } } }, f.tallyReg)
  else if o = 0x18 then some ({ d with fold := { f with tally := { t with rseqHiLatch := t.rseq / 2 ^ 32 } } }, t.rseq % 2 ^ 32)
  else if o = 0x1C then d.ro t.rseqHiLatch
  else if o = 0x20 then some ({ d with fold := { f with tally := { t with leafHiLatch := f.lms.cur / 2 ^ 32 } } }, f.lms.cur % 2 ^ 32)
  else if o = 0x24 then d.ro t.leafHiLatch
  else if o = 0x30 then d.ro d.collieReg
  else none
/-- A write to the FOLD window: the W1C bits of TAMPER and RNG, and PET. -/
def Dev.foldWrite (d : Dev) (o v : Nat) : Dev :=
  let f := d.fold
  if o = 0x04 then { d with fold := { f with tamper := f.tamper &&& (255 - v % 256) } }
  else if o = 0x08 then { d with fold := { f with rctFail := f.rctFail && !bitOf v 1, aptFail := f.aptFail && !bitOf v 2 } }
  else if o = 0x30 then d.pet (v % 65536)
  else d

/-- KEY.STATUS (Table 14-20). -/
def KeySt.statusReg (k : KeySt) : Nat :=
  (k.slots.filter (fun e => e.1 != 0 && e.2.st == .loaded)).length + 32768 * bit ((k.slots.get KeySlot.init 0).st == .loaded)
    + 65536 * (k.slots.filter (fun e => e.2.st == .clearing)).length + 2 ^ 30 * bit k.refused
/-- A read of the KEY window; a read of USTAT clears input e3 of the Fold core. -/
def Dev.keyRead (d : Dev) (o : Nat) : RegAns :=
  let k := d.keys
  if o = 0x00 then d.ro (k.cmdSlot % 16384 + 2 ^ 31 * bit k.busy)
  else if o = 0x04 then d.ro k.statusReg
  else if o = 0x10 then d.ro (k.uaddr % 2 ^ 24)
  else if o = 0x14 then some ({ d with keys := { k with done := false } }, bit k.uop.isSome + 256 * (k.ustatus % 256))
  else none
/-- A write to the KEY window. -/
def Dev.keyWrite (d : Dev) (o v : Nat) : Dev :=
  if o = 0x00 then d.keyCmd v
  else if o = 0x04 then if bitOf v 30 then { d with keys := { d.keys with refused := false } } else d
  else if o = 0x10 then d.unwrapStart (v % 2 ^ 24)
  else d

/-- A read of the PKA window; a read of STATUS clears input e2 of the Fold core. -/
def Dev.pkaRead (d : Dev) (o : Nat) : RegAns :=
  let k := d.pka
  if o = 0x00 then d.ro (k.desc % 2 ^ 24)
  else if o = 0x04 then
    some ({ d with pka := { k with done := false } }, bit k.ec.isSome + 2 * bit k.hbs.isSome + 256 * (k.result % 256) + 65536 * (k.op % 256))
  else none
/-- A write to the PKA window. -/
def Dev.pkaWrite (d : Dev) (o v : Nat) : Dev := if o = 0x00 then d.pkaStart (v % 2 ^ 24) else d

/-- The code of a digest slot state (Table 16-15). -/
def DigState.code : DigState → Nat
  | .free => 0
  | .held => 1
  | .opened => 2
  | .finishing => 3
  | .done => 4
  | .error => 5
/-- DIG.CTL: the kept fields (Table 16-14). -/
def DigSlot.ctlReg (x : DigSlot) : Nat := x.alg % 16 + 16 * bit x.hmac + 32 * (x.keyLen % 256) + 8192 * (x.outLen % 128)
/-- DIG.STAT (Table 16-15). -/
def DigSlot.statReg (x : DigSlot) : Nat :=
  x.st.code + 256 * bit x.errCtl + 512 * bit x.errCount + 1024 * bit x.errEarly + 2048 * bit x.errSeq + 65536 * (x.owner % 65536)
/-- DIG.CMP (Table 16-18). -/
def DigSlot.cmpReg (x : DigSlot) : Nat := 256 * bit x.matched + 512 * bit x.matchN + 1024 * bit x.cmpDone
/-- A read of a slot register; R427 restricts writes only, so any core may read. The data port and EXPECT are write-only. -/
def Dev.digSlotRead (d : Dev) (i r : Nat) : RegAns :=
  let x := d.dslot i
  if r = 0x00 then d.ro x.ctlReg
  else if r = 0x04 then d.ro x.statReg
  else if 0x08 ≤ r ∧ r < 0x1C then d.ro 0
  else if 0x40 ≤ r ∧ r < 0x80 then some (d.digRead i ((r - 0x40) / 4))
  else if 0x80 ≤ r ∧ r < 0xC0 then d.ro 0
  else if r = 0xC0 then d.ro x.cmpReg
  else none
/-- A read of the DIG window. -/
def Dev.digWinRead (d : Dev) (core o : Nat) : RegAns :=
  if o = 0 then some (d.digAlloc core)
  else if 0x1000 ≤ o ∧ o < 0x5000 then d.digSlotRead ((o - 0x1000) / 0x100) (o % 0x100)
  else none
/-- A write to the DIG window. -/
def Dev.digWinWrite (d : Dev) (core o v : Nat) : Dev :=
  if o < 0x1000 ∨ 0x5000 ≤ o then d
  else
    let i := (o - 0x1000) / 0x100
    let r := o % 0x100
    if r = 0x00 then d.digWrite core i r (fun x => x.ctl v)
    else if r = 0x08 then d.digWrite core i r (fun x => { x with dataLo := v })
    else if r = 0x0C then d.digWrite core i r (fun x => x.push v)
    else if r = 0x10 then d.digWrite core i r (fun x => { x with lastCnt := v % 16 })
    else if r = 0x14 then d.digWrite core i r (fun x => { x with lastLo := v })
    else if r = 0x18 then d.digWrite core i r (fun x => x.last v)
    else if 0x80 ≤ r ∧ r < 0xC0 then d.digWrite core i r (fun x => { x with expect := x.expect.set ((r - 0x80) / 4) v })
    else if r = 0xC0 then if bitOf v 0 then d.digCompare core i 0 else d
    else d

end Sys2Proof.Machine
end

