-- ==== Sys2Proof/Machine/RegsSys.lean ====
section
/-! DEFINITION. Registers of the CLK, PWR, THM, WALK, EVT and ILU windows (Tables 17-11 to 17-19, 18-7 to 18-10, 19-9 to 19-15, 20-5,
20-6, 21-8 to 21-14). -/

namespace Sys2Proof.Machine

/-! ### CLK -/

/-- CLK.STAT (Table 19-9). -/
def ClkSt.statReg (c : ClkSt) : Nat :=
  bit c.fioRdy + 2 * bit c.x0Rdy + 4 * bit c.x1Rdy + 8 * bit c.pllaRdy + 16 * bit c.pllbRdy + 32 * (c.root % 2) + 64 * (c.refA % 4)
    + 256 * (c.refB % 4) + 1024 * bit c.aonSio + 2048 * bit c.onFio + 4096 * bit c.noXtal + 8192 * bit c.hold
/-- The code of a gate state (Table 19-12). -/
def GateState.code : GateState → Nat
  | .running => 0
  | .draining => 1
  | .gated => 2
  | .waking => 3
/-- A read of the CLK window. -/
def Dev.clkRead (d : Dev) (o : Nat) : RegAns :=
  let c := d.clk
  if o = 0x00 then d.ro c.statReg
  else if o = 0x04 then d.ro (128 * bit c.busy + 256 * (c.status % 8))
  else if o = 0x08 then
    some (d.modClk (fun c => { c with trips := 0 }),
      bit c.monLoss + 2 * bit c.monFio + 4 * bit c.fioBad + 65536 * sat 0xFF c.holdUs + 2 ^ 24 * sat 0xFF c.trips)
  else if o = 0x10 then
    some (d.modClk (fun c => { c with gateTo := 0 }), c.gateId % 512 + 2048 * (d.gate c.gateId).st.code + 65536 * sat 0xFFFF c.gateTo)
  else none
/-- A write to the CLK window. -/
def Dev.clkWrite (d : Dev) (o v : Nat) : Dev :=
  if o = 0x04 then d.clkSwitch v
  else if o = 0x08 then
    d.modClk fun c => { c with monLoss := c.monLoss && !bitOf v 0, monFio := c.monFio && !bitOf v 1, fioBad := c.fioBad && !bitOf v 2 }
  else if o = 0x10 then d.clkGate v
  else d

/-! ### PWR -/

/-- PWR.STATE (Table 18-7). -/
def PwrSt.stateReg (p : PwrSt) : Nat :=
  p.current % 8 + 8 * (p.target % 8) + 64 * bit p.entering + 128 * bit p.suspended + 256 * (p.step % 16)
/-- A read of the PWR window. -/
def Dev.pwrRead (d : Dev) (o : Nat) : RegAns :=
  let p := d.pwr
  if o = 0x00 then d.ro p.stateReg
  else if o = 0x04 then
    some ({ d with pwr := { p with wakes := 0 } }, p.wakeCause % 16 + 16 * (p.wakePort % 2) + 65536 * sat 0xFFFF p.wakes)
  else if o = 0x08 then
    some ({ d with pwr := { p with entries := 0, suspends := 0 } }, sat 0xFFFF p.entries + 65536 * sat 0xFFFF p.suspends)
  else if 0x100 ≤ o ∧ o < 0x13C then
    let k := (o - 0x100) / 4
    d.ro (((List.range 16).map (fun i => if 16 * k + i < 230 then d.pad (16 * k + i) % 4 * 4 ^ i else 0)).foldl (· + ·) 0)
  else none

/-! ### THM -/

/-- A signed reading in 16 bits. -/
def signed16 (v : Int) : Nat := (v % 65536).toNat
/-- A read of the THM window: reading LEVEL clears TRIP, and the alert of input e12 (assumption log 44). The trim window holds bytes. -/
def Dev.thmRead (d : Dev) (o : Nat) : RegAns :=
  let t := d.thm
  if 0x04 ≤ o ∧ o < 0x20 then
    let x := d.sensor (o / 4)
    d.ro (signed16 x.reading + 65536 * bit x.fault)
  else if o = 0x20 then some ({ d with thm := { t with trip := false, alert := false } }, t.level % 4 + 4 * bit t.trip + 65536 * signed16 t.composite)
  else if o = 0x24 then d.ro (2 * bit t.loaded + 4 * ((d.sensor 1).band % 16))
  else if 0x100 ≤ o ∧ o < 0x210 then d.ro (ofLe ((List.range 4).map (fun i => BitVec.ofNat 8 (t.window.get 0 (o - 0x100 + i)))))
  else none
/-- A write to the THM window. -/
def Dev.thmWrite (d : Dev) (o v : Nat) : Dev :=
  let t := d.thm
  if o = 0x24 then if bitOf v 0 then { d with thm := { t with loadDue := true } } else d
  else if 0x100 ≤ o ∧ o < 0x210 then
    { d with thm := { t with window := (List.range 4).foldl (fun (w : Tab Nat) i => w.set (o - 0x100 + i) (v / 256 ^ i % 256)) t.window } }
  else d

/-! ### WALK and EVT -/

/-- WALK.STAT (Table 20-5). -/
def Dev.walkStat (d : Dev) : Nat :=
  let w := d.walk
  d.station + 32 * bit w.joined + 64 * bit w.ringFail + 128 * bit w.i3c + 256 * (w.dynAddr % 128) + 65536 * (w.eidWalk % 256)
    + 2 ^ 24 * (w.eidI3c % 256)
/-- A read of the WALK window. -/
def Dev.walkRead (d : Dev) (o : Nat) : RegAns :=
  let w := d.walk
  if o = 0x0 then d.ro d.walkStat
  else if o = 0x4 then
    some (d.modWalk (fun w => { w with rxBad := 0, rxDrop := 0, badType := 0, probeFail := 0 }),
      sat 0xFF w.rxBad + 256 * sat 0xFF w.rxDrop + 65536 * sat 0xFF w.badType + 2 ^ 24 * sat 0xFF w.probeFail)
  else none

/-- The 32 bytes of an event record (Table 21-2). -/
def EvRec.toBytes (r : EvRec) : Bytes :=
  leBytes 8 r.seq ++ leBytes 8 r.ltime ++ leBytes 8 r.obj ++ leBytes 4 r.arg ++ leBytes 1 r.cond ++ leBytes 1 r.cls ++ leBytes 1 r.flags
    ++ leBytes 1 0
/-- EVT.FATAL (Table 21-8). -/
def EvtSt.fatalReg (e : EvtSt) : Nat := bit e.fatal + 4 * (e.fatalCause % 8) + 65536 * (e.fatalSource % 512)
/-- EVT.RSTCAUSE (Table 21-9). -/
def EvtSt.rstReg (e : EvtSt) : Nat :=
  e.rstLast % 8 + 8 * bit e.rstInplace + 16 * bit e.rstWasFatal + 256 * sat 0xFF e.rstCollies + 65536 * sat 0xFF e.rstFold
    + 2 ^ 24 * sat 0xFF e.rstNssr
/-- A read of a source's registers (Tables 21-11 to 21-14). -/
def Dev.srcRead (d : Dev) (s r : Nat) : RegAns :=
  let x := d.src s
  if !sources.contains s then none
  else if r = 0x00 then some (d.setSrc s { x with overflow := 0 }, x.fifo.length % 16 + 16 * bit x.handling + 65536 * sat 0xFFFF x.overflow)
  else if r = 0x04 then d.ro 0
  else if r = 0x08 then some (d.setSrc s { x with seqHiLatch := x.next / 2 ^ 32 % 2 ^ 32 }, x.next % 2 ^ 32)
  else if r = 0x0C then d.ro x.seqHiLatch
  else if 0x10 ≤ r ∧ r < 0x30 then d.ro (match x.head with
    | some h => leAt h.toBytes (r - 0x10) 4
    | none => 0)
  else none
/-- A read of the EVT window. -/
def Dev.evtRead (d : Dev) (o : Nat) : RegAns :=
  if o = 0x00 then d.ro d.evt.fatalReg
  else if o = 0x04 then d.ro d.evt.rstReg
  else if 0x10 ≤ o ∧ o < 0x40 then
    let n := (o - 0x10) / 4
    d.ro (((List.range 32).map (fun i => bit ((d.src (32 * n + i)).fifo != []) * 2 ^ i)).foldl (· + ·) 0)
  else if 0x1000 ≤ o ∧ o < 0x7000 then d.srcRead ((o - 0x1000) / 0x40) (o % 0x40)
  else none
/-- A write to the EVT window by a core. -/
def Dev.evtWrite (d : Dev) (core o v : Nat) : Dev :=
  if o = 0x00 then if bitOf v 1 then d.evtDeclare core else d
  else if 0x1000 ≤ o ∧ o < 0x7000 ∧ o % 0x40 = 4 then
    let s := (o - 0x1000) / 0x40
    let d1 := if bitOf v 0 then d.evtTake core s else d
    if bitOf v 1 then d1.evtDone core s else d1
  else d

/-! ### ILU -/

/-- BANKBUSY: the banks (physical sector / 512) with a program or erase running or suspended. -/
def IluSt.bankBusy (i : IluSt) : Nat :=
  ((List.range 4).map (fun b => bit ((match i.prog with
      | some r => i.phys (r.cmd.addr / 65536) / 512 == b
      | none => false) || (match i.erase with
      | some e => e.sector / 512 == b
      | none => false)) * 2 ^ b)).foldl (· + ·) 0
/-- ILU.ARRAY (Table 17-17). -/
def IluSt.arrayReg (i : IluSt) : Nat :=
  i.bankBusy + 16 * bit (match i.erase with
      | some e => e.suspended
      | none => false)
    + 32 * bit i.suspPending + 64 * bit i.pfHold + 128 * bit i.rstHold + 256 * bit i.moving + 65536 * (16 - i.sparesUsed)
/-- ILU.SECTOR of a physical sector (Table 17-19). -/
def IluSt.sectorReg (i : IluSt) (s : Nat) : Nat :=
  let x := i.sect s
  sat 0x7FFFFFF x.erases + 2 ^ 27 * (x.st % 4) + 2 ^ 29 * bit (i.remap.any (fun e => e.2 == s))
/-- A sector of the security region, or a spare that replaces one. -/
def IluSt.securitySector (i : IluSt) (s : Nat) : Bool := decide (s < 848) || i.remap.any (fun e => e.2 == s && decide (e.1 < 848))
/-- A read of the ILU window at a level; a read of STAT0 clears SEQERR and input e4 of the Fold core. -/
def Dev.iluRead (d : Dev) (lv : Level) (o : Nat) : RegAns :=
  let i := d.ilu
  if o < 0x300 then
    let p := o / 0x100
    let x := i.port p
    let r := o % 0x100
    if r = 0x00 ∨ r = 0x04 ∨ r = 0x0C then d.ro 0
    else if r = 0x08 then d.ro (x.addr % 2 ^ 27)
    else if r = 0x10 then
      let d1 := d.setPort p { x with seqErr := 0 }
      some ({ d1 with ilu := { d1.ilu with done0 := d1.ilu.done0 && p != 0 } },
        bit (i.busy p) + 2 * bit (x.seq == .unlocked || x.seq == .cmdIn || x.seq == .addrIn) + 256 * (x.status % 256) + 65536 * sat 0xFF x.seqErr)
    else none
  else if o = 0x400 then d.ro i.arrayReg
  else if o = 0x404 then d.ro (i.gap % 2048 + 2048 * (i.start % 2048))
  else if 0x1000 ≤ o ∧ o < 0x3000 then
    let s := (o - 0x1000) / 4
    d.ro (if lv ≠ .f ∧ i.securitySector s then 0 else i.sectorReg s)
  else none
/-- A write to the ILU window by a core. One to STATp changes no field but breaks the port's sequence (R437). -/
def Dev.iluWrite (d : Dev) (core o v : Nat) : Dev :=
  if 0x300 ≤ o then d
  else
    let p := o / 0x100
    let r := o % 0x100
    if r = 0x00 then d.iluKey p core v
    else if r = 0x04 then d.iluCmd p core v
    else if r = 0x08 then d.iluAddr p core v
    else if r = 0x0C then d.iluData p core v
    else if r = 0x10 ∧ d.iluTakes p core ∧ (d.ilu.port p).seq ≠ .idle then d.iluBreak p
    else d

end Sys2Proof.Machine
end

