-- ==== Sys2Proof/Machine/Regs.lean ====
section
/-! DEFINITION. Registers of the channel dies (Tables 7-7 to 7-16, 16-1, 16-2), the whole register map, and the rows that read and write
registers (R5, R6, R23). -/

namespace Sys2Proof.Machine

/-! ### CHN, AES and DRV windows -/

/-- CHN.MODE (Table 7-9). -/
def ChanSt.modeReg (x : ChanSt) : Nat :=
  x.rate % 16 + 16 * bit x.ext + 32 * bit x.up + 64 * bit x.stepped + 256 * sat 0xFF x.retrains
/-- A read of a channel's CHN window. -/
def Dev.chnRead (d : Dev) (ch o : Nat) : RegAns :=
  let x := d.chan ch
  if o = 0x00 then some (d.setChan ch { x with retrains := 0 }, x.modeReg)
  else if o = 0x04 then d.ro x.diemap
  else if o = 0x08 then d.ro (d.cfgv (0x100 + ch) 3)
  else if o = 0x0C then some (d.releaseRead ch)
  else if o = 0x10 then
    some (d.setChan ch { x with retried := 0, hardfail := 0, decodeFail := false }, sat 0xFFFF x.retried + 65536 * sat 0xFFFF x.hardfail)
  else if o = 0x14 then some (d.setChan ch { x with softok := 0, softfail := 0 }, sat 0xFFFF x.softok + 65536 * sat 0xFFFF x.softfail)
  else if o = 0x18 then d.ro (bit x.faultTrain + 2 * bit x.faultLink + 4 * bit x.faultSusp)
  else if o = 0x1C then d.ro x.suspect
  else if 0x1000 ≤ o ∧ o < 0x2000 then d.ro ((x.levels.get 0 ((o - 0x1000) / 8)).toNat / 2 ^ (o % 8 * 8) % 2 ^ 32)
  else none
/-- A write to a channel's CHN window: the W1C faults and suspects, and a half of a read-level word. -/
def Dev.chnWrite (d : Dev) (ch o v : Nat) : Dev :=
  let x := d.chan ch
  if o = 0x18 then
    d.setChan ch { x with faultTrain := x.faultTrain && !bitOf v 0, faultLink := x.faultLink && !bitOf v 1, faultSusp := x.faultSusp && !bitOf v 2 }
  else if o = 0x1C then d.setChan ch { x with suspect := x.suspect &&& (0xFFFFFFFF - v % 2 ^ 32) }
  else if 0x1000 ≤ o ∧ o < 0x2000 then
    let k := (o - 0x1000) / 8
    let lo := o % 8 * 8
    d.setChan ch { x with levels := x.levels.set k (BitVec.ofNat 64 (setBits (x.levels.get 0 k).toNat (lo + 31) lo v)) }
  else d
/-- A read of a channel's AES window. -/
def Dev.aesRead (d : Dev) (ch o : Nat) : RegAns :=
  let e := d.aesDie (ch / 32)
  if o = 0x0 then
    some ({ d with aes := { d.aes with misses := d.aes.misses.erase ch } },
      bit e.rngOk + 2 * bit e.late + 4 * bit e.halted + 65536 * sat 0xFFFF (d.aes.misses.get 0 ch))
  else if o = 0x4 then some ({ d with aes := { d.aes with stalls := d.aes.stalls.erase ch } }, sat 0xFFFFFFFF (d.aes.stalls.get 0 ch))
  else none
/-- A read of a Drover core's DRV window. -/
def Dev.drvRead (d : Dev) (v o : Nat) : RegAns :=
  let x := d.drv v
  if o = 0x0 then d.ro (x.workTail % 1024 + 65536 * (x.workHead % 1024))
  else if o = 0x4 then d.ro (x.resTail % 1024 + 65536 * (x.resHead % 1024))
  else none
/-- A write to a DRV window: HEAD of the work ring and TAIL of the result ring. -/
def Dev.drvWrite (d : Dev) (v o w : Nat) : Dev :=
  if o = 0x0 then d.modDrv v (fun x => { x with workHead := bitsOf w 25 16 })
  else if o = 0x4 then d.modDrv v (fun x => { x with resTail := bitsOf w 9 0 })
  else d

/-! ### The register map (Tables 1-7 and 1-8) -/

/-- A read of a 32-bit register by a core at a level. -/
def Dev.regGet (d : Dev) (core : Nat) (lv : Level) (a : Nat) : RegAns :=
  let o := a % 65536
  if a < 0x40000000 then
    match a / 65536 with
    | 0x2000 => d.hubRead o
    | 0x2001 => d.foldRead o
    | 0x2002 => d.keyRead o
    | 0x2003 => d.pkaRead o
    | 0x2004 => d.digWinRead core o
    | 0x2005 => d.droveRead o
    | 0x2006 => d.mapcRead o
    | 0x2007 => d.dramRead o
    | 0x2008 => d.penRead o
    | 0x2009 => d.hrdRead o
    | 0x200A => d.clkRead o
    | 0x200B => d.pwrRead o
    | 0x200C => d.thmRead o
    | 0x200D => d.walkRead o
    | 0x200E => d.evtRead o
    | 0x2010 => d.txnRead o
    | 0x2011 => d.crookRead core o
    | 0x2100 => d.pcieRead o
    | 0x2200 => d.iluRead lv o
    | _ => none
  else
    let k := (a - 0x40000000) / 0x10000000
    let q := a % 0x10000000
    if k < 4 ∧ dieRegs q then
      if q < 0xA000000 then d.chnRead (32 * k + (q - 0x8000000) / 65536) o
      else if q < 0xC000000 then d.aesRead (32 * k + (q - 0xA000000) / 65536) o
      else d.drvRead (8 * k + (q - 0xC000000) / 65536) o
    else none
/-- The effect of a write to a 32-bit register by a core: fields that take no write ignore it (R5, R6). -/
def Dev.regPut (d : Dev) (core a v : Nat) : Dev :=
  let o := a % 65536
  if a < 0x40000000 then
    match a / 65536 with
    | 0x2000 => d.hubWrite o v
    | 0x2001 => d.foldWrite o v
    | 0x2002 => d.keyWrite o v
    | 0x2003 => d.pkaWrite o v
    | 0x2004 => d.digWinWrite core o v
    | 0x2006 => d.mapcWrite o v
    | 0x2007 => d.dramWrite o v
    | 0x200A => d.clkWrite o v
    | 0x200C => d.thmWrite o v
    | 0x200E => d.evtWrite core o v
    | 0x2100 => d.pcieWrite o v
    | 0x2200 => d.iluWrite core o v
    | _ => d
  else
    let k := (a - 0x40000000) / 0x10000000
    let q := a % 0x10000000
    if k < 4 ∧ dieRegs q then
      if q < 0xA000000 then d.chnWrite (32 * k + (q - 0x8000000) / 65536) o v
      else if q < 0xC000000 then d
      else d.drvWrite (8 * k + (q - 0xC000000) / 65536) o v
    else d
/-- A register lies at an aligned address (R23). -/
def Dev.isReg (d : Dev) (core : Nat) (lv : Level) (a : Nat) : Bool := a % 4 == 0 && (d.regGet core lv a).isSome

/-- A load of `n` bytes from a register window: whole registers, low first for 8 bytes; a part of one is taken out of its 32 bits
(assumption log 41). -/
def Dev.regLoad (d : Dev) (core : Nat) (lv : Level) (a n : Nat) : RegAns :=
  if n = 8 then
    match d.regGet core lv a with
    | none => none
    | some (d1, lo) =>
      match d1.regGet core lv (a + 4) with
      | none => none
      | some (d2, hi) => some (d2, lo + 2 ^ 32 * hi)
  else
    match d.regGet core lv (a / 4 * 4) with
    | none => none
    | some (d1, v) => some (d1, v / 2 ^ (a % 4 * 8) % 2 ^ (8 * n))
/-- A store of `n` bytes to a register window; no answer where a register is missing. -/
def Dev.regStore (d : Dev) (core : Nat) (lv : Level) (a n v : Nat) : Option Dev :=
  if n = 8 then
    if d.isReg core lv a && d.isReg core lv (a + 4) then some ((d.regPut core a (v % 2 ^ 32)).regPut core (a + 4) (v / 2 ^ 32 % 2 ^ 32)) else none
  else if d.isReg core lv (a / 4 * 4) then some (d.regPut core (a / 4 * 4) (v % 2 ^ (8 * n) * 2 ^ (a % 4 * 8))) else none

/-! ### Rows -/

/-- A core at its level can reach a register window at an address. -/
def Dev.reachesReg (d : Dev) (core : Nat) (lv : Level) (a : Nat) : Bool := d.regionOf core lv a == .reg && d.isReg core lv a
/-- READ_CLEAR_COUNTER: a core that runs reads a register; its RC fields clear with the read. -/
def execReadClearCounter (core : CoreId) (a : BitVec 48) (s : State) : Out :=
  s.apply fun d =>
    let lv := (d.core core.val).level
    if (d.core core.val).released && d.reachesReg core.val lv a.toNat then
      match d.regGet core.val lv a.toNat with
      | some (d1, v) => d1.emit (.regRead core.val a.toNat v)
      | none => d
    else d
/-- REGISTER_WRITE: a core that runs writes a 32-bit register. -/
def execRegisterWrite (core : CoreId) (a : BitVec 48) (v : W32) (s : State) : Out :=
  s.apply fun d =>
    if (d.core core.val).released && d.reachesReg core.val (d.core core.val).level a.toNat then d.regPut core.val a.toNat v.toNat else d

end Sys2Proof.Machine
end

