-- ==== Sys2Proof/Machine/Flags.lean ====
section
/-! DEFINITION. The event inputs e0 to e15 of every core (Table 1-10, R26, R88) and the counters TIME and CYCLE (R42). An input is a
level: it is computed from the state its source leaves. -/

namespace Sys2Proof.Machine

/-- Nanoseconds since a core's release, in steps of 4 (R42). -/
def Dev.timeOf (d : Dev) (c : Nat) : Nat := (d.run - (d.core c).releasedAt) / 4 * 4
/-- Clock cycles since a core's release: 500 MHz, 2 GHz and 1 GHz (Table 2-1). -/
def Dev.cycleOf (d : Dev) (c : Nat) : Nat :=
  match kindOf c with
  | .fold => (d.run - (d.core c).releasedAt) / 2
  | .shepherd => (d.run - (d.core c).releasedAt) * 2
  | .drover => d.run - (d.core c).releasedAt

/-- A read waits on a die behind a running program or erase that may not yet be suspended (R195). -/
def Dev.suspendDemand (d : Dev) (die : Nat) : Bool :=
  (d.dieOps die).any (fun o => o.stage == .running && o.isPE && !d.maySuspend die o)
    && (d.dieOps die).any (fun o => o.stage == .queued && o.desc.isRead)

/-- Inputs e0 to e6 of the Drover core of index v. -/
def Dev.droverInputs (d : Dev) (v : Nat) : List Bool :=
  let c := 9 + v
  let chs := (List.range 4).map (fun j => d.chan (4 * v + j))
  let dies := (List.range 128).map (· + 128 * v)
  [(d.drv v).workTail != (d.drv v).workHead,
   (d.core c).fopDone != [] || chs.any (fun x => x.release != [])
     || dies.any (fun i => (d.dieOps i).any (fun o => o.stage == .ended && o.origin != .fop)),
   chs.any (fun x => x.decodeFail),
   chs.any (fun x => x.faultTrain || x.faultLink || x.faultSusp || x.suspect != 0),
   (d.core c).moveDone != [],
   (d.core c).parDone != [],
   dies.any d.suspendDemand]
/-- Inputs e0 to e6 of a Shepherd core. The manual gives the exception ring no entry, so e0 is never asserted; e1 is asserted while a Run
Module waits and the core runs none; e6 while a DRAM channel is due for training (assumption log 45). -/
def Dev.shepherdInputs (d : Dev) (c : Nat) : List Bool :=
  [false,
   d.nvme.modQueue != [] && (d.core c).modRun.isNone,
   d.drove.reconEvt || (d.core c).parDone != [],
   d.drove.closedEvt,
   (d.core c).moveDone != [],
   d.mapc.flushDone || d.mapc.cleanDone || d.mapc.repairEvt,
   d.dram.chans.any (fun e => e.2.due)]
/-- Inputs e0 to e6 of the Fold core: e5 while the last reseed lies 1 s back. -/
def Dev.foldInputs (d : Dev) : List Bool :=
  [d.fold.meas != [],
   d.dig.any (fun e => e.2.owner == 0 && (e.2.st == .done || e.2.st == .error)),
   d.pka.done,
   d.keys.done,
   d.ilu.done0,
   decide (1000000000 ≤ d.now - d.fold.reseedAt),
   d.fold.tamper != 0]
/-- A source that a core handles has a FIFO record and HANDLING clear (R510). -/
def Dev.recordWaits (d : Dev) (c : Nat) : Bool :=
  sources.any (fun s => handlerOf s == some c && (d.src s).fifo != [] && !(d.src s).handling)
/-- A commit writes its record and asks for a runtime entry. -/
def Dev.appendAsked (d : Dev) : Bool := d.cfg.txns.any (fun t => t.phase == .persisting)
/-- A message of SPDM waits. -/
def Dev.spdmAsked (d : Dev) : Bool := d.walk.msgs.any (fun m => m.mtype == 5)
/-- Inputs e0 to e15 of a core, in order. -/
def Dev.inputs (d : Dev) (c : Nat) : List Bool :=
  let k := d.core c
  let e8 := decide (k.timercmp.toNat ≤ d.timeOf c)
  let lows := match kindOf c with
    | .fold => d.foldInputs
    | .shepherd => d.shepherdInputs c
    | .drover => d.droverInputs (c - 9)
  let highs := match kindOf c with
    | .fold => [k.e9 || d.appendAsked, d.pwr.pfEvt, d.pwr.wakeEvt, d.evt.collieArmed && d.evt.colliePre, d.recordWaits c, d.fold.tokenIn, d.spdmAsked]
    | .shepherd => [k.e9, d.pwr.pfEvt, d.pwr.wakeEvt, d.thm.alert, d.recordWaits c, k.e14, d.walk.msgs != []]
    | .drover => [k.e9, d.pwr.pfEvt, d.pwr.wakeEvt, d.thm.alert, d.recordWaits c, k.e14, false]
  lows ++ [k.msgs != [], e8] ++ highs
/-- The number whose bits a list gives, bit 0 first. -/
def bitsNum : List Bool → Nat
  | [] => 0
  | b :: t => bit b + 2 * bitsNum t
/-- EVPEND of a core at a level: at O only e8 is visible (Table 2-3). -/
def Dev.evpend (d : Dev) (c : Nat) (lv : Level) : Nat :=
  let v := bitsNum (d.inputs c)
  if lv = .o then v &&& 0x100 else v

end Sys2Proof.Machine
end

