-- ==== Sys2Proof/Machine/Operands.lean ====
section
/-! DEFINITION. Operands of Bexob instructions: the instruction word and its checks (R72, R73, R75, Tables 3-1 and 3-2), the traps
(Tables 3-13, 3-14), and the memory accesses of loads, stores, atomics and descriptors (R20, R44 to R46, R79 to R81, R87). -/

namespace Sys2Proof.Machine

/-- A trap: cause and detail of Table 3-14, the value of ETVAL, and whether EPC is the next instruction. -/
structure Trap where
  cause : Nat
  detail : Nat
  tval : Word
  next : Bool
  deriving DecidableEq, Repr

/-- A fault in an instruction: EPC is the instruction itself. -/
def Trap.fault (cause detail : Nat) (tval : Word) : Trap := { cause := cause, detail := detail, tval := tval, next := false }
/-- Access fault at an address. -/
def accessFault (detail a : Nat) : Trap := .fault 3 detail (BitVec.ofNat 64 a)
/-- Misaligned data access or descriptor. -/
def misaligned (a : Nat) : Trap := .fault 4 1 (BitVec.ofNat 64 a)
/-- Raddle consumption; ETVAL is the address of the marked word. -/
def raddle (detail a : Nat) : Trap := .fault 7 detail (BitVec.ofNat 64 (a / 8 * 8))

/-- What R73 and Table 3-2 fix for an instruction: its opcode, the register fields and immediate bits it uses, the kinds of core that have
it and the levels that may execute it. -/
structure OpInfo where
  op : Nat
  rd : Bool
  rs1 : Bool
  rs2 : Bool
  imm : Nat
  kinds : List CoreKind
  levels : List Level
  deriving DecidableEq, Repr

/-- Every kind of core. -/
def allKinds : List CoreKind := [.fold, .shepherd, .drover]
/-- Every level. -/
def allLevels : List Level := [.f, .v, .o]
/-- All 41 immediate bits. -/
def immAll : Nat := 2 ^ 41 - 1
/-- Format R with three registers, on every core and level. -/
def opR (op : Nat) : OpInfo := { op := op, rd := true, rs1 := true, rs2 := true, imm := 0, kinds := allKinds, levels := allLevels }
/-- Format R with rs2 zero. -/
def opR1 (op : Nat) : OpInfo := { opR op with rs2 := false }
/-- Format I. -/
def opI (op : Nat) : OpInfo := { opR op with rs2 := false, imm := immAll }
/-- Format S. -/
def opS (op : Nat) : OpInfo := { opR op with rd := false, imm := immAll }
/-- An instruction limited to kinds of core and levels. -/
def OpInfo.only (i : OpInfo) (kinds : List CoreKind) (levels : List Level) : OpInfo := { i with kinds := kinds, levels := levels }

/-- The instruction word of an opcode and its fields (Table 3-1). -/
def instrWord (op : Nat) (f : Fields) : Word := (BitVec.ofNat 8 op ++ f.rd ++ f.rs1 ++ f.rs2 ++ f.imm : BitVec (8 + 5 + 5 + 5 + 41))
/-- A bit the instruction does not use is not zero (R73). -/
def OpInfo.reserved (i : OpInfo) (f : Fields) : Bool :=
  (!i.rd && f.rd != 0) || (!i.rs1 && f.rs1 != 0) || (!i.rs2 && f.rs2 != 0) || f.imm.toNat % 2 ^ 41 &&& (immAll - i.imm) != 0
/-- The first trap of the encoding checks, in the order of R75: bits of R73, kind of core, level. -/
def OpInfo.check (i : OpInfo) (f : Fields) (kind : CoreKind) (lv : Level) : Option Trap :=
  if i.reserved f then some (.fault 1 2 (instrWord i.op f))
  else if !i.kinds.contains kind then some (.fault 1 3 (instrWord i.op f))
  else if !i.levels.contains lv then some (.fault 2 1 (instrWord i.op f))
  else none

/-! ### Memory -/

/-- What an access does. -/
inductive Acc where
  | load | store | amo
  deriving DecidableEq, Repr

/-- The core whose scratch holds a direct address. -/
def scratchOwner (m : Nat) : Option Nat :=
  if 0x80000 ≤ m ∧ m < 0x100000 then some 0
  else if 0x8000000 ≤ m ∧ m < 0x8800000 then some (1 + (m - 0x8000000) / 0x100000)
  else if 0x40000000 ≤ m ∧ m < 0x80000000 ∧ m % 0x10000000 < 0x200000 then some (9 + (m - 0x40000000) / 0x10000000 * 8 + m % 0x10000000 / 0x40000)
  else none
/-- The page is one of the load region of the image that runs at the level: at O the upper half of a Shepherd scratch, at V and F the
image's own region, once an image is loaded (R45, R65). -/
def Core.inLoadRegion (k : Core) (c : Nat) (lv : Level) (page : Nat) : Bool :=
  if lv = .o then true else k.pages != [] && (kindOf c != .shepherd || decide (page < 128))
/-- Detail of the access fault a scratch page raises (R45), 0 for none. -/
def Dev.pageDetail (d : Dev) (c : Nat) (lv : Level) (m : Nat) (acc : Acc) : Nat :=
  match scratchOwner m with
  | none => 0
  | some w =>
    let page := (m - scratchBase w) / 4096
    match (d.core w).pages.get? page with
    | none => if w = c ∧ (d.core c).inLoadRegion c lv page then 1 else 0
    | some p =>
      if acc = .load then 0
      else if p.x || (!p.w && w == c && (d.core c).inLoadRegion c lv page) then 3 else 0
/-- Regions that support atomics (R81): local scratch, Shepherd scratch, pens, staging and DRAM. -/
def atomicRegion (c m : Nat) : Bool :=
  scratchOwner m == some c || (decide (0x8000000 ≤ m) && decide (m < 0x8800000)) || (decide (0x1000000 ≤ m) && decide (m < 0x1400000))
    || inStaging m 1 || decide (dramBase ≤ m)
/-- The detail of the access fault of an access to an address, or the region that serves it. -/
def Dev.access (d : Dev) (c : Nat) (lv : Level) (a : Nat) (acc : Acc) : Except Nat Region :=
  match d.regionOf c lv a with
  | .unmapped => .error 1
  | .denied => .error 2
  | .view => if acc = .load then .ok .view else if acc = .amo then .error 5 else .error 3
  | .reg => if !d.isReg c lv (a / 4 * 4) then .error 1 else if acc = .amo then .error 5 else .ok .reg
  | .mem m =>
    if acc = .amo ∧ !atomicRegion c m then .error 5
    else if d.pageDetail c lv m acc ≠ 0 then .error (d.pageDetail c lv m acc)
    else .ok (.mem m)

/-- A load of `n` bytes by a core at a level: the device after it and the value. -/
def Dev.load (d : Dev) (c : Nat) (lv : Level) (a n : Nat) : Except Trap (Dev × Nat) :=
  if a % n ≠ 0 then .error (misaligned a)
  else match d.access c lv a .load with
    | .error e => .error (accessFault e a)
    | .ok (.mem m) => if d.marked m then .error (raddle 1 a) else .ok (d, ofLe (d.bytes m n))
    | .ok .view => .ok (d, ofLe ((List.range n).map (fun i => d.viewByte (a + i))))
    | .ok _ => match d.regLoad c lv a n with
      | some r => .ok r
      | none => .error (accessFault 1 a)
/-- A store of `n` bytes: a doubleword store clears the mark of its word, a smaller one into a marked word traps (R80). -/
def Dev.store (d : Dev) (c : Nat) (lv : Level) (a n v : Nat) : Except Trap Dev :=
  if a % n ≠ 0 then .error (misaligned a)
  else match d.access c lv a .store with
    | .error e => .error (accessFault e a)
    | .ok (.mem m) =>
      if n ≠ 8 ∧ d.marked m then .error (raddle 2 a) else .ok ((d.putBytes m (leBytes n v)).clearMarks m n)
    | .ok _ => match d.regStore c lv a n v with
      | some x => .ok x
      | none => .error (accessFault 1 a)
/-- An atomic on 8 bytes (R81): the device after it and the old value. -/
def Dev.atomic (d : Dev) (c : Nat) (lv : Level) (a : Nat) (k : Amo) (y rdIn : Word) : Except Trap (Dev × Word) :=
  if a % 8 ≠ 0 then .error (misaligned a)
  else match d.access c lv a .amo with
    | .error e => .error (accessFault e a)
    | .ok (.mem m) =>
      if d.marked m then .error (raddle 1 a)
      else
        let old := BitVec.ofNat 64 (ofLe (d.bytes m 8))
        match amoNew k old y rdIn with
        | some v => .ok (d.putBytes m (leBytes 8 v.toNat), old)
        | none => .ok (d, old)
    | .ok _ => .error (accessFault 5 a)
/-- A 32-byte descriptor in the issuing core's local scratch (R87). -/
def Dev.descriptor (d : Dev) (c : Nat) (lv : Level) (a : Nat) : Except Trap Bytes :=
  if a % 32 ≠ 0 then .error (misaligned a)
  else if 2 ^ 48 ≤ a then .error (accessFault 1 a)
  else match inScratch c a 32 with
    | none => .error (accessFault 6 a)
    | some m =>
      if d.pageDetail c lv m .load ≠ 0 then .error (accessFault (d.pageDetail c lv m .load) a)
      else match (List.range 4).find? (fun i => d.marked (m + 8 * i)) with
        | some i => .error (raddle 1 (a + 8 * i))
        | none => .ok (d.bytes m 32)
/-- The boot ROM hands control to Fold firmware at step 4 of Table 15-1; until then the Fold fetches from it (R45). -/
def Dev.romFetch (d : Dev) (c a : Nat) : Bool := c == 0 && decide (a < 0x40000) && decide (d.fold.stage < 4)
/-- The trap of an instruction fetch at an address (R45, R78, R80): an address that is not 8-byte aligned is taken as one that is not
executable (DEDUCED, assumption log 47). -/
def Dev.fetchTrap (d : Dev) (c : Nat) (lv : Level) (a : Nat) : Option Trap :=
  if 2 ^ 48 ≤ a then some (accessFault 1 a)
  else if a % 8 = 0 ∧ d.romFetch c a then none
  else match inScratch c a 8 with
    | none => some (accessFault 4 a)
    | some m =>
      if a % 8 ≠ 0 ∨ !(((d.core c).pages.get? ((m - scratchBase c) / 4096)).any (fun p => p.x)) then some (accessFault 4 a)
      else if lv = .o ∧ m - scratchBase c < 0x80000 then some (accessFault 4 a)
      else if d.marked m then some (.fault 7 3 (BitVec.ofNat 64 a))
      else none

end Sys2Proof.Machine
end

