-- ==== Sys2Proof/Machine/Bexob.lean ====
section
/-! DEFINITION. Execution of a Bexob core: taking a trap and returning, the end of an O module, and the step around every instruction
(R39, R50 to R56, R75, R121). -/

namespace Sys2Proof.Machine

/-- The code of a level (PRIV, ESTAT.PPRIV). -/
def Level.code : Level → Nat
  | .f => 0
  | .v => 1
  | .o => 2
/-- ESTAT.INTRAP. -/
def Core.inTrap (k : Core) : Bool := bitOf k.estat.toNat 3
/-- ESTAT.IE. -/
def Core.ie (k : Core) : Bool := bitOf k.estat.toNat 4
/-- ESTAT.PIE. -/
def Core.pie (k : Core) : Bool := bitOf k.estat.toNat 2
/-- ESTAT.PPRIV. -/
def Core.ppriv (k : Core) : Nat := bitsOf k.estat.toNat 1 0
/-- Trap entry address: TVEC without its low bits. -/
def Core.entry (k : Core) : Word := k.tvec &&& ~~~(7#64)
/-- A core's own event source (Table 21-1). -/
def ownSource (c : Nat) : Nat :=
  match kindOf c with
  | .fold => 0x001
  | .shepherd => 0x01F + c
  | .drover => 0x040 + (c - 9)
/-- ECAUSE of a trap. -/
def Trap.ecause (t : Trap) : Nat := t.cause + t.detail * 65536

/-- Steps 1 to 5 of R52. -/
def Core.enterTrap (k : Core) (c : Nat) (t : Trap) (epc : Word) : Core :=
  { k with epc := epc, ecause := BitVec.ofNat 64 t.ecause, etval := t.tval,
           estat := BitVec.ofNat 64 (k.level.code + 4 * bit k.ie + 8), level := if kindOf c = .fold then .f else .v,
           pc := k.entry, run := .running }

/-- The O module of a core ends (R56, R101, R122): its open transactions are abandoned, its result is held for its controller, its pages
are unmapped, and Run Module completes. `ending` 2 is an end without a result (R123). The core goes on at V at its trap entry with INTRAP clear (DESIGN CHOICE, assumption log 46). -/
def Dev.endModule (d : Dev) (c ending ecause : Nat) (status : Word) : Dev :=
  match (d.core c).modRun with
  | none => d
  | some m =>
    let r : RunResult := { inst := m.inst, check := 0, ending := ending, ecause := ecause, status := status, bytes := m.result }
    let d1 := d.abandonTxns (fun x => x.core == c && x.inst == m.inst)
    let d2 := if ending = 2 then d1 else d1.modCtrl m.ctrl (fun x => { x with results := (x.results ++ [r]).drop (x.results.length + 1 - 16) })
    let d3 := d2.modCore c (fun k => { k with modRun := none, modinst := 0, level := .v, pc := k.entry, run := .running,
                                              estat := BitVec.ofNat 64 (1 + 20 * bit k.pie), pages := k.pages.filter (fun e => e.1 < 128) })
    d3.complete m.pen scOk (m.inst + 2 ^ 32 * (ending * 256 + ecause * 65536))

/-- Takes a trap: with INTRAP set the core halts and posts a fatal-class record (R54); otherwise it enters TVEC (R52). A trap from O other
than a service call or an event ends the module (R56). -/
def Dev.trap (d : Dev) (c : Nat) (t : Trap) (epc : Word) : Dev :=
  let k := d.core c
  if k.inTrap then (d.setCore c { k with run := .halted }).post (ownSource c) (coreIdOf c) t.ecause 0x08 3
  else
    let d1 := d.setCore c (k.enterTrap c t epc)
    if k.level = .o ∧ t.cause ≠ 8 ∧ t.cause ≠ 9 then d1.endModule c 1 t.cause 0 else d1

/-- The lowest asserted input that EVTRAP selects, with ESTAT.IE set (R50). -/
def Dev.eventDue (d : Dev) (c : Nat) : Option Nat :=
  let k := d.core c
  if !k.ie then none
  else
    let v := bitsNum (d.inputs c) &&& k.evtrap.toNat
    (List.range 16).find? (fun i => bitOf v i)
/-- The event trap for an input: EPC is the next instruction not yet executed. -/
def Dev.takeEvent (d : Dev) (c n : Nat) : Dev :=
  d.trap c (.fault 9 n (BitVec.ofNat 64 (bitsNum (d.inputs c)))) (d.core c).pc

/-- What an instruction leaves: it goes on, jumps, or stays at its own address while the core waits. -/
inductive After where
  | next
  | jump (a : Word)
  | stay
  deriving DecidableEq, Repr

/-- An instruction retires and the core continues at an address. -/
def Dev.retireAt (d : Dev) (c : Nat) (pc : Word) : Dev := d.modCore c (fun k => { k with pc := pc, instret := k.instret + 1 })

/-- A core can execute: it runs and its paddock is On. -/
def Dev.canStep (d : Dev) (c : Nat) : Bool := (d.core c).run == .running && d.padOn (corePad c)

/-- The run limit of the core's module is reached (R121). -/
def Core.overLimit (k : Core) : Bool := k.level == .o && k.modRun.any (fun m => decide (m.limitUs * 1000 ≤ m.usedNs))
/-- The run-limit trap (Table 3-13). -/
def Core.limitTrap (k : Core) : Trap := .fault 0xA 0 (BitVec.ofNat 64 ((k.modRun.map (fun m => m.limitUs)).getD 0))

/-- Executes an instruction whose encoding checks have passed: its fault is taken before an event due at the same boundary (R55); an
event otherwise takes its place (R50); TRAP retires and then traps. -/
def Dev.finish (d : Dev) (c : Nat) (r : Except Trap (Dev × After)) : Dev :=
  let pc := (d.core c).pc
  match r with
  | .error t =>
    if !t.next then d.trap c t pc
    else match d.eventDue c with
      | some n => d.takeEvent c n
      | none => (d.retireAt c (pc + 8)).trap c t (pc + 8)
  | .ok (d1, a) =>
    match d.eventDue c with
    | some n => d.takeEvent c n
    | none => match a with
      | .next => d1.retireAt c (pc + 8)
      | .jump t => d1.retireAt c t
      | .stay => d1

/-- One instruction of a core: the run limit, the exit stub (R58), the fetch, the encoding checks in the order of R75, then its effect. The
instruction word comes with the command; the word in memory at the pc is not compared with it (assumption log 48). -/
def Dev.runInstr (d : Dev) (c : Nat) (f : Fields) (i : OpInfo) (body : Except Trap (Dev × After)) : Dev :=
  let k := d.core c
  if !d.canStep c then d
  else if k.overLimit then d.trap c k.limitTrap k.pc
  else if k.level = .o ∧ k.pc = Config.exitStub then
    (d.retireAt c (k.pc + 8)).trap c { cause := 8, detail := 0, tval := BitVec.ofNat 64 (0x65 * 2 ^ 56), next := true } (k.pc + 8)
  else match d.fetchTrap c k.level k.pc.toNat with
    | some t => d.trap c t k.pc
    | none => match i.check f (kindOf c) k.level with
      | some t => d.trap c t k.pc
      | none => d.finish c body

/-- Value of rs1. -/
def Dev.x (d : Dev) (c : Nat) (f : Fields) : Word := (d.core c).reg f.rs1
/-- Value of rs2. -/
def Dev.y (d : Dev) (c : Nat) (f : Fields) : Word := (d.core c).reg f.rs2
/-- Writes rd. -/
def Dev.setRd (d : Dev) (c : Nat) (f : Fields) (v : Word) : Dev := d.modCore c (fun k => k.setReg f.rd v)
/-- An instruction that only writes rd. -/
def Dev.writes (d : Dev) (c : Nat) (f : Fields) (v : Word) : Except Trap (Dev × After) := .ok (d.setRd c f v, .next)

end Sys2Proof.Machine
end

