-- ==== Sys2Proof/Machine/BexobSys.lean ====
section
/-! DEFINITION. Events, messages, special registers, traps and low power of the Bexob cores (R41 to R43, R48 to R53, R82 to R86, R462,
R465). -/

namespace Sys2Proof.Machine

/-! ### WAITEV and event traps (R48 to R51) -/

/-- The mask WAITEV waits on: at O only the core's own timer (R49). -/
def Core.waitMask (k : Core) (f : Fields) : Nat :=
  let m := f.imm.toNat % 65536
  if k.level = .o then m &&& 0x100 else m
/-- WAITEV: completes at once with EVPEND under the mask, or stalls. -/
def execWaitev (c : CoreId) (f : Fields) (s : State) : Out :=
  s.apply fun d =>
    let m := (d.core c.val).waitMask f
    let v := bitsNum (d.inputs c.val) &&& m
    d.runInstr c.val f { opI 0x60 with rs1 := false, imm := 0xFFFF }
      (if m = 0 then .error (.fault 1 7 (instrWord 0x60 f))
       else if v ≠ 0 then d.writes c.val f (BitVec.ofNat 64 v)
       else .ok (d.modCore c.val (fun k => { k with run := .waitev f.rd (BitVec.ofNat 16 m) }), .stay))
/-- WAITEV_WAKE: a stalled WAITEV gives way to an event trap, or completes. -/
def execWaitevWake (c : CoreId) (s : State) : Out :=
  s.apply fun d => match (d.core c.val).run with
    | .waitev rd m =>
      match d.eventDue c.val with
      | some n => d.takeEvent c.val n
      | none =>
        let v := bitsNum (d.inputs c.val) &&& m.toNat
        if v = 0 then d
        else (d.modCore c.val (fun k => { k.setReg rd (BitVec.ofNat 64 v) with run := .running })).retireAt c.val ((d.core c.val).pc + 8)
    | _ => d
/-- The core can take an event trap between instructions: it runs, pauses in YIELD or stalls in WAITEV. -/
def Core.interruptible (k : Core) : Bool :=
  match k.run with
  | .running => true
  | .yielding _ => true
  | .waitev _ _ => true
  | _ => false
/-- EVENT_TRAP: a selected input is asserted with IE set (R50). -/
def execEventTrap (c : CoreId) (s : State) : Out :=
  s.apply fun d => match d.eventDue c.val with
    | some n => if (d.core c.val).interruptible && d.padOn (corePad c.val) then d.takeEvent c.val n else d
    | none => d
/-- CORE_TIMER: time passes until TIME reaches TIMERCMP, and e8 is asserted (R41). A value that TIME never reaches has no effect. -/
def execCoreTimer (c : CoreId) (s : State) : Out :=
  s.apply fun d =>
    let k := d.core c.val
    let t := roundUp k.timercmp.toNat 4
    if k.run = .inReset ∨ d.clk.hold ∨ 2 ^ 64 ≤ t then d else d.advanceTo (d.now + (k.releasedAt + t - d.run))

/-! ### Messages (R82) -/

/-- The core whose CORE_ID[15:0] is given. -/
def coreOfId (x : Nat) : Option Nat := (List.range 41).find? (fun c => coreIdOf c == x)
/-- MSGSEND: 0 queued, 1 the queue is full, 2 no such core or its paddock not On. -/
def Dev.msgSend (d : Dev) (c : Nat) (x : Nat) (payload : W32) : Dev × Nat :=
  match (if 65536 ≤ x then none else coreOfId x) with
  | none => (d, 2)
  | some t =>
    if !d.padOn (corePad t) then (d, 2)
    else if 16 ≤ (d.core t).msgs.length then (d, 1)
    else (d.modCore t (fun k => { k with msgs := k.msgs ++ [{ sender := BitVec.ofNat 16 (coreIdOf c), payload := payload }] }), 0)
/-- MSGSEND. -/
def execMsgsend (c : CoreId) (f : Fields) (s : State) : Out :=
  s.apply fun d =>
    let r := d.msgSend c.val (d.x c.val f).toNat (BitVec.ofNat 32 (d.y c.val f).toNat)
    d.runInstr c.val f ((opR 0x61).only allKinds [.f, .v]) (r.1.writes c.val f (BitVec.ofNat 64 r.2))
/-- A received message as rd holds it. -/
def Msg.word (m : Msg) : Word := BitVec.ofNat 64 (2 ^ 63 + m.sender.toNat * 2 ^ 32 + m.payload.toNat)
/-- MSGRECV. -/
def execMsgrecv (c : CoreId) (f : Fields) (s : State) : Out :=
  s.apply fun d =>
    let ms := (d.core c.val).msgs
    let d1 := d.modCore c.val (fun k => { k with msgs := ms.drop 1 })
    d.runInstr c.val f ({ opR1 0x62 with rs1 := false }.only allKinds [.f, .v]) (d1.writes c.val f ((ms.head?.map Msg.word).getD 0))

/-! ### YIELD and FENCE (R84, R85) -/

/-- Nanoseconds of a number of clock cycles of a core, rounded up (Table 2-1). -/
def cyclesNs (c n : Nat) : Nat :=
  match kindOf c with
  | .fold => n * 2
  | .shepherd => (n + 1) / 2
  | .drover => n
/-- YIELD: the clock stops for imm41[5:0] + 1 cycles; the instruction has retired. -/
def execYield (c : CoreId) (f : Fields) (s : State) : Out :=
  s.apply fun d =>
    d.runInstr c.val f { opI 0x63 with rd := false, rs1 := false, imm := 0x3F }
      (.ok (d.modCore c.val (fun k => { k with run := .yielding (d.run + cyclesNs c.val (f.imm.toNat % 64 + 1)) }), .next))
/-- YIELD_RESUME: the cycle count has expired. -/
def execYieldResume (c : CoreId) (s : State) : Out :=
  s.apply fun d => match (d.core c.val).run with
    | .yielding t => if d.clk.hold then d else (d.advanceTo (d.now + (t - d.run))).modCore c.val (fun k => { k with run := .running })
    | _ => d
/-- FENCE: loads and stores take effect in order, so FENCE 0 only advances; FENCE 1 waits while MOVE or parity operations are outstanding. -/
def execFence (c : CoreId) (f : Fields) (s : State) : Out :=
  s.apply fun d =>
    let k := d.core c.val
    d.runInstr c.val f { opI 0x64 with rd := false, rs1 := false, imm := 1 }
      (if f.imm.toNat % 2 = 1 ∧ (k.moves ≠ [] ∨ k.pars ≠ []) then .ok (d.modCore c.val (fun k => { k with run := .fencing }), .stay)
       else .ok (d, .next))
/-- A core that waits in FENCE goes on once its MOVE and parity operations have posted their records. -/
def Dev.fenceDone (d : Dev) (c : Nat) : Dev :=
  let k := d.core c
  if k.run = .fencing ∧ k.moves = [] ∧ k.pars = [] then (d.modCore c (fun k => { k with run := .running })).retireAt c (k.pc + 8) else d

/-! ### TRAP, ERET and special registers (R41, R53, R86) -/

/-- The level a code names. -/
def levelOfCode (n : Nat) : Option Level :=
  match n with
  | 0 => some .f
  | 1 => some .v
  | 2 => some .o
  | _ => none
/-- The levels a core kind runs (Table 2-1). -/
def kindLevels (k : CoreKind) : List Level :=
  match k with
  | .fold => [.f]
  | .shepherd => [.v, .o]
  | .drover => [.v]
/-- Level and trap state after ERET, at a level. -/
def Core.eret (k : Core) (lv : Level) : Core :=
  { k with level := lv, pc := k.epc, estat := BitVec.ofNat 64 (k.ppriv + 20 * bit k.pie) }
/-- A service call returns to the module with a status in g1 (R59). -/
def Dev.serviceReturn (d : Dev) (c : Nat) (v : Word) : Dev :=
  d.modCore c (fun k => (k.setReg 1 v).eret .o)
/-- The number of the service call that the V firmware of a core has in hand. -/
def Dev.serviceIn (d : Dev) (c : Nat) : Option Nat :=
  let k := d.core c
  if k.level = .v ∧ k.inTrap ∧ k.ppriv = 2 ∧ k.ecause.toNat % 65536 = 8 ∧ k.modRun.isSome ∧ k.run = .running then
    some (k.ecause.toNat / 65536)
  else none
/-- A service number that Table 2-9 does not list returns all ones in g1 and has no other effect. -/
def Dev.otherService (d : Dev) (c : Nat) : Dev :=
  match d.serviceIn c with
  | some n => if 3 < n then d.serviceReturn c (BitVec.allOnes 64) else d
  | none => d
/-- TRAP: the service-call trap with detail imm41[7:0]; from O with a number beyond Table 2-9, the V firmware returns at once. -/
def execTrap (c : CoreId) (f : Fields) (s : State) : Out :=
  s.apply fun d =>
    let d1 := d.runInstr c.val f { opI 0x65 with rd := false, rs1 := false, imm := 0xFF }
      (.error { cause := 8, detail := f.imm.toNat % 256, tval := instrWord 0x65 f, next := true })
    if (d.core c.val).level = .o then d1.otherService c.val else d1
/-- ERET. -/
def execEret (c : CoreId) (f : Fields) (s : State) : Out :=
  s.apply fun d =>
    let k := d.core c.val
    d.runInstr c.val f ({ opR1 0x66 with rd := false, rs1 := false }.only allKinds [.f, .v])
      (match (levelOfCode k.ppriv).filter (fun l => (kindLevels (kindOf c.val)).contains l) with
       | none => .error (.fault 1 8 (instrWord 0x66 f))
       | some l => .ok (d.modCore c.val (fun k => k.eret l), .jump k.epc))

/-- Rights to a special register at a level (Table 2-3): none where the number is not listed, else 0 no access, 1 read, 2 read and write. -/
def spRight (n : Nat) (lv : Level) : Option Nat :=
  if n = 0x000 ∨ n = 0x001 ∨ n = 0x007 ∨ n = 0x009 ∨ n = 0x00A ∨ n = 0x00F ∨ n = 0x010 then some 1
  else if n = 0x00B then some 2
  else if n = 0x011 then some (if lv = .f then 0 else 1)
  else if n = 0x003 ∨ n = 0x004 then some (if lv = .o then 0 else 1)
  else if n ≤ 0x00E then some (if lv = .o then 0 else 2)
  else none
/-- The transaction context that executes on a core. -/
def Dev.ctxOf (d : Dev) (c : Nat) : TxCtx :=
  { core := c, inst := if (d.core c).level = .o then (d.core c).modinst.toNat else 0 }
/-- The value of a special register (Table 2-3). -/
def Dev.spRead (d : Dev) (c n : Nat) : Word :=
  let k := d.core c
  match n with
  | 0x000 => BitVec.ofNat 64 (coreIdOf c)
  | 0x001 => BitVec.ofNat 64 k.level.code
  | 0x002 => k.epc
  | 0x003 => k.ecause
  | 0x004 => k.etval
  | 0x005 => k.estat
  | 0x006 => k.tvec
  | 0x007 => BitVec.ofNat 64 (d.evpend c k.level)
  | 0x008 => k.evtrap
  | 0x009 => BitVec.ofNat 64 (d.cycleOf c)
  | 0x00A => BitVec.ofNat 64 (d.timeOf c)
  | 0x00B => k.timercmp
  | 0x00C => k.pwrmode
  | 0x00D => k.save0
  | 0x00E => k.save1
  | 0x00F => k.instret
  | 0x010 => if k.level = .o then k.modinst else 0
  | _ => BitVec.ofNat 64 (d.cfg.txh (d.ctxOf c))
/-- Writes a special register; reserved bits stay 0 (Tables 2-3 to 2-5). -/
def Core.spWrite (k : Core) (n : Nat) (v : Word) : Core :=
  match n with
  | 0x002 => { k with epc := v }
  | 0x005 => { k with estat := v &&& 0x1F }
  | 0x006 => { k with tvec := v }
  | 0x008 => { k with evtrap := v &&& 0xFFFF }
  | 0x00B => { k with timercmp := v }
  | 0x00C => { k with pwrmode := v &&& 0x1FF03 }
  | 0x00D => { k with save0 := v }
  | 0x00E => { k with save1 := v }
  | _ => k
/-- SPGET. -/
def execSpget (c : CoreId) (f : Fields) (s : State) : Out :=
  s.apply fun d =>
    let n := f.imm.toNat % 4096
    d.runInstr c.val f { opI 0x67 with rs1 := false, imm := 0xFFF }
      (match spRight n (d.core c.val).level with
       | none => .error (.fault 1 5 (instrWord 0x67 f))
       | some r => if r = 0 then .error (.fault 2 2 (instrWord 0x67 f)) else d.writes c.val f (d.spRead c.val n))
/-- SPSET. -/
def execSpset (c : CoreId) (f : Fields) (s : State) : Out :=
  s.apply fun d =>
    let n := f.imm.toNat % 4096
    d.runInstr c.val f { opI 0x68 with rd := false, imm := 0xFFF }
      (match spRight n (d.core c.val).level with
       | none => .error (.fault 1 5 (instrWord 0x68 f))
       | some r =>
         if r = 0 then .error (.fault 2 2 (instrWord 0x68 f))
         else if r = 1 then .error (.fault 1 4 (instrWord 0x68 f))
         else .ok (d.modCore c.val (fun k => k.spWrite n (d.x c.val f)), .next))

/-! ### REST (R43, R462, R465) -/

/-- PWRMODE.SELF. -/
def Core.pwrSelf (k : Core) : Nat := bitsOf k.pwrmode.toNat 1 0
/-- PWRMODE.SET. -/
def Core.pwrSet (k : Core) : Nat := bitsOf k.pwrmode.toNat 15 8
/-- PWRMODE.ARM. -/
def Core.pwrArm (k : Core) : Bool := bitOf k.pwrmode.toNat 16
/-- SET on REST: honoured on Shepherd core 0 for the codes of Table 18-5; otherwise a record goes to the PWR source and it is taken as 0.
Standby is entered by its request alone (R467): SET 0x10 adds nothing to an entry that the request has begun. -/
def Dev.restSet (d : Dev) (c set : Nat) : Dev :=
  if set = 0 then d
  else if c = 1 ∧ set ≤ 4 then
    if d.pwr.entering then (if d.pwr.target = set ∨ d.pwr.target = 5 then d else d.beginEntry set)
    else if d.pwr.current = set then d else d.beginEntry set
  else if c = 1 ∧ set = 0x10 then d
  else d.post 0x00C (coreIdOf c) 0x00C 0x09 2
/-- The state REST enters: the core rests, and with SELF 0b01 or 0b10 its own paddock goes to Retention. -/
def Dev.restSelf (d : Dev) (c : Nat) : Dev :=
  let k := d.core c
  let d1 := d.setCore c { k with run := .resting }
  if k.pwrSelf = 0 then d1 else d1.setPad (corePad c) 1
/-- REST. -/
def execRest (c : CoreId) (f : Fields) (s : State) : Out :=
  s.apply fun d =>
    let k := d.core c.val
    d.runInstr c.val f ({ opR1 0x69 with rd := false, rs1 := false }.only allKinds [.f, .v])
      (if !k.pwrArm ∨ k.pwrSelf = 3 then .error (.fault 1 6 (instrWord 0x69 f))
       else .ok ((d.restSelf c.val).restSet c.val k.pwrSet, .next))
/-- REST_WAKE: e11 or an input that EVTRAP selects is asserted; the paddock returns On and ARM clears. -/
def execRestWake (c : CoreId) (s : State) : Out :=
  s.apply fun d =>
    let k := d.core c.val
    if k.run = .resting ∧ bitsNum (d.inputs c.val) &&& (k.evtrap.toNat ||| 0x800) ≠ 0 then
      (d.wakePad (corePad c.val)).modCore c.val (fun k => { k with run := .running, pwrmode := k.pwrmode &&& 0xFF03 })
    else d

end Sys2Proof.Machine
end

