-- ==== Sys2Proof/Machine/BexobDesc.lean ====
section
/-! DEFINITION. The descriptor instructions FOP, MOVE, the parity instructions and MEAS, the instructions that collect their records, and
the ends of the operations they queue (R87 to R96, R102 to R104, R156, R157, R327). -/

namespace Sys2Proof.Machine

/-! ### FOP, FOPC, FOPQ (R89 to R92) -/

/-- FOP for the rows of one operation code: a descriptor whose OP is another known code is another row's. -/
def Dev.runFop (d : Dev) (c : Nat) (f : Fields) (op : Nat) : Dev :=
  let got := d.descriptor c (d.core c).level (d.x c f).toNat
  let other := match got with
    | .error _ => false
    | .ok b => (FopDesc.ofBytes b).op != op && decide (1 ≤ (FopDesc.ofBytes b).op) && decide ((FopDesc.ofBytes b).op ≤ 9)
  if other then d
  else d.runInstr c f ((opR1 0x70).only [.drover] [.v])
    (match got with
     | .error t => .error t
     | .ok b =>
       let r := d.fop c (FopDesc.ofBytes b) .fop
       r.1.writes c f (BitVec.ofNat 64 r.2))
/-- FOP with OP 0x01, read. -/
def execFopRead (c : CoreId) (f : Fields) (s : State) : Out := s.apply fun d => d.runFop c.val f 1
/-- FOP with OP 0x02, four-plane TLC program. -/
def execFopProgramTlc (c : CoreId) (f : Fields) (s : State) : Out := s.apply fun d => d.runFop c.val f 2
/-- FOP with OP 0x03, SLC program. -/
def execFopProgramSlc (c : CoreId) (f : Fields) (s : State) : Out := s.apply fun d => d.runFop c.val f 3
/-- FOP with OP 0x04, erase. -/
def execFopErase (c : CoreId) (f : Fields) (s : State) : Out := s.apply fun d => d.runFop c.val f 4
/-- FOP with OP 0x05, reset die. -/
def execFopResetDie (c : CoreId) (f : Fields) (s : State) : Out := s.apply fun d => d.runFop c.val f 5
/-- FOP with OP 0x06, get features. -/
def execFopGetFeatures (c : CoreId) (f : Fields) (s : State) : Out := s.apply fun d => d.runFop c.val f 6
/-- FOP with OP 0x07, set features. -/
def execFopSetFeatures (c : CoreId) (f : Fields) (s : State) : Out := s.apply fun d => d.runFop c.val f 7
/-- FOP with OP 0x08, read parameter page. -/
def execFopReadParameterPage (c : CoreId) (f : Fields) (s : State) : Out := s.apply fun d => d.runFop c.val f 8
/-- FOP with OP 0x09, soft read. -/
def execFopSoftRead (c : CoreId) (f : Fields) (s : State) : Out := s.apply fun d => d.runFop c.val f 9
/-- A completion record as FOPC writes it. -/
def FopRec.word (r : FopRec) : Word :=
  BitVec.ofNat 64 (r.tag + r.die * 2 ^ 16 + r.status * 2 ^ 32 + r.retries * 2 ^ 40 + 2 ^ 63)
/-- Removes the first operation of a queue that ended as a FOP with a tag. -/
def dropEnded (tag : Nat) : List DieOp → List DieOp
  | [] => []
  | o :: t => if o.stage = .ended ∧ o.origin = .fop ∧ o.desc.tag = tag then t else o :: dropEnded tag t
/-- Collects the oldest record: its queue position is free again (R91); with the record of a decode failure, input e2 of its channel. -/
def Dev.fopCollect (d : Dev) (c : Nat) : Dev × Word :=
  match (d.core c).fopDone with
  | [] => (d, 0)
  | r :: t =>
    let d1 := (d.modCore c (fun k => { k with fopDone := t })).modDie r.die (fun e => { e with ops := dropEnded r.tag e.ops })
    (if r.status = 2 then d1.modChan (r.die / 32) (fun x => { x with decodeFail := false }) else d1, r.word)
/-- FOPC. -/
def execFopc (c : CoreId) (f : Fields) (s : State) : Out :=
  s.apply fun d =>
    let r := d.fopCollect c.val
    d.runInstr c.val f ({ opR1 0x71 with rs1 := false }.only [.drover] [.v]) (r.1.writes c.val f r.2)
/-- The number FOPQ writes. -/
def Dev.fopqCount (d : Dev) (c die : Nat) : Word :=
  if 4096 ≤ die ∨ droverOf (die / 32) ≠ c then BitVec.allOnes 64 else BitVec.ofNat 64 (d.dieOps die).length
/-- FOPQ. -/
def execFopq (c : CoreId) (f : Fields) (s : State) : Out :=
  s.apply fun d => d.runInstr c.val f ((opR1 0x72).only [.drover] [.v]) (d.writes c.val f (d.fopqCount c.val (d.x c.val f).toNat))

/-! ### MOVE, MOVEC (R93, R94) -/

/-- MOVE's issue status with the device after it. -/
def Dev.moveIssue (d : Dev) (c : Nat) (x : MoveDesc) : Dev × Nat :=
  let k := d.core c
  if x.invalid then (d, 2)
  else if 16 ≤ k.moves.length + k.moveDone.length then (d, 1)
  else (d.setCore c { k with moves := k.moves ++ [{ desc := x, level := k.level }] }, 0)
/-- MOVE. -/
def execMove (c : CoreId) (f : Fields) (s : State) : Out :=
  s.apply fun d => d.runInstr c.val f ((opR1 0x78).only allKinds [.f, .v])
    (match d.descriptor c.val (d.core c.val).level (d.x c.val f).toNat with
     | .error t => .error t
     | .ok b =>
       let r := d.moveIssue c.val (MoveDesc.ofBytes b)
       r.1.writes c.val f (BitVec.ofNat 64 r.2))
/-- A MOVE or parity record as MOVEC and PCOL write it. -/
def TagStatus.word (t : TagStatus) : Word := BitVec.ofNat 64 (t.tag + t.status * 2 ^ 16 + 2 ^ 63)
/-- MOVEC. -/
def execMovec (c : CoreId) (f : Fields) (s : State) : Out :=
  s.apply fun d =>
    let l := (d.core c.val).moveDone
    let d1 := d.modCore c.val (fun k => { k with moveDone := l.drop 1 })
    d.runInstr c.val f ({ opR1 0x79 with rs1 := false }.only allKinds [.f, .v]) (d1.writes c.val f ((l.head?.map TagStatus.word).getD 0))

/-- A piece of a MOVE read from its source: the bytes and whether they lie in a marked word; none on an access fault. -/
def Dev.moveRead (d : Dev) (c : Nat) (lv : Level) (a n : Nat) : Option (Dev × Bytes × Bool) :=
  match d.access c lv a .load with
  | .error _ => none
  | .ok (.mem m) => some (d, d.bytes m n, d.marked m)
  | .ok .view => some (d, (List.range n).map (fun i => d.viewByte (a + i)), false)
  | .ok _ => (d.regLoad c lv a n).map (fun r => (r.1, leBytes n r.2, false))
/-- A piece of a MOVE written to its destination; marks are left as they are. -/
def Dev.moveWrite (d : Dev) (c : Nat) (lv : Level) (a : Nat) (b : Bytes) : Option Dev :=
  match d.access c lv a .store with
  | .error _ => none
  | .ok (.mem m) => some (d.putBytes m b)
  | .ok _ => d.regStore c lv a b.length (ofLe b)
/-- Length of the next piece: an aligned 32-bit word where both sides allow it, else a byte. -/
def pieceLen (src dst left : Nat) : Nat := if src % 4 = 0 ∧ dst % 4 = 0 ∧ 4 ≤ left then 4 else 1
/-- What a transfer has done: the device, the status where it stopped, the bytes done, and the destination pieces that carry a mark. -/
structure MoveRun where
  dev : Dev
  stop : Option Nat
  done : Nat
  carried : List (Nat × Nat)
/-- Copies upward between two internal ranges until the end, a fault (0x03), or a marked source word that is not carried (0x02). -/
def Dev.moveCopy (d : Dev) (c : Nat) (lv : Level) (src dst : Nat) (carry : Bool) (total : Nat) : Nat → MoveRun → MoveRun
  | 0, r => r
  | fuel + 1, r =>
    if r.stop.isSome ∨ total ≤ r.done then r
    else
      let n := pieceLen (src + r.done) (dst + r.done) (total - r.done)
      match r.dev.moveRead c lv (src + r.done) n with
      | none => d.moveCopy c lv src dst carry total fuel { r with stop := some 3 }
      | some (d1, b, hit) =>
        if hit && !carry then d.moveCopy c lv src dst carry total fuel { r with stop := some 2 }
        else match d1.moveWrite c lv (dst + r.done) b with
          | none => d.moveCopy c lv src dst carry total fuel { r with dev := d1, stop := some 3 }
          | some d2 => d.moveCopy c lv src dst carry total fuel
              { dev := d2, stop := none, done := r.done + n, carried := if hit then r.carried ++ [(dst + r.done, n)] else r.carried }
/-- Reads upward from an internal range for the host: the device, the bytes read, and where it stopped. -/
def Dev.moveOut (d : Dev) (c : Nat) (lv : Level) (src : Nat) (carry : Bool) (total : Nat) : Nat → Dev × Bytes × Option Nat → Dev × Bytes × Option Nat
  | 0, r => r
  | fuel + 1, (x, bs, stop) =>
    if stop.isSome ∨ total ≤ bs.length then (x, bs, stop)
    else
      let n := pieceLen (src + bs.length) 0 (total - bs.length)
      match x.moveRead c lv (src + bs.length) n with
      | none => (x, bs, some 3)
      | some (d1, b, hit) =>
        if hit && !carry then (d1, bs, some 2) else d.moveOut c lv src carry total fuel (d1, bs ++ b, none)
/-- Writes host bytes upward into an internal range: the device and how many were written. -/
def Dev.moveIn (d : Dev) (c : Nat) (lv : Level) (dst : Nat) : Bytes → Dev × Nat → Dev × Nat
  | [], r => r
  | b :: bs, (x, k) => match x.moveWrite c lv (dst + k) [b] with
    | none => (x, k)
    | some d1 => d.moveIn c lv dst bs (d1, k + 1)
/-- Direct address of the memory byte that an address reaches for a store. -/
def Dev.memAt (d : Dev) (c : Nat) (lv : Level) (a : Nat) : Option Nat :=
  match d.access c lv a .store with
  | .ok (.mem m) => some m
  | _ => none
/-- The marks of the words that a write of `n` bytes fills completely end (R329). -/
def Dev.endMarks (d : Dev) (c : Nat) (lv : Level) (a n : Nat) : Dev :=
  let w := roundUp a 8
  (List.range ((a + n - w) / 8)).foldl (fun (x : Dev) i => match x.memAt c lv (w + 8 * i) with
    | some m => x.clearMarks m 8
    | none => x) d
/-- The destination words of marked source words carry the mark (R327). -/
def Dev.carryMarks (d : Dev) (c : Nat) (lv : Level) (l : List (Nat × Nat)) : Dev :=
  l.foldl (fun (x : Dev) e => match x.memAt c lv e.1 with
    | some m => x.mark m
    | none => x) d
/-- Status of a transfer and the device after it (Table 3-8); `he` and `data` are the host side's end and the bytes it delivered. -/
def Dev.moveRunOf (d : Dev) (c : Nat) (m : MoveOp) (he : HostEnd) (data : Bytes) : Dev × Nat :=
  let x := m.desc
  let failed := if he = .refused then 4 else if he = .timeout then 5 else 0
  if x.srcHost then
    let b := if he = .ok then padTo x.len data else data.take x.len
    let r := d.moveIn c m.level x.dst b (d, 0)
    (r.1.endMarks c m.level x.dst r.2, if r.2 < b.length then 3 else failed)
  else if x.dstHost then
    let r := d.moveOut c m.level x.src x.carry x.len x.len (d, [], none)
    (r.1.emit (.hostWrite x.function x.dst r.2.1), (r.2.2).getD 0)
  else
    let r := d.moveCopy c m.level x.src x.dst x.carry x.len x.len { dev := d, stop := none, done := 0, carried := [] }
    let d1 := (r.dev.endMarks c m.level x.dst r.done).carryMarks c m.level r.carried
    (d1, match r.stop with
      | some st => st
      | none => if r.carried = [] then 0 else 1)
/-- A MOVE ends: its record is posted, and a core that waits in FENCE may go on. -/
def Dev.moveEnd (d : Dev) (c i status : Nat) : Dev :=
  match (d.core c).moves[i]? with
  | none => d
  | some m =>
    (d.modCore c (fun k => { k with moves := dropAt i k.moves, moveDone := k.moveDone ++ [{ tag := m.desc.tag, status := status }] })).fenceDone c
where
  /-- A list without its i-th element. -/
  dropAt (i : Nat) (l : List MoveOp) : List MoveOp := l.take i ++ l.drop (i + 1)
/-- The function of a MOVE cannot be reached: its link is down or it is disabled. -/
def Dev.functionDown (d : Dev) (k : Nat) : Bool := (d.links.get LinkSt.init (d.linkOf k)).width == 0 || !(d.ctrl k).online
/-- Each failed host read, retries included, posts a record; time-outs count at the link (R156, R158). -/
def Dev.hostFailures (d : Dev) (k : Nat) (he : HostEnd) : Dev :=
  if he = .ok then d
  else (List.range (d.cfgv 6 3 + 1)).foldl (fun (x : Dev) _ =>
    let y := x.post (0x010 + k / 64) k (if he = .timeout then 5 else 4) 0x07 2
    if he = .timeout then y.linkTimeout k else y) d
/-- MOVE_COMPLETE: transfer i of a core, oldest first, ends. -/
def Dev.moveComplete (d : Dev) (c i : Nat) (he : HostEnd) (data : Bytes) : Dev :=
  match (d.core c).moves[i]? with
  | none => d
  | some m =>
    let k := m.desc.function
    let host := m.desc.srcHost || m.desc.dstHost
    if host && d.functionDown k then d.moveEnd c i 6
    else if host && d.moversHalted k then d
    else
      let d1 := if m.desc.srcHost then d.hostFailures k he else d
      let r := d1.moveRunOf c m (if m.desc.srcHost then he else .ok) data
      r.1.moveEnd c i r.2
/-- MOVE_COMPLETE. -/
def execMoveComplete (c : CoreId) (i : Fin 16) (he : HostEnd) (data : Bytes) (s : State) : Out :=
  s.apply fun d => d.moveComplete c.val i.val he data
/-- The MOVEs of a function complete with status 0x06 (R157). -/
def Dev.moveAbandon (d : Dev) (k : Nat) : Dev :=
  (List.range 41).foldl (fun (d : Dev) c =>
    let gone := fun (m : MoveOp) => (m.desc.srcHost || m.desc.dstHost) && m.desc.function == k
    let ms := (d.core c).moves
    if ms.any gone then
      (d.modCore c (fun x => { x with moves := ms.filter (fun m => !gone m),
                                      moveDone := x.moveDone ++ (ms.filter gone).map (fun m => { tag := m.desc.tag, status := 6 }) })).fenceDone c
    else d) d

/-! ### Parity instructions (R95, R96) -/

/-- Issue status of a parity instruction. -/
def Dev.parIssue (d : Dev) (c : Nat) (op : ParOp) (x : ParDesc) : Dev × Nat :=
  let k := d.core c
  if x.invalid op (d.iuKib * 1024) then (d, 2)
  else if 8 ≤ k.pars.length + k.parDone.length then (d, 1)
  else (d.setCore c { k with pars := k.pars ++ [{ op := op, desc := x }] }, 0)
/-- A parity instruction. -/
def Dev.runPar (d : Dev) (c : Nat) (f : Fields) (code : Nat) (op : ParOp) : Dev :=
  d.runInstr c f ((opR1 code).only [.shepherd, .drover] [.v])
    (match d.descriptor c (d.core c).level (d.x c f).toNat with
     | .error t => .error t
     | .ok b =>
       let r := d.parIssue c op (ParDesc.ofBytes b)
       r.1.writes c f (BitVec.ofNat 64 r.2))
/-- PACC. -/
def execPacc (c : CoreId) (f : Fields) (s : State) : Out := s.apply fun d => d.runPar c.val f 0x80 .pacc
/-- PREC. -/
def execPrec (c : CoreId) (f : Fields) (s : State) : Out := s.apply fun d => d.runPar c.val f 0x81 .prec
/-- PVER. -/
def execPver (c : CoreId) (f : Fields) (s : State) : Out := s.apply fun d => d.runPar c.val f 0x82 .pver
/-- PZERO. -/
def execPzero (c : CoreId) (f : Fields) (s : State) : Out := s.apply fun d => d.runPar c.val f 0x83 .pzero
/-- PCOL. -/
def execPcol (c : CoreId) (f : Fields) (s : State) : Out :=
  s.apply fun d =>
    let l := (d.core c.val).parDone
    let d1 := d.modCore c.val (fun k => { k with parDone := l.drop 1 })
    d.runInstr c.val f ({ opR1 0x84 with rs1 := false }.only [.shepherd, .drover] [.v])
      (d1.writes c.val f ((l.head?.map TagStatus.word).getD 0))

/-- Offsets k below n at which the word of a source byte is marked. -/
def Dev.markedOffsets (d : Dev) (src n : Nat) : List Nat :=
  if d.markedRun src n then (List.range n).filter (fun k => d.marked (src + k)) else []
/-- Marks the words of a destination at the given offsets. -/
def Dev.markAt (d : Dev) (dst : Nat) (ks : List Nat) : Dev := ks.foldl (fun (x : Dev) k => x.mark (dst + k)) d
/-- Accumulates a source, times a coefficient, into a buffer. -/
def Dev.accumulate (d : Dev) (dst : Nat) (coef : Nat) (b : Bytes) : Dev :=
  d.putBytes dst (xorBytes (d.bytes dst b.length) (scaleBytes coef b))
/-- PACC: status and the device after it. The accumulated words are sources too, so their marks stay. -/
def Dev.paccRun (d : Dev) (x : ParDesc) : Dev × Nat :=
  let p := bitOf x.mode 0
  let q := bitOf x.mode 1
  if !(inStaging x.src x.len || inChannelBuffer x.src x.len) ∨ (p && !inStaging x.dst x.len) ∨ (q && !inStaging x.loc x.len) then (d, 4)
  else
    let b := d.bytes x.src x.len
    let ks := d.markedOffsets x.src x.len
    let old := (p && d.markedRun x.dst x.len) || (q && d.markedRun x.loc x.len)
    let d1 := if p then (d.accumulate x.dst 1 b).markAt x.dst ks else d
    let d2 := if q then (d1.accumulate x.loc (gpow x.member) b).markAt x.loc ks else d1
    (d2, if (ks != [] && (p || q)) || old then 3 else 0)
/-- PZERO. -/
def Dev.pzeroRun (d : Dev) (x : ParDesc) : Dev × Nat :=
  if !inStaging x.dst x.len then (d, 4) else ((d.putBytes x.dst (zeros x.len)).clearMarks x.dst x.len, 0)
/-- The drove, member, row and first codeword position that LOC names. -/
def Dev.locOf (d : Dev) (x : ParDesc) : Option (Drove × Nat × Nat × Nat) :=
  let cw := x.locIu * d.iuParts
  let plane := x.locBlock % 4 + cw / 4
  if 4 ≤ plane then none
  else (d.ownerOf x.locDie (x.locBlock / 4)).map (fun o => (o.1, o.2, x.locPage / 3, x.locPage % 3 * 16 + plane * 4 + cw % 4))
/-- A level that PREC's MODE permits. -/
def ParDesc.permits (x : ParDesc) (l : PLevel) : Bool :=
  match l with
  | .p => bitOf x.mode 0
  | .q => bitOf x.mode 1
  | .lamb => false
/-- PREC: `bad` lists the codewords that do not decode. -/
def Dev.precRun (d : Dev) (x : ParDesc) (bad : List Nat) : Dev × Nat :=
  if !inStaging x.dst x.len then (d, 4)
  else match d.locOf x with
    | none => (d, 4)
    | some (v, i, r, k) =>
      if 30 ≤ i then (d, 4)
      else
        let cs := (List.range d.iuParts).map (fun j => d.rebuildBy x.permits bad v r i (k + j))
        if cs.any Option.isNone then (d, 2)
        else
          let d1 := (d.putBytes x.dst (cs.flatMap (fun c => ((c.map (fun e => e.1)).getD [])))).clearMarks x.dst x.len
          let hit := (List.range d.iuParts).filter (fun j =>
            (cs.getD j none).any (fun e => bitOf (spTag e.2) 6)
            || d.drove.units.any (fun u => u.serial == v.serial && u.row == r && u.member != i && (u.cws.get? (k + j)).any (fun e => e.marked)))
          (hit.foldl (fun (y : Dev) j => y.markAt (x.dst + 4096 * j) ((List.range 512).map (· * 8))) d1, if hit = [] then 0 else 3)
/-- The parity of position k of a row recomputed at a level; none where a member cannot be read. -/
def Dev.recompute (d : Dev) (bad : List Nat) (v : Drove) (r k : Nat) (l : PLevel) : Option Bytes :=
  v.dataIdx.foldl (fun (acc : Option Bytes) i => match acc, d.memberWord bad v r i k with
    | some a, some w => some (xorBytes a (scaleBytes (coefOf v.k l i) w))
    | _, _ => none) (some (zeros 4128))
/-- PVER: every selected parity word of the row equals the parity recomputed from its members. -/
def Dev.pverRun (d : Dev) (x : ParDesc) (bad : List Nat) : Dev × Nat :=
  match d.locOf x with
  | none => (d, 4)
  | some (v, _, r, _) =>
    let ls := ([PLevel.p, PLevel.q].filter x.permits).filter (fun l => l == .p || v.k == 2)
    let ok := (List.range 48).all (fun k => ls.all (fun l =>
      match (d.levelWords bad v r k).find? (fun e => e.1 == l), d.recompute bad v r k l with
      | some e, some w => e.2 == w
      | _, _ => false))
    (d, if ok then 0 else 1)
/-- PARITY_OPERATION_COMPLETE: operation i of a core, oldest first, ends. -/
def Dev.parComplete (d : Dev) (c i : Nat) (bad : List Nat) : Dev :=
  match (d.core c).pars[i]? with
  | none => d
  | some q =>
    let r := match q.op with
      | .pacc => d.paccRun q.desc
      | .prec => d.precRun q.desc bad
      | .pver => d.pverRun q.desc bad
      | .pzero => d.pzeroRun q.desc
    (r.1.modCore c (fun k => { k with pars := k.pars.take i ++ k.pars.drop (i + 1),
                                      parDone := k.parDone ++ [{ tag := q.desc.tag, status := r.2 }] })).fenceDone c
/-- PARITY_OPERATION_COMPLETE, with the codewords that do not decode. -/
def execParityOperationComplete (c : CoreId) (i : Fin 8) (bad : List (BitVec 38)) (s : State) : Out :=
  s.apply fun d => d.parComplete c.val i.val (bad.map BitVec.toNat)

/-! ### MEAS (R102 to R104) -/

/-- The first trap of an engine's accesses to a range, byte by byte; a register window is not memory to it. -/
def Dev.rangeTrap (d : Dev) (c : Nat) (lv : Level) (a n : Nat) (acc : Acc) : Option Trap :=
  (List.range n).findSome? (fun i =>
    if 2 ^ 48 ≤ a + i then some (accessFault 1 (a + i))
    else match d.access c lv (a + i) acc with
      | .error e => some (accessFault e (a + i))
      | .ok (.mem m) => if acc = .load ∧ d.marked m then some (raddle 1 (a + i)) else none
      | .ok .view => none
      | .ok _ => some (accessFault 1 (a + i)))
/-- The bytes of a range of memory and views. -/
def Dev.rangeBytes (d : Dev) (c : Nat) (lv : Level) (a n : Nat) : Bytes :=
  (List.range n).map (fun i => match d.access c lv (a + i) .load with
    | .ok (.mem m) => d.byte m
    | .ok .view => d.viewByte (a + i)
    | _ => 0)
/-- MEAS at V: posts a request; its ticket, or 0 when the ring is full or the descriptor is invalid. -/
def Dev.measPost (d : Dev) (c : Nat) (x : MeasDesc) : Dev × Nat :=
  if x.invalid true ∨ Config.measRing ≤ d.fold.meas.length then (d, 0)
  else
    let t := d.fold.measTicket % 65535 + 1
    ({ d with fold := { d.fold with measTicket := t, meas := d.fold.meas ++ [{ core := c, ticket := t, desc := x }] } }, t)
/-- MEAS at F: the digest of SRC at RESULT. With an invalid descriptor rd is a free value (R87 names no value for it). -/
def Dev.measDirect (d : Dev) (c : Nat) (x : MeasDesc) : Except Trap (Dev × Word) :=
  if x.invalid false then .ok (d.tickFree, BitVec.ofNat 64 (Config.freeNat d.free))
  else if (d.dig.firstIdx DigSlot.init (fun e => e.st == .free) 64).isNone then .ok (d, 1)
  else match d.rangeTrap c .f x.src x.len .load with
    | some t => .error t
    | none => match d.rangeTrap c .f x.result 48 .store with
      | some t => .error t
      | none =>
        let r := d.moveIn c .f x.result (sha384 (d.rangeBytes c .f x.src x.len)) (d, 0)
        .ok (r.1.endMarks c .f x.result 48, 0)
/-- MEAS. -/
def execMeas (c : CoreId) (f : Fields) (s : State) : Out :=
  s.apply fun d => d.runInstr c.val f ((opR1 0xA0).only allKinds [.f, .v])
    (match d.descriptor c.val (d.core c.val).level (d.x c.val f).toNat with
     | .error t => .error t
     | .ok b =>
       let x := MeasDesc.ofBytes b
       if (d.core c.val).level = .f then
         match d.measDirect c.val x with
         | .error t => .error t
         | .ok (d1, v) => d1.writes c.val f v
       else
         let r := d.measPost c.val x
         r.1.writes c.val f (BitVec.ofNat 64 r.2))
/-- MEAS_ANSWER: the Fold answers the oldest request; it waits while the Fold is in reset or the core's queue is full. -/
def Dev.measAnswer (d : Dev) (fails : TallyFails) : Dev :=
  match d.fold.meas with
  | [] => d
  | q :: t =>
    if d.fold.inReset ∨ d.fold.halted ∨ 16 ≤ (d.core q.core).msgs.length then d
    else
      let x := q.desc
      let d0 : Dev := { d with fold := { d.fold with meas := t } }
      let r : Dev × Nat :=
        if (d0.rangeTrap q.core .v x.src x.len .load).isSome then (d0, 1)
        else
          let e := { Entry.blank 3 with detail := x.kind, cid := x.componentId, secver := x.secver, inst := coreIdOf q.core,
                                        digest := sha384 (d0.rangeBytes q.core .v x.src x.len) }
          let a := d0.appendEntry e fails
          (a.1, if a.2 then 0 else 2)
      r.1.modCore q.core (fun k => { k with msgs := k.msgs ++ [{ sender := 0, payload := BitVec.ofNat 32 (q.ticket + r.2 * 65536 + 0x1000000) }] })
/-- MEAS_ANSWER, with the Tally slots that fail. -/
def execMeasAnswer (fails : TallyFails) (s : State) : Out := s.apply fun d => d.measAnswer fails

end Sys2Proof.Machine
end

