-- ==== Sys2Proof/Machine/Module.lean ====
section
/-! DEFINITION. Run Module: the admin command, the start of an O module on a Shepherd core, its service calls and its run limit
(R56, R58, R59, R119 to R123). -/

namespace Sys2Proof.Machine

/-- Reserved or out-of-range fields of Run Module (Table 4-6). -/
def runModuleBad (dw : Nat → Nat) : Bool :=
  decide (dw 10 < 64) || decide (1048576 < dw 10) || decide (516096 < dw 11) || dw 13 != 0 || dw 14 != 0 || dw 15 != 0
/-- Key-ID pairs of a module's signature sets, as KIDS of an entry. -/
def kidsOf (b : Bytes) : Bytes := ((signatureSets b (ModHeader.ofBytes b)).getD []).flatMap (fun s => s.ecdsaKid ++ s.lmsKid)
/-- The runtime entry of a module's load or refusal. -/
def moduleEntry (etype detail k inst : Nat) (b : Bytes) : Entry :=
  let h := ModHeader.ofBytes b
  { Entry.blank etype with detail := detail, cntlid := k + 1, cid := h.componentId, secver := h.secver, inst := inst, digest := measureOf b,
                           kids := kidsOf b }
/-- RUN_MODULE: the data arrives, the module is checked, and an accepted one waits for a Shepherd core. -/
def Dev.runModule (d : Dev) (p : Nat) (data : Bytes) (fails : TallyFails) : Dev :=
  match d.pen p with
  | none => d
  | some x =>
    if !d.adminReady p 0xC1 ∨ d.moversHalted x.ctrl then d
    else if runModuleBad x.dw then d.complete p scInvalidField 0
    else
      let b := padTo (x.dw 10) data
      let code := d.checkModule b (x.dw 10) (x.dw 11) true
      if code ≠ 0 then
        let d1 := if 0x0A ≤ code then d.recordRefusal (moduleEntry 2 code x.ctrl 0 b) fails else d
        d1.complete p scOk (2 ^ 32 * (code + 2 * 256))
      else
        let d1 := d.setPen p { x with stage := .external, data := padTo (x.dw 10 + x.dw 11) data }
        { d1 with nvme := { d1.nvme with modQueue := d1.nvme.modQueue ++ [p], seenModules := addOnce b d1.nvme.seenModules } }
/-- RUN_MODULE: a pen, the bytes of its buffer, and the Tally slots that fail should a refusal be recorded. -/
def execRunModule (p : Pen) (data : Bytes) (fails : TallyFails) (s : State) : Out := s.apply fun d => d.runModule p.val data fails

/-- The run limit of a command, in µs. -/
def runLimit (v : Nat) : Nat := if v = 0 then 1000000 else Nat.min v 60000000
/-- The core can take a module: a Shepherd core that executes V code outside a trap handler and runs none. -/
def Dev.coreFree (d : Dev) (c : Nat) : Bool :=
  let k := d.core c
  decide (1 ≤ c) && decide (c ≤ 8) && k.level == .v && k.run == .running && k.modRun.isNone && !k.inTrap && d.padOn (corePad c)
/-- Entry state of an O module (R58). -/
def Core.enterModule (k : Core) (b : Bytes) (argLen : Nat) (m : ModRun) : Core :=
  let h := ModHeader.ofBytes b
  let top := BitVec.ofNat 64 (loadBase 3 + stackEnd h)
  let k1 : Core := { k with regs := Vector.replicate 32 0, level := .o, pc := BitVec.ofNat 64 (loadBase 3 + h.entry), run := .running,
                            timercmp := BitVec.allOnes 64, modinst := BitVec.ofNat 64 m.inst, modRun := some m,
                            estat := BitVec.ofNat 64 (2 + 20 * bit k.ie) }
  ((((k1.setReg 1 top).setReg 2 (BitVec.ofNat 64 argLen)).setReg 3 (BitVec.ofNat 64 m.inst)).setReg 30 top).setReg 31 Config.exitStub
/-- MODULE_START: instance number, load entry, anti-rollback counter, then the module runs (R120). When the load entry or the counter's entry
cannot be appended the module does not run. -/
def Dev.moduleStart (d : Dev) (c : Nat) (failsLoad failsCounter : TallyFails) : Dev :=
  match d.nvme.modQueue with
  | [] => d
  | p :: rest =>
    match d.pen p with
    | none => { d with nvme := { d.nvme with modQueue := rest } }
    | some x =>
      if !d.coreFree c then d
      else
        let b := x.data.take (x.dw 10)
        let args := x.data.drop (x.dw 10)
        let h := ModHeader.ofBytes b
        let inst := d.nvme.lastInstance + 1
        let d0 : Dev := { d with nvme := { d.nvme with modQueue := rest } }
        let r := d0.appendEntry (moduleEntry 1 0 x.ctrl inst b) failsLoad
        if !r.2 then r.1.complete p scOk (2 ^ 32 * (2 * 256))
        else
          let d1 : Dev := { r.1 with nvme := { r.1.nvme with lastInstance := inst } }
          let q := d1.raiseCounter h.componentId h.secver (x.ctrl + 1) failsCounter
          if !q.2 then q.1.complete p scOk (2 ^ 32 * (2 * 256))
          else
            let m : ModRun := { ctrl := x.ctrl, pen := p, inst := inst, limitUs := runLimit (x.dw 12), usedNs := 0, componentId := h.componentId,
                                manifest := manifestOf b (sectionsOf b h.nsect), result := [] }
            (q.1.loadModule c 0x80000 b args).modCore c (fun k => k.enterModule b args.length m)
/-- MODULE_START of the oldest waiting module on a core, with the Tally slots that fail for its load entry and its counter's entry. -/
def execModuleStart (c : CoreId) (failsLoad failsCounter : TallyFails) (s : State) : Out :=
  s.apply fun d => d.moduleStart c.val failsLoad failsCounter

/-! ### Service calls (Table 2-9) -/

/-- SERVICE_EXIT: the module ends with its status from g1, and Run Module completes. -/
def execServiceExit (c : CoreId) (s : State) : Out :=
  s.apply fun d => if d.serviceIn c.val = some 0 then d.endModule c.val 0 0 ((d.core c.val).reg 1) else d
/-- SERVICE_APPEND_RESULT: 0 appended, 1 the buffer is full, 2 a byte is not readable at O. -/
def Dev.serviceAppend (d : Dev) (c : Nat) : Dev :=
  match (d.core c).modRun with
  | none => d
  | some m =>
    let a := ((d.core c).reg 1).toNat
    let n := ((d.core c).reg 2).toNat
    if n = 0 then d.serviceReturn c 0
    else if 65536 < m.result.length + n then d.serviceReturn c 1
    else if (d.rangeTrap c .o a n .load).isSome then d.serviceReturn c 2
    else (d.modCore c (fun k => { k with modRun := some { m with result := m.result ++ d.rangeBytes c .o a n } })).serviceReturn c 0
/-- SERVICE_APPEND_RESULT. -/
def execServiceAppendResult (c : CoreId) (s : State) : Out :=
  s.apply fun d => if d.serviceIn c.val = some 1 then d.serviceAppend c.val else d
/-- Nanoseconds of run limit that a core's module has left. -/
def Core.limitLeft (k : Core) : Nat :=
  match k.modRun with
  | some m => m.limitUs * 1000 - m.usedNs
  | none => 0
/-- SERVICE_RUN_LIMIT_QUERY: the remaining run limit in whole microseconds. -/
def execServiceRunLimitQuery (c : CoreId) (s : State) : Out :=
  s.apply fun d =>
    if d.serviceIn c.val = some 2 then d.serviceReturn c.val (BitVec.ofNat 64 ((d.core c.val).limitLeft / 1000)) else d
/-- SERVICE_YIELD: V policy work has the core for `us` microseconds, at most g1; they count toward the run limit (R121). -/
def execServiceYield (c : CoreId) (us : W32) (s : State) : Out :=
  s.apply fun d =>
    if d.serviceIn c.val = some 3 ∧ us.toNat ≤ ((d.core c.val).reg 1).toNat then
      (d.advanceTo (d.now + us.toNat * 1000)).serviceReturn c.val (BitVec.ofNat 64 us.toNat)
    else d

/-- A module executes at O, or waits there in WAITEV or YIELD; in TXC the run-limit trap is held (R100, R121). -/
def Core.limitTakes (k : Core) : Bool := k.level == .o && k.modRun.isSome && k.interruptible
/-- RUN_LIMIT_EXPIRY: time passes to the module's run limit, and the run-limit trap ends it. -/
def execRunLimitExpiry (c : CoreId) (s : State) : Out :=
  s.apply fun d =>
    let k := d.core c.val
    if !k.limitTakes ∨ (d.clk.hold ∧ k.limitLeft ≠ 0) then d
    else
      let d1 := d.advanceTo (d.now + k.limitLeft)
      d1.trap c.val (d1.core c.val).limitTrap (d1.core c.val).pc

end Sys2Proof.Machine
end

