-- ==== Sys2Proof/Machine/Ctrl.lean ====
section
/-! DEFINITION. Controllers and links: enable, resets of a controller and of a link, shutdown, Bus Master Enable, D3hot, training, and the
modules of the die links (R16 to R18, R123, R126, R127, R130, R133, R141, R146, R157, R519). -/

namespace Sys2Proof.Machine

/-! ### Ending a controller's commands (R146, Table 6-3) -/

/-- Device work that a pen's command began still goes on: die reads or reconstructions, a release of keys, a commit, a module. -/
def Dev.penBusy (d : Dev) (p : Nat) (x : PenSt) : Bool :=
  (x.stage == .media && (x.ius.any (fun j => j.ticket.isSome) || d.reconWaits p))
    || x.stage == .orphan
    || (d.nvme.keyWaits.get? p).isSome
    || d.cfg.due.any (fun e => e.2.2 == 0x20000 + p)
    || shepherds.any (fun c => (d.core c).modRun.any (fun m => m.pen == p))
/-- An IU with no die read outstanding gives its read epoch back. -/
def IuJob.idle (j : IuJob) : Bool := j.ticket.isNone
/-- A command ends without a completion: at once, or with the work it began. -/
def Dev.dropPen (d : Dev) (p : Nat) : Dev :=
  match d.pen p with
  | none => d
  | some x =>
    let d0 := d.settlePosted p false
    if d.penBusy p x then d0.setPen p { x with stage := .orphan, due := none }
    else (d0.dropEpochs x).releasePen p
/-- Every command of a controller ends without a completion; a module that waits is not run, one that runs ends (R123). -/
def Dev.dropCommands (d : Dev) (k : Nat) : Dev :=
  let ps := (d.nvme.pens.filter (fun e => e.2.ctrl == k)).map (fun e => e.1)
  let d0 : Dev := { d with nvme := { d.nvme with modQueue := d.nvme.modQueue.filter (fun p => !ps.contains p) },
                           pwr := { d.pwr with pens := d.pwr.pens.filter (fun p => !ps.contains p) } }
  let d1 := ps.foldl (fun (d : Dev) p => d.dropPen p) d0
  shepherds.foldl (fun (d : Dev) c => if (d.core c).modRun.any (fun m => m.ctrl == k) then d.endModule c 2 0 0 else d) d1
/-- The queue grant of a controller returns to the pool (R141). -/
def Dev.creditPool (d : Dev) (k : Nat) : Dev :=
  match (d.ctrl k).granted with
  | none => d
  | some g => { d with nvme := { d.nvme with poolSq := d.nvme.poolSq + g.1, poolCq := d.nvme.poolCq + g.2 } }
/-- What a controller keeps over its own reset: its PCIe function's state, its error log, and the results it holds. -/
def CtrlSt.afterReset (c : CtrlSt) : CtrlSt :=
  { CtrlSt.init with bme := c.bme, d3hot := c.d3hot, online := c.online, errLog := c.errLog, results := c.results, resvNotes := c.resvNotes }
/-- The TCG session of a controller ends with it. -/
def Dev.endSession (d : Dev) (k : Nat) : Dev :=
  let s := match d.tcg.session with
    | some (j, r) => if j = k then none else some (j, r)
    | none => none
  { d with tcg := { d.tcg with session := s, replies := d.tcg.replies.erase k }, spdm := { d.spdm with replies := d.spdm.replies.erase k } }
/-- Controller reset or disable (R519): queues, pens, hurdles, the O module, the Crook, the queue grant; MOVEs of the function complete with
status 0x06. `why` is the cause told of the Crook. -/
def Dev.resetCtrl (d : Dev) (k why : Nat) : Dev :=
  let d1 := ((((d.dropCommands k).moveAbandon k).crookOf k why).creditPool k).endSession k
  (d1.setCtrl k (d1.ctrl k).afterReset).retarget
/-- A reset of the function: its PCIe state too. -/
def Dev.resetFunction (d : Dev) (k why : Nat) : Dev :=
  (d.resetCtrl k why).modCtrl k (fun c => { c with bme := false, d3hot := false })

/-! ### Rows of a controller -/

/-- The function answers accesses: its link is up, it is in D0, and a device boot has begun. -/
def Dev.functionUp (d : Dev) (k : Nat) : Bool :=
  (d.link (d.linkOf k)).width != 0 && !(d.ctrl k).d3hot && !d.pwr.standby && d.pwr.pf == .idle
/-- The admin queues that AQA, ASQ and ACQ describe. -/
def adminSq (aqa asq : Nat) : SqSt := { size := bitsOf aqa 11 0 + 1, cq := 0, prio := 0, head := 0, tail := 0, base := asq, deleting := none }
/-- The admin completion queue; it uses vector 0. -/
def adminCq (aqa acq : Nat) : CqSt :=
  { size := bitsOf aqa 27 16 + 1, iv := 0, ien := true, head := 0, tail := 0, phase := true, base := acq, heldIrq := 0, heldUntil := 0 }
/-- CONTROLLER_ENABLE: CC.EN is set; RDY follows with CONTROLLER_READY (R133). -/
def Dev.enableCtrl (d : Dev) (k cc aqa asq acq : Nat) : Dev :=
  let c := d.ctrl k
  if c.en ∨ !c.online ∨ !d.functionUp k ∨ !bitOf cc 0 then d
  else (d.setCtrl k { c with en := true, cc := cc, aqa := aqa, asq := asq, acq := acq, shst := 0, lastIo := d.now,
                             sqs := [(0, adminSq aqa asq)], cqs := [(0, adminCq aqa acq)] }).retarget
/-- CONTROLLER_ENABLE: the values of CC, AQA, ASQ and ACQ as EN is set. -/
def execControllerEnable (k : Ctrl) (cc aqa : W32) (asq acq : Word) (s : State) : Out :=
  s.apply fun d => d.enableCtrl k.val cc.toNat aqa.toNat asq.toNat acq.toNat
/-- CONTROLLER_RESET: CC.EN goes from 1 to 0. -/
def execControllerReset (k : Ctrl) (s : State) : Out :=
  s.apply fun d => if (d.ctrl k.val).en && d.functionUp k.val then d.resetCtrl k.val 2 else d
/-- SHUTDOWN_NOTIFICATION: CC.SHN is set; SHST reads 0b10 as soon as the controller's pens are released, and 0b01 until then. Outstanding
Asynchronous Event Requests hold no work and do not delay it. -/
def Dev.shutdown (d : Dev) (k shn : Nat) : Dev :=
  let c := d.ctrl k
  if !c.en ∨ !d.functionUp k ∨ shn = 0 then d
  else
    let work := d.nvme.pens.any (fun e => e.2.ctrl == k && !c.aers.contains e.1)
    d.setCtrl k { c with cc := setBits c.cc 15 14 shn, shst := if work then 1 else 2 }
/-- SHUTDOWN_NOTIFICATION: the value of CC.SHN. -/
def execShutdownNotification (k : Ctrl) (shn : BitVec 2) (s : State) : Out := s.apply fun d => d.shutdown k.val shn.toNat
/-- FUNCTION_LEVEL_RESET. -/
def execFunctionLevelReset (k : Ctrl) (s : State) : Out :=
  s.apply fun d => if (d.link (d.linkOf k.val)).width ≠ 0 ∧ !d.pwr.standby then d.resetFunction k.val 2 else d
/-- The movers of a function run again: reads that have their data complete, and completions that waited post. -/
def Dev.resumeMovers (d : Dev) (k : Nat) : Dev :=
  if d.moversHalted k then d
  else
    let ps := (d.nvme.pens.filter (fun e => e.2.ctrl == k && e.2.stage == .media)).map (fun e => e.1)
    (ps.foldl (fun (d : Dev) p => d.finishRead p) d).flushDue k
/-- BUS_MASTER_ENABLE_CHANGE: clearing it halts the function's movers at the next request boundary, setting it resumes them. -/
def execBusMasterEnableChange (k : Ctrl) (on : Bool) (s : State) : Out :=
  s.apply fun d =>
    if (d.link (d.linkOf k.val)).width = 0 then d else (d.modCtrl k.val (fun c => { c with bme := on })).resumeMovers k.val
/-- D3HOT_ENTRY: the function's movers halt, and it takes no part in the device power state. -/
def execD3hotEntry (k : Ctrl) (s : State) : Out :=
  s.apply fun d => if d.functionUp k.val then (d.modCtrl k.val (fun c => { c with d3hot := true })).retarget else d
/-- D3HOT_EXIT: the function is in D0 again. -/
def execD3hotExit (k : Ctrl) (s : State) : Out :=
  s.apply fun d =>
    if (d.ctrl k.val).d3hot && (d.link (d.linkOf k.val)).width != 0 then
      ((d.modCtrl k.val (fun c => { c with d3hot := false })).resumeMovers k.val).retarget
    else d
/-- MALFORMED_TLP: no NVMe state changes; a request outside BAR0 is answered with Unsupported Request (R130). -/
def execMalformedTlp (k : Ctrl) (outside : Bool) (s : State) : Out :=
  s.apply fun d => if outside && (d.link (d.linkOf k.val)).width != 0 then d.emit (.pcieUnsupported k.val) else d

/-! ### Rows of a link -/

/-- The functions of a link (R128). -/
def Dev.linkFunctions (d : Dev) (l : Nat) : List Nat := (List.range 128).filter (fun k => d.linkOf k == l)
/-- The link index names a link: half B only while its port is bifurcated. -/
def Dev.isLink (d : Dev) (l : Nat) : Bool := l % 2 == 0 || bitOf d.pins.bifur (l / 2)
/-- PERST_N of a link: asserted, it resets the link's functions and PCIe state, with the Crook if it is held there; in Standby it reaches
paddock 0 alone. -/
def Dev.perstChange (d : Dev) (l : Nat) (asserted : Bool) : Dev :=
  if !d.isLink l then d
  else if !asserted ∨ d.pwr.standby then d.setLink l { d.link l with perst := asserted }
  else
    let d1 := (d.linkFunctions l).foldl (fun (d : Dev) k => d.resetFunction k 3) d
    d1.setLink l { LinkSt.init with perst := true }
/-- PERST_N: asserted (low) or deasserted. -/
def execPerstN (l : Fin 4) (asserted : Bool) (s : State) : Out := s.apply fun d => d.perstChange l.val asserted
/-- LINK_DOWN: the transfers of the link's functions are abandoned and their commands end under R146 (R157). -/
def Dev.linkGoesDown (d : Dev) (l : Nat) : Dev :=
  if (d.link l).width = 0 then d
  else
    let d1 := (d.linkFunctions l).foldl (fun (d : Dev) k => (d.dropCommands k).moveAbandon k) d
    d1.setLink l { d1.link l with rate := 0, width := 0, flit := false, l12 := false }
/-- LINK_DOWN of a link. -/
def execLinkDown (l : Fin 4) (s : State) : Out := s.apply fun d => d.linkGoesDown l.val
/-- LINK_TRAINED: the link carries traffic at a rate (1 to 4) and width; below the strapped maximum DEGRADED is set (R127). A link that was
up has recovered; one that went down after more than 16 completion time-outs within 1 s waits for PERST_N (R158). -/
def Dev.linkTrains (d : Dev) (l rate width : Nat) : Dev :=
  let x := d.link l
  let most := if bitOf d.pins.bifur (l / 2) then 8 else 16
  let held := decide (x.width = 0 ∧ 16 < x.recentTo.length)
  if !d.isLink l ∨ x.perst ∨ held ∨ d.pwr.standby ∨ d.pwr.pf ≠ .idle ∨ !d.pins.pwrok ∨ rate = 0 ∨ 4 < rate ∨ ! [1, 2, 4, 8, 16].contains width ∨ most < width then d
  else
    d.setLink l { x with rate := rate, width := width, flit := decide (3 ≤ rate), l12 := false,
                         degraded := x.degraded || decide (rate < 4) || decide (width < most),
                         retrains := if x.width = 0 then x.retrains else sat 0xFF (x.retrains + 1) }
/-- LINK_TRAINED: link, rate code and lanes. -/
def execLinkTrained (l : Fin 4) (rate : BitVec 3) (width : BitVec 5) (s : State) : Out :=
  s.apply fun d => d.linkTrains l.val rate.toNat width.toNat

/-! ### Die links (R16 to R18) -/

/-- The link of a UCIe module: 0 host, 1 to 4 channel dies, 5 store. -/
def moduleLink (m : Nat) : Nat := if m < 3 then 0 else if m < 11 then 1 + (m - 3) / 2 else 5
/-- The modules of a link. -/
def linkModules (x : Nat) : List Nat := (List.range 12).filter (fun m => moduleLink m == x)
/-- A module. -/
def Dev.ucie (d : Dev) (m : Nat) : UcieMod := d.hub.mods.get { up := false, attempts := 0 } m
/-- Replaces a module. -/
def Dev.setUcie (d : Dev) (m : Nat) (x : UcieMod) : Dev := { d with hub := { d.hub with mods := d.hub.mods.set m x } }
/-- Sets the DEGRADED bit of a module's link; setting it posts a record to the hub fabric's source (R18). -/
def Dev.setDegraded (d : Dev) (m : Nat) : Dev :=
  let x := moduleLink m
  if bitOf d.hub.degraded x then d
  else ({ d with hub := { d.hub with degraded := d.hub.degraded + 2 ^ x } } : Dev).post 0x000 m (d.ucie m).attempts 0x06 2
/-- Every module of a link is down for good: the host or store die enters device fatal, a channel die's channels are due to be declared
failed (R17). -/
def Dev.linkAllDown (d : Dev) (x : Nat) : Dev :=
  if (linkModules x).any (fun m => (d.ucie m).up || decide ((d.ucie m).attempts < 3)) then d
  else if x = 0 ∨ x = 5 then d.enterFatal 5 0x000
  else { d with drove := { d.drove with declPending := (List.range 32).foldl (fun l i => addOnce ((x - 1) * 32 + i) l) d.drove.declPending } }
/-- UCIE_MODULE_TRAINING: a module that is down trains, or fails an attempt; after the third it stays down until the next power-on reset. -/
def Dev.ucieTrain (d : Dev) (m : Nat) (ok : Bool) : Dev :=
  let x := d.ucie m
  if x.up ∨ 3 ≤ x.attempts ∨ !d.clk.started ∨ d.pwr.standby then d
  else if ok then d.setUcie m { x with up := true }
  else
    let d1 := d.setUcie m { x with attempts := x.attempts + 1 }
    if x.attempts + 1 < 3 then d1 else (d1.setDegraded m).linkAllDown (moduleLink m)
/-- UCIE_MODULE_TRAINING: the module and whether it trains. -/
def execUcieModuleTraining (m : Fin 12) (ok : Bool) (s : State) : Out := s.apply fun d => d.ucieTrain m.val ok
/-- UCIE_MODULE_FAIL: a module leaves the up state; its link's DEGRADED bit is set and up to three retrainings follow. -/
def execUcieModuleFail (m : Fin 12) (s : State) : Out :=
  s.apply fun d => if (d.ucie m.val).up then (d.setUcie m.val { up := false, attempts := 0 }).setDegraded m.val else d

end Sys2Proof.Machine
end

