-- ==== Sys2Proof/Machine/Spdm.lean ====
section
/-! DEFINITION. The SPDM responder (R367, R368, R410). Message codes and the placing of their fields are those of DMTF DSP0274 (PRESUMED). -/

namespace Sys2Proof.Machine

/-- A requester's number: endpoints of the Walk ring, then of I3C, then controllers. -/
def Dev.peerOf (d : Dev) (v : Via) : Nat :=
  match v with
  | .walk e => e.toNat
  | .i3c e => 256 + e.toNat
  | .host p => 512 + d.penCtrl p.val

/-- An SPDM message: version 1.3, code, two parameters, payload. -/
def spdmMsg (code p1 p2 : Nat) (b : Bytes) : Bytes := leBytes 1 0x13 ++ leBytes 1 code ++ leBytes 1 p1 ++ leBytes 1 p2 ++ b
/-- An ERROR response. -/
def spdmError (code : Nat) : Bytes := spdmMsg 0x7F code 0 []
/-- ERROR codes. -/
def errInvalid : Nat := 0x01
def errUnexpected : Nat := 0x04
def errUnsupported : Nat := 0x07
def errLarge : Nat := 0x0F
def errResynch : Nat := 0x43

/-- The record a Tally slot holds when it verifies. -/
def TallySt.rec? (t : TallySt) (slot : Nat) : Option TallyRec :=
  match t.recs.get? slot with
  | some r => if r.good then some r else none
  | none => none

/-- The bytes of the record in a slot. -/
def TallySt.bytesOf (t : TallySt) (slot : Option Nat) : Bytes :=
  match slot.bind t.rec? with
  | some r => r.bytes
  | none => []

/-- A certificate slot's chain (Table 14-4): slot 0 the Eotin identity chain, slot 1 the owner endorsement while one is valid, each followed by the
Alias 1 and Alias 2 certificates. -/
def Dev.certChain (d : Dev) (slot : Nat) : Option Bytes :=
  let f := d.fold
  let a1 := f.alias1Cert
  let a2 := Config.aliasCert (Config.ecdsaPublic f.alias2) f.alias1 (f.tally.digestHead f.tally.bootSlot) 0
  if slot = 0 then some (f.idChain ++ a1 ++ a2)
  else if slot = 1 ∧ f.endorsement ≠ [] then some (f.endorsement ++ a1 ++ a2)
  else none

/-- A measurement block (Table 15-10). -/
def Dev.measBlock (d : Dev) (i : Nat) : Option Bytes :=
  let t := d.fold.tally
  let blk (ty : Nat) (b : Bytes) := some (leBytes 1 i ++ leBytes 1 1 ++ leBytes 2 (b.length + 3) ++ leBytes 1 ty ++ leBytes 2 b.length ++ b)
  match i with
  | 1 => blk 0x04 (t.digestHead (some t.head))
  | 2 => blk 0x84 (t.bytesOf (some t.head))
  | 3 => blk 0x04 (t.digestHead t.bootSlot)
  | 4 => blk 0x84 (t.bytesOf t.bootSlot)
  | _ => none

/-- The connection of a requester. -/
def SpdmSt.conn (x : SpdmSt) (peer : Nat) : SpdmConn :=
  match x.conns.find? (fun c => c.peer == peer) with
  | some c => c
  | none => { peer := peer, phase := 0, transcript := [], chunk := [], chunkAt := 0, chunkIn := false }

/-- A requester's connection becomes the most recently used; a seventeenth displaces the least recently used (R410). -/
def SpdmSt.touch (x : SpdmSt) (c : SpdmConn) : SpdmSt :=
  let rest := x.conns.filter (fun e => e.peer != c.peer)
  let out := rest.drop 15
  { x with conns := c :: rest.take 15, displaced := (x.displaced.filter (fun e => e != c.peer)) ++ out.map (fun e => e.peer) }

/-- Signature of Alias 2 over a transcript. -/
def Dev.aliasSign (d : Dev) (b : Bytes) : Bytes := padTo 96 (Config.ecdsaSign d.fold.alias2 (sha384 b) d.free)

/-- The answer to one request from a requester in `phase`: response, new phase. Requests that are not supported are answered by the caller. -/
def Dev.spdmAnswer (d : Dev) (c : SpdmConn) (code : Nat) (m : Bytes) : Bytes × Nat :=
  let p1 := leAt m 2 1
  let p2 := leAt m 3 1
  if code = 0x84 then (spdmMsg 0x04 0 0 (leBytes 1 0 ++ leBytes 1 1 ++ leBytes 2 0x1300), 1)
  else if code = 0xE1 then
    if c.phase ≠ 1 then (spdmError errUnexpected, c.phase)
    else (spdmMsg 0x61 0 0 (zeros 4 ++ leBytes 4 (0x02 + 0x04 + 0x10 + 0x20000) ++ leBytes 4 4096 ++ leBytes 4 16384), 2)
  else if code = 0xE3 then
    if c.phase ≠ 2 then (spdmError errUnexpected, c.phase)
    else if bitOf (leAt m 8 4) 7 && bitOf (leAt m 12 4) 1 && bitOf (leAt m 6 1) 0 then
      (spdmMsg 0x63 0 0 (leBytes 2 36 ++ leBytes 1 1 ++ leBytes 1 0 ++ leBytes 4 4 ++ leBytes 4 0x80 ++ leBytes 4 2 ++ zeros 16), 3)
    else (spdmError errInvalid, c.phase)
  else if c.phase ≠ 3 then (spdmError errUnexpected, c.phase)
  else if code = 0x81 then
    let ds := [0, 1].filterMap d.certChain
    (spdmMsg 0x01 0 (if ds.length = 2 then 3 else 1) (ds.flatMap sha384), 3)
  else if code = 0x82 then
    match d.certChain (p1 % 16) with
    | some ch =>
      let off := leAt m 4 2
      let part := sliceOf ch off (leAt m 6 2)
      if ch.length ≤ off then (spdmError errInvalid, 3)
      else (spdmMsg 0x02 (p1 % 16) 0 (leBytes 2 part.length ++ leBytes 2 (ch.length - off - part.length) ++ part), 3)
    | none => (spdmError errInvalid, 3)
  else if code = 0x83 then
    match d.certChain (p1 % 16) with
    | some ch =>
      if d.fold.alias2 = [] then (spdmError errUnexpected, 3)
      else
        let body := spdmMsg 0x03 (p1 % 16) 1 (sha384 ch ++ d.drawn 32 ++ sha384 ([1, 2, 3, 4].filterMap d.measBlock).flatten ++ leBytes 2 0)
        (body ++ d.aliasSign (c.transcript ++ m ++ body), 3)
    | none => (spdmError errInvalid, 3)
  else if code = 0xE0 then
    let bs := if p2 = 0xFF then [1, 2, 3, 4].filterMap d.measBlock else (d.measBlock p2).toList
    if p2 = 0 then (spdmMsg 0x60 4 0 (zeros 4), 3)
    else if bs = [] then (spdmError errInvalid, 3)
    else
      let body := spdmMsg 0x60 0 0 (leBytes 1 bs.length ++ leBytes 3 bs.flatten.length ++ bs.flatten ++ d.drawn 32 ++ leBytes 2 0)
      if bitOf p1 0 then
        if d.fold.alias2 = [] then (spdmError errUnexpected, 3) else (body ++ d.aliasSign (c.transcript ++ m ++ body), 3)
      else (body, 3)
  else (spdmError errUnsupported, c.phase)

/-- Serves one whole SPDM message: the device and the response (R410). Responses above 4,096 bytes are fetched by CHUNK_GET. -/
def Dev.spdmServe (d : Dev) (peer : Nat) (m : Bytes) : Dev × Bytes :=
  let code := leAt m 1 1
  if d.spdm.displaced.contains peer ∧ code ≠ 0x84 then
    ({ d with spdm := { d.spdm with displaced := dropAll peer d.spdm.displaced } }, spdmError errResynch)
  else
    let c := d.spdm.conn peer
    if code = 0x86 then
      if c.chunk = [] ∨ c.chunkIn then (d, spdmError errUnexpected)
      else
        let part := sliceOf c.chunk c.chunkAt 4084
        let last := decide (c.chunk.length ≤ c.chunkAt + part.length)
        let c1 := if last then { c with chunk := [], chunkAt := 0 } else { c with chunkAt := c.chunkAt + part.length }
        ({ d with spdm := d.spdm.touch c1 }, spdmMsg 0x06 (bit last) (leAt m 3 1) (leBytes 2 (leAt m 4 2) ++ zeros 2 ++ leBytes 4 part.length ++ part))
    else if code = 0x85 then
      let whole := (if c.chunkIn then c.chunk else []) ++ m.drop 12
      if 16384 < whole.length then (d, spdmError errInvalid)
      else if bitOf (leAt m 2 1) 0 then
        let r := d.spdmAnswer { c with chunk := [], chunkIn := false } (leAt whole 1 1) whole
        let c1 := { c with chunk := [], chunkIn := false, phase := r.2, transcript := c.transcript ++ whole ++ r.1 }
        ({ d.tickFree with spdm := d.spdm.touch c1 }, spdmMsg 0x05 0 (leAt m 3 1) (leBytes 2 (leAt m 4 2) ++ r.1))
      else
        ({ d with spdm := d.spdm.touch { c with chunk := whole, chunkIn := true } }, spdmMsg 0x05 0 (leAt m 3 1) (leBytes 2 (leAt m 4 2)))
    else
      let r := d.spdmAnswer c code m
      let tr := if code = 0x84 then m ++ r.1 else if code = 0x83 ∨ code = 0xE0 then [] else c.transcript ++ m ++ r.1
      let big := decide (4096 < r.1.length)
      let c1 := { c with phase := r.2, transcript := tr, chunk := if big then r.1 else [], chunkAt := 0, chunkIn := false }
      ({ d.tickFree with spdm := d.spdm.touch c1 }, if big then spdmMsg 0x7F errLarge 0 (leBytes 1 0) else r.1)

/-- An SPDM request from an endpoint is the next message to serve, with these bytes. -/
def Dev.spdmNext (d : Dev) (path : MPath) (eid : Nat) (m : Bytes) : Option MgmtMsg :=
  match d.nextMsg with
  | some x => if x.mtype = 5 ∧ x.path = path ∧ x.src = eid ∧ x.body = m then some x else none
  | none => none
/-- A request of one code arrives: as the next message of a management path, or over NVMe in an admin pen as Security Send of protocol 0xE8,
whose answer a Security Receive returns. Fold firmware serves it; a boot ROM that has halted answers with an error (R503). A Decommissioned
device answers GET_VERSION and GET_CAPABILITIES and nothing else (R373). -/
def Dev.spdmRequest (d0 : Dev) (code : Nat) (v : Via) (m : Bytes) : Dev :=
  let d := d0.sweep
  let oob := fun (x : MgmtMsg) =>
    if d.fold.lc = 3 ∧ code ≠ 0x84 ∧ code ≠ 0xE1 then d.mgmtDrop x
    else if d.mgmtLevel < 2 ∧ d.fold.lc ≠ 3 then d.mgmtReply x (spdmError errUnexpected)
    else
      let r := d.spdmServe (d.peerOf v) m
      r.1.mgmtReply x r.2
  if leAt m 1 1 ≠ code then d
  else match v with
    | .walk e => match d.spdmNext .walk e.toNat m with
      | some x => if d.mgmtLevel = 0 then d else oob x
      | none => d
    | .i3c e => match d.spdmNext .i3c e.toNat m with
      | some x => if d.mgmtLevel = 0 then d else oob x
      | none => d
    | .host p =>
      if d.adminReady p.val 0x81 && d.secp p.val == 0xE8 && !d.fold.inReset && (d.core 0).released then
        let r := if d.fold.lc = 3 ∧ code ≠ 0x84 ∧ code ≠ 0xE1 then (d, []) else d.spdmServe (d.peerOf v) m
        ({ r.1 with spdm := { r.1.spdm with replies := r.1.spdm.replies.set (d.penCtrl p.val) r.2 } } : Dev).complete p.val scOk 0
      else d

/-- GET_VERSION. -/
def execGetVersion (v : Via) (m : Bytes) (s : State) : Out := s.apply fun d => d.spdmRequest 0x84 v m
/-- GET_CAPABILITIES. -/
def execGetCapabilities (v : Via) (m : Bytes) (s : State) : Out := s.apply fun d => d.spdmRequest 0xE1 v m
/-- NEGOTIATE_ALGORITHMS. -/
def execNegotiateAlgorithms (v : Via) (m : Bytes) (s : State) : Out := s.apply fun d => d.spdmRequest 0xE3 v m
/-- GET_DIGESTS. -/
def execGetDigests (v : Via) (m : Bytes) (s : State) : Out := s.apply fun d => d.spdmRequest 0x81 v m
/-- GET_CERTIFICATE. -/
def execGetCertificate (v : Via) (m : Bytes) (s : State) : Out := s.apply fun d => d.spdmRequest 0x82 v m
/-- CHALLENGE. -/
def execChallenge (v : Via) (m : Bytes) (s : State) : Out := s.apply fun d => d.spdmRequest 0x83 v m
/-- GET_MEASUREMENTS. -/
def execGetMeasurements (v : Via) (m : Bytes) (s : State) : Out := s.apply fun d => d.spdmRequest 0xE0 v m
/-- CHUNK_GET. -/
def execChunkGet (v : Via) (m : Bytes) (s : State) : Out := s.apply fun d => d.spdmRequest 0x86 v m
/-- CHUNK_SEND. -/
def execChunkSend (v : Via) (m : Bytes) (s : State) : Out := s.apply fun d => d.spdmRequest 0x85 v m

end Sys2Proof.Machine
end

