-- ==== Sys2Proof/Machine/Update.lean ====
section
/-! DEFINITION. Firmware download, slot writes and live activation (R396, R449 to R452, Table 17-9). -/

namespace Sys2Proof.Machine

/-! ### Slots in use -/

/-- A component entry names a unit of its kind. -/
def CompEnt.runs (c : CompEnt) (kind unit : Nat) : Bool := c.ckind == kind && bitOf c.units unit
/-- Slot a core runs now. -/
def FoldSt.slotNow (f : FoldSt) (kind unit : Nat) : Option Nat := (f.comps.find? (fun c => c.runs kind unit)).map (fun c => c.slot)
/-- A core of a kind runs a slot, or its pointer names it. -/
def Dev.slotInUse (d : Dev) (kind slot : Nat) : Bool :=
  (kindUnits kind).any (fun u => d.fold.slotNow kind u == some slot || d.ilu.pointer.slotOf kind u == slot)
/-- The slot no core runs. -/
def Dev.spareSlot (d : Dev) (kind : Nat) : Option Nat := [0, 1].find? (fun s => !d.slotInUse kind s)
/-- Sets a unit's slot in a pointer record. -/
def PtrRec.withSlot (p : PtrRec) (kind unit slot : Nat) : PtrRec :=
  match kind with
  | 1 => { p with fold := slot }
  | 2 => { p with shep := setBits p.shep unit unit slot }
  | _ => { p with drov := setBits p.drov unit unit slot }
/-- A pointer record that names a slot for every core of a kind. -/
def Dev.pointAll (d : Dev) (kind slot : Nat) : Dev :=
  d.writePointer ((kindUnits kind).foldl (fun p u => p.withSlot kind u slot) d.ilu.pointer)
/-- A core runs a slot from now on: the component entries say so. -/
def Dev.nowRuns (d : Dev) (kind unit slot : Nat) : Dev :=
  let f := d.fold
  let cs := (f.comps.map (fun c => if c.runs kind unit then { c with units := c.units - 2 ^ unit } else c)).filter (fun c => c.ckind == 4 || c.units != 0)
  let cs1 := if cs.any (fun c => c.ckind == kind && c.slot == slot) then
      cs.map (fun c => if c.ckind = kind ∧ c.slot = slot then { c with units := c.units + 2 ^ unit } else c)
    else cs ++ [d.compOf kind slot (2 ^ unit)]
  { d with fold := { f with comps := cs1 } }

/-! ### FIRMWARE_IMAGE_DOWNLOAD -/

/-- Address of the download buffer (R234, R450). -/
def Dev.dlBase (d : Dev) : Nat := d.reservedBase + 0x1800000
/-- FIRMWARE_IMAGE_DOWNLOAD: NUMD in CDW10 and OFST in CDW11, in dwords. -/
def Dev.fwDownload (d : Dev) (p : Nat) (data : Bytes) : Dev :=
  if !d.adminReady p 0x11 then d
  else
    let k := d.penCtrl p
    let n := (d.penDw p 10 + 1) * 4
    let off := d.penDw p 11 * 4
    if n % 4096 ≠ 0 ∨ off % 4096 ≠ 0 ∨ 0x800000 < off + n then d.complete p scInvalidField 0
    else if off ≠ 0 ∧ d.ilu.dlOwner ≠ some k then d.complete p scSequence 0
    else
      let d1 := (d.putBytes (d.dlBase + off) (padTo n data)).clearMarks (d.dlBase + off) n
      let len := if off = 0 then n else Nat.max d.ilu.dlLen (off + n)
      ({ d1 with ilu := { d1.ilu with dlOwner := some k, dlLen := len } } : Dev).complete p scOk 0
/-- FIRMWARE_IMAGE_DOWNLOAD. -/
def execFirmwareImageDownload (p : Pen) (data : Bytes) (s : State) : Out := s.apply fun d => d.fwDownload p.val data

/-! ### The package -/

/-- Status codes of Firmware Commit. -/
def scFwSlot : Nat := 0x106
def scFwImage : Nat := 0x107
/-- The modules of a package, each at the first 8-byte boundary after the previous; none where they do not fill it. The buffer's last granule may
hold zeros after the last module (DEDUCED, assumption log 39). -/
def packageOf : Nat → Bytes → Option (List Bytes)
  | 0, b => if allZero b then some [] else none
  | n + 1, b =>
    if allZero b then some []
    else
      let len := leAt b 8 4
      if len < 0x40 ∨ b.length < len then none
      else (packageOf n (b.drop (roundUp len 8))).map (fun t => b.take len :: t)
/-- Component kind of a module (Table 15-5). -/
def ModHeader.kind (h : ModHeader) : Nat := if h.level = 3 then 4 else if h.level = 1 then 1 else if h.coreKind = 3 then 3 else 2
/-- The package holds at most one F module, one V module per CORE_KIND and eight owner modules (R450). -/
def packageShape (ms : List Bytes) : Bool :=
  let ks := ms.map (fun b => (ModHeader.ofBytes b).kind)
  ms != [] && decide (ms.length ≤ 11) && [1, 2, 3].all (fun k => decide ((ks.filter (· == k)).length ≤ 1)) && decide ((ks.filter (· == 4)).length ≤ 8)
/-- The first module that fails its check: code and CORE_KIND. -/
def Dev.packageFail (d : Dev) (ms : List Bytes) : Option (Nat × Nat) :=
  ms.findSome? (fun b =>
    let h := ModHeader.ofBytes b
    let c := d.checkModule b b.length 0 false
    let big := decide ((slotPlace h.kind 0).2 < b.length)
    if c ≠ 0 then some (c, h.coreKind) else if big then some (1, h.coreKind) else none)

/-! ### Slot writes (R449) -/

/-- The owner boot index a module replaces: the one holding its COMPONENT_ID, else the lowest empty one. -/
def Dev.ownerIndex (d : Dev) (cid : Nat) : Option Nat :=
  let empty := fun i => d.ilu.sectorErased (slotPlace 4 i).1
  match (List.range 8).find? (fun i => !empty i && d.slotCid 4 i == cid) with
  | some i => some i
  | none => (List.range 8).find? empty
/-- Writes a module into a slot or index: pointer record with UPD, erases, programs, entry 0x0D, pointer record with UPD cleared. Whether it
succeeded is the answer; a write that is cut leaves UPD set and the first sector's erase interrupted. -/
def Dev.writeSlot (d : Dev) (kind slot : Nat) (b : Bytes) (cntlid : Nat) (how : StoreEnd) (fails : TallyFails) : Dev × Bool :=
  let h := ModHeader.ofBytes b
  let pl := slotPlace kind slot
  let d1 := d.writePointer { d.ilu.pointer with updKind := kind, updSlot := slot, updCid := h.componentId }
  let ss := (List.range (pl.2 / 65536)).map (fun i => pl.1 + i)
  let d2 := ss.foldl (fun (x : Dev) s => if x.ilu.sectorErased s then x else x.norErase s) d1
  let clear := fun (x : Dev) => x.writePointer { x.ilu.pointer with updKind := 0, updSlot := 0, updCid := 0 }
  match how with
  | .cut =>
    let ph := d2.ilu.phys pl.1
    ({ d2 with ilu := { d2.ilu with sects := d2.ilu.sects.set ph { d2.ilu.sect ph with st := 2 } } }, false)
  | .failed => (clear d2, false)
  | .done =>
    let d3 := d2.norProgram (pl.1 * 65536) b
    let sets := (signatureSets b h).getD []
    let kids := sets.flatMap (fun s => s.ecdsaKid ++ s.lmsKid)
    let r := d3.appendEntry { Entry.blank 0x0D with detail := slot, cntlid := cntlid, cid := h.componentId, secver := h.secver,
                                                    digest := measureOf b, kids := kids } fails
    (clear r.1, r.2)
/-- Where each module of a package goes: kind, slot or index. None with a slot that may not be written; an owner module with no index gives
index 8. -/
def Dev.targets (d : Dev) (fs : Nat) : List Bytes → Option (List (Nat × Nat × Bytes))
  | [] => some []
  | b :: t =>
    let h := ModHeader.ofBytes b
    if h.kind = 4 then
      let i := (d.ownerIndex h.componentId).getD 8
      (d.targets fs t).map (fun l => (4, i, b) :: l)
    else
      let slot := if fs = 0 then d.spareSlot h.kind else if d.slotInUse h.kind (fs - 1) then none else some (fs - 1)
      match slot with
      | none => none
      | some s => (d.targets fs t).map (fun l => (h.kind, s, b) :: l)
/-- Firmware Commit with CA 000 or 001 (`act` for 001). -/
def Dev.fwReplace (d : Dev) (p : Nat) (act : Bool) (how : StoreEnd) (fails : TallyFails) : Dev :=
  let fs := d.penDw p 10 % 8
  let k := d.penCtrl p
  let ms := (packageOf 12 (d.bytes d.dlBase d.ilu.dlLen)).getD []
  if 2 < fs then d.complete p scFwSlot 0
  else if act ∧ !d.holdsCrook k then d.complete p scDenied 0
  else if d.ilu.dlOwner ≠ some k ∨ !packageShape ms then d.complete p scFwImage 1
  else match d.packageFail ms with
    | some (c, ck) => d.complete p scFwImage (c + 256 * ck)
    | none => match d.targets fs ms with
      | none => d.complete p scFwSlot 0
      | some ts =>
        if ts.any (fun t => t.1 == 4 && t.2.1 == 8) then d.complete p scFwImage (256 * 2)
        else
          let r := ts.foldl (fun (acc : Dev × Bool) t => if acc.2 then acc.1.writeSlot t.1 t.2.1 t.2.2 (k + 1) how fails else acc) (d, true)
          if how = .cut then r.1.modPen p (fun x => { x with stage := .external })
          else if !r.2 then r.1.complete p scInternal 0
          else
            let d1 := if act then ts.foldl (fun (x : Dev) t => if t.1 = 4 then x else x.pointAll t.1 t.2.1) r.1 else r.1
            d1.complete p scOk 0
/-- The Firmware Commit in a pen has an action, and no other commit holds the device (R450). -/
def Dev.fwReady (d : Dev) (p ca : Nat) : Bool := d.adminReady p 0x10 && bitsOf (d.penDw p 10) 5 3 == ca && d.ilu.act.isNone
/-- FIRMWARE_COMMIT_REPLACE: how the store writes end. -/
def execFirmwareCommitReplace (p : Pen) (how : StoreEnd) (fails : TallyFails) (s : State) : Out :=
  s.apply fun d => if d.fwReady p.val 0 then d.fwReplace p.val false how fails else d
/-- FIRMWARE_COMMIT_REPLACE_ACTIVATE. -/
def execFirmwareCommitReplaceActivate (p : Pen) (how : StoreEnd) (fails : TallyFails) (s : State) : Out :=
  s.apply fun d => if d.fwReady p.val 1 then d.fwReplace p.val true how fails else d
/-- Component kinds whose slot passes its check. -/
def Dev.passingKinds (d : Dev) (slot : Nat) : List Nat := [3, 2, 1].filter (fun k => d.slotCode k slot == 0)
/-- The outcome of a CA 010 or 011 that cannot go on, if there is one: slot, Crook, then no slot that passes. -/
def Dev.fwActRefused (d : Dev) (p : Nat) : Option (Nat × Nat) :=
  let fs := d.penDw p 10 % 8
  if fs = 0 ∨ 2 < fs then some (scFwSlot, 0)
  else if !d.holdsCrook (d.penCtrl p) then some (scDenied, 0)
  else if d.passingKinds (fs - 1) = [] then some (scFwImage, d.slotCode 2 (fs - 1) + 256 * 2)
  else none
/-- FIRMWARE_COMMIT_ACTIVATE_RESET: pointer records for the components whose slot FS passes. -/
def execFirmwareCommitActivateReset (p : Pen) (s : State) : Out :=
  s.apply fun d =>
    if !d.fwReady p.val 2 then d
    else match d.fwActRefused p.val with
      | some (st, dw) => d.complete p.val st dw
      | none =>
        let slot := d.penDw p.val 10 % 8 - 1
        ((d.passingKinds slot).foldl (fun (x : Dev) k => x.pointAll k slot) d).complete p.val scOk 0
/-- FIRMWARE_COMMIT_ACTIVATE_LIVE: activation of the cores that do not run slot FS begins; it waits for the map rebuild to end. -/
def execFirmwareCommitActivateLive (p : Pen) (s : State) : Out :=
  s.apply fun d =>
    if !d.fwReady p.val 3 ∨ d.fold.stage < 9 ∨ d.mapc.rbPhase ≠ 0 then d
    else match d.fwActRefused p.val with
      | some (st, dw) => d.complete p.val st dw
      | none =>
        let slot := d.penDw p.val 10 % 8 - 1
        let cs := (d.passingKinds slot).flatMap (fun k => ((kindUnits k).filter (fun u => d.fold.slotNow k u != some slot)).map (unitCore k))
        if cs = [] then d.complete p.val scOk 0
        else
          let d1 := d.modPen p.val (fun x => { x with stage := .external })
          { d1 with ilu := { d1.ilu with act := some { pen := p.val, slot := slot, cores := cs, step := 0 } } }

/-! ### CORE_ACTIVATION (Table 17-9) -/

/-- Component kind and unit of a core. -/
def kindUnitOf (core : Nat) : Nat × Nat := if core = 0 then (1, 0) else if core ≤ 8 then (2, core - 1) else (3, core - 9)
/-- A core's reset frees its digest contexts (R427) and drops what it had in hand. -/
def Dev.freeDigests (d : Dev) (core : Nat) : Dev := { d with dig := d.dig.filter (fun e => e.2.owner != coreIdOf core) }
/-- The counters rise to the lowest SECVER that any core still runs (R396). -/
def Dev.raiseLive (d : Dev) (cntlid : Nat) (fails : TallyFails) : Dev :=
  let cs := d.fold.comps.filter (fun c => c.ckind != 4)
  let ids := cs.foldl (fun l c => addOnce c.cid l) []
  ids.foldl (fun (x : Dev) i =>
    let vs := (cs.filter (fun c => c.cid == i)).map (fun c => c.secver)
    (x.raiseCounter i (vs.foldl Nat.min (vs.headD 0)) cntlid fails).1) d
/-- The activation ends with a status. -/
def Dev.actEnd (d : Dev) (a : ActSt) (st dw : Nat) : Dev :=
  ({ d with ilu := { d.ilu with act := none } } : Dev).complete a.pen st dw
/-- The current core has ended its steps. -/
def Dev.actNext (d : Dev) (a : ActSt) (fails : TallyFails) : Dev :=
  match a.cores.drop 1 with
  | [] => (d.raiseLive (d.penCtrl a.pen + 1) fails).actEnd a scOk 0
  | t => { d with ilu := { d.ilu with act := some { a with cores := t, step := 0 } } }
/-- The entry 0x04 of an activation (Table 15-9). -/
def Dev.actEntry (d : Dev) (a : ActSt) (kind unit code : Nat) (data : Bytes) : Entry :=
  let b := d.ilu.slotModule kind a.slot
  let h := ModHeader.ofBytes b
  let sets := (signatureSets b h).getD []
  let kids := sets.flatMap (fun s => s.ecdsaKid ++ s.lmsKid)
  { Entry.blank 4 with detail := a.slot + 2 * code, cntlid := d.penCtrl a.pen + 1, cid := h.componentId, secver := h.secver, inst := 2 ^ unit,
                       digest := measureOf b, kids := kids, data := data }
/-- Steps 2 to 5 of a Drover or Shepherd core: the entry, then reset, load, pointer record and release. -/
def Dev.actCore (d : Dev) (a : ActSt) (core : Nat) (fails : TallyFails) : Dev :=
  let ku := kindUnitOf core
  let resume := fun (x : Dev) => if ku.1 = 3 then x.modDrv ku.2 (fun y => { y with quiescing := false, quiesced := false }) else x
  let r := d.appendEntry (d.actEntry a ku.1 ku.2 0 []) fails
  if !r.2 then (resume r.1).actEnd a scInternal 0
  else
    let d1 := (r.1.freeDigests core).writePointer (r.1.ilu.pointer.withSlot ku.1 ku.2 a.slot)
    let d2 := (d1.startCore core (d1.ilu.slotModule ku.1 a.slot)).nowRuns ku.1 ku.2 a.slot
    (resume d2).actNext a fails
/-- The Fold's step 3: pointer record, and the Fold alone is reset; its scratch is lost and the key store is kept (R362). -/
def Dev.actFoldReset (d : Dev) (a : ActSt) : Dev :=
  let d1 := (d.freeDigests 0).writePointer (d.ilu.pointer.withSlot 1 0 a.slot)
  let d2 := (d1.setCore 0 (Core.init 0)).loseRange (scratchBase 0) (scratchSize 0)
  { d2 with fold := { d2.fold with inReset := true, nonce := none, scope := 0, tapOpen := 0, tokenIn := false, reqStatus := 0xFF, reqType := 0,
                                   cdi1 := [], alias1 := [], alias2 := [], alias1Cert := [] },
            ilu := { d2.ilu with act := some { a with step := 3 } } }
/-- The Fold's step 4: the boot ROM chooses and checks a slot, the firmware that runs derives layer 1 with the newest boot record and appends the
entry before any other record; a fallback ends the command with the check code, and the pointer is written back (R406, R452). -/
def Dev.actFoldBoot (d : Dev) (a : ActSt) (fails : TallyFails) : Dev :=
  match udsOf d.fold.otp with
  | none => (d.tamperSet 2).romHalt 0
  | some uds =>
    let d0 := { d with fold := d.fold.layer0 uds }
    match d0.runSlot 1 0 with
    | none => d0.romHalt (d0.slotCode 1 a.slot)
    | some s =>
      let code := d0.slotCode 1 a.slot
      let b := d0.ilu.slotModule 1 s
      let f := (d0.fold.layer1 uds b).layer2 (d0.fold.tally.digestHead d0.fold.tally.bootSlot)
      let d1 := ({ d0 with fold := { f with inReset := false } } : Dev).startCore 0 b
      let d2 := { d1 with evt := { d1.evt with colliePet := d1.run } }
      let r := d2.appendEntry (d2.actEntry a 1 0 (if s = a.slot then 0 else code) f.alias1Cert) fails
      if s = a.slot then
        if r.2 then (r.1.nowRuns 1 0 s).actNext a fails else (r.1.nowRuns 1 0 s).actEnd a scInternal 0
      else (r.1.writePointer (r.1.ilu.pointer.withSlot 1 0 s)).actEnd a scFwImage (code + 256)
/-- CORE_ACTIVATION: the next step of the core that stands first. -/
def Dev.coreActivate (d : Dev) (fails : TallyFails) : Dev :=
  match d.ilu.act with
  | none => d
  | some a => match a.cores with
    | [] => d.actEnd a scOk 0
    | 0 :: _ => if a.step < 3 then d.actFoldReset a else d.actFoldBoot a fails
    | c :: _ =>
      if c ≤ 8 then
        if (d.core c).modRun.isSome then d
        else (d.abandonTxns (fun x => x.core == c)).actCore a c fails
      else if a.step = 0 then
        let d1 := d.raiseE14 c
        { d1 with ilu := { d1.ilu with act := some { a with step := 1 } } }
      else
        let d1 := d.quiesceCheck (c - 9)
        if (d1.drv (c - 9)).quiesced then d1.actCore a c fails else d1
/-- CORE_ACTIVATION. -/
def execCoreActivation (fails : TallyFails) (s : State) : Out := s.apply fun d => if d.pwr.pf = .idle then d.coreActivate fails else d

end Sys2Proof.Machine
end

