-- ==== Sys2Proof/Machine/Smart.lean ====
section
/-! DEFINITION. Log pages: SMART, endurance, firmware slots, events, the Tally and the others of Table 5-6
(R138, R140, R292, R299, R317, R409, R450, R459, R481, R482, R515). Where NVMe, and not the manual, places a field in a page, the place is
NVMe's (PRESUMED, assumption log 30); bytes of a page that the manual does not state are free values (assumption log 49). -/

namespace Sys2Proof.Machine

/-! ### Pages -/

/-- Bytes the manual does not state. -/
def Dev.freeRun (d : Dev) (n : Nat) : Bytes := (List.range n).map (Config.freeByte d.free)
/-- Puts bytes at an offset of a page. -/
def putAt (off : Nat) (v b : Bytes) : Bytes := b.take off ++ v ++ b.drop (off + v.length)
/-- A page of free bytes with fields: offset and content. -/
def Dev.page (d : Dev) (n : Nat) (fs : List (Nat × Bytes)) : Bytes := fs.foldl (fun b f => putAt f.1 f.2 b) (d.freeRun n)
/-- Low bits of a byte of a page are stated; the others stay free. -/
def Dev.lowBits (d : Dev) (off hi v : Nat) : Nat × Bytes := (off, leBytes 1 (setBits (Config.freeByte d.free off).toNat hi 0 v))

/-! ### SMART / Health Information -/

/-- Available Spare (R299). -/
def Dev.availableSpare (d : Dev) : Nat :=
  if d.drove.s0 = 0 then 100 else Nat.min 100 ((d.spareFor d.iuUsed).toNat * 100 / d.drove.s0)
/-- A current key generation whose slot is Empty (R419). -/
def Dev.keyLost (d : Dev) : Bool := d.namespaces.any (fun n => (d.keyBind n).current.any (fun g => (d.slot g.slot).st == .empty))
/-- Critical warning: bit 0 spare below SPARE_THRESH_PCT (R299), 1 temperature (R482, R486), 2 reliability (R236, R268, R317, R419, R546),
3 read-only media (R299), 4 a dump set that cannot be armed (R263). -/
def Dev.criticalWarning (d : Dev) : Nat :=
  bit (decide (d.availableSpare < d.cfgv 0x012 0x16)) + 2 * bit (decide (2 ≤ d.thm.level) || d.thm.allIgnored)
    + 4 * bit (d.integrityWarn || d.keyLost) + 8 * bit d.readOnly + 16 * bit (!(d.dumpArmed false && d.dumpArmed true))
/-- A reading in steps of 0.125 °C as Kelvin, to the nearest degree (R481). -/
def kelvin (v : Int) : Nat := ((v + 4) / 8 + 273).toNat
/-- The composite temperature in Kelvin. -/
def Dev.compositeK (d : Dev) : Nat := kelvin d.thm.compositeOf
/-- Temperature sensor s (1 to 7) in Kelvin; an ignored one reports 0 K (R482). -/
def Dev.sensorK (d : Dev) (s : Nat) : Nat :=
  let x := d.sensor s
  if x.fault ∨ x.samples = [] then 0 else kelvin x.reading
/-- Data units of 1,000 × 512 bytes, rounded up. -/
def dataUnits (sectors : Nat) : Nat := (sectors + 999) / 1000
/-- Log page 0x02. -/
def Dev.logSmart (d : Dev) : Bytes :=
  d.page 512 ([(0, leBytes 1 d.criticalWarning), (1, leBytes 2 d.compositeK), (3, leBytes 1 d.availableSpare), (4, leBytes 1 (d.cfgv 0x012 0x16)),
    (5, leBytes 1 d.percentUsed), (32, leBytes 16 (dataUnits d.nvme.readUnits)), (48, leBytes 16 (dataUnits d.nvme.writeUnits)),
    (64, leBytes 16 d.nvme.readCmds), (80, leBytes 16 d.nvme.writeCmds), (160, leBytes 16 d.integ.mdi),
    (216, leBytes 4 d.thm.trans1), (220, leBytes 4 d.thm.trans2), (224, leBytes 4 (d.thm.time1 / 1000)), (228, leBytes 4 (d.thm.time2 / 1000))]
    ++ (List.range 7).map (fun i => (200 + 2 * i, leBytes 2 (d.sensorK (i + 1)))))

/-! ### Other pages of the NVMe layout -/

/-- Log page 0x01: 256 entries of 64 bytes, newest first. -/
def Dev.logErrors (d : Dev) (k : Nat) : Bytes :=
  let es := (d.ctrl k).errLog
  d.page 16384 ((List.range 256).map (fun i => match es[i]? with
    | some e => (64 * i + 8, leBytes 2 e.1 ++ leBytes 2 e.2.1 ++ leBytes 2 (2 * e.2.2))
    | none => (64 * i, zeros 64)))
/-- BUILD of the Shepherd module in a slot, or zero when the slot fails its check (R450). -/
def Dev.slotBuild (d : Dev) (slot : Nat) : Bytes :=
  if d.slotCode 2 slot = 0 then leBytes 8 (ModHeader.ofBytes (d.ilu.slotModule 2 slot)).build else zeros 8
/-- Log page 0x03: AFI[2:0] is the slot of Shepherd core 0, which is the slot every core runs when they agree. -/
def Dev.logFirmware (d : Dev) : Bytes :=
  let afi := match d.fold.slotNow 2 0 with
    | some s => s + 1
    | none => 0
  d.page 512 [d.lowBits 0 2 afi, (8, d.slotBuild 0), (16, d.slotBuild 1)]
/-- Log page 0x04: the namespaces that changed since it was last read; more than 1,024 entries cannot arise. -/
def Dev.logChanged (d : Dev) (k : Nat) : Bytes := padTo 4096 (((sortOn (fun n => n) (d.ctrl k).changedNs)).flatMap (leBytes 4))
/-- Log page 0x05: CSUPP of every opcode of Tables 5-4 and 5-5. -/
def Dev.logEffects (d : Dev) : Bytes :=
  let f := d.freeRun 4096
  let row := fun (ops : List Nat) (base : Nat) => (List.range 256).flatMap (fun o =>
    if ops.contains o then leBytes 4 (setBits (leAt f (base + 4 * o) 4) 0 0 1) else zeros 4)
  row adminOpcodes 0 ++ row ioOpcodes 1024 ++ f.drop 2048
/-- Log page 0x09. -/
def Dev.logEndurance (d : Dev) : Bytes :=
  d.page 512 [(3, leBytes 1 d.availableSpare), (4, leBytes 1 (d.cfgv 0x012 0x16)), (5, leBytes 1 d.percentUsed),
    (48, leBytes 16 (dataUnits d.nvme.readUnits)), (64, leBytes 16 (dataUnits d.nvme.writeUnits)), (80, leBytes 16 (dataUnits (d.drove.mediaBytes / 512))),
    (96, leBytes 16 d.nvme.readCmds), (112, leBytes 16 d.nvme.writeCmds), (128, leBytes 16 d.integ.mdi)]
/-- The reclaim unit size: the data of one drove's block set at the formatted width (R154; DEDUCED, assumption log 49). -/
def Dev.reclaimBytes (d : Dev) : Nat :=
  let w := (d.liveDies.map (fun i => (d.die i).wl)).foldl (fun m x => if m = 0 then x else Nat.min m x) 0
  d.cfgv 7 4 * (w - summaryLines w) * 196608
/-- Log page 0x20: one configuration, one reclaim group, 64 handles of the initially isolated type (R154). -/
def Dev.logFdpConfig (d : Dev) : Bytes :=
  d.page 336 ([(0, leBytes 2 0), (4, leBytes 4 336), (16, leBytes 2 320), (20, leBytes 4 1), (24, leBytes 2 64), (32, leBytes 8 d.reclaimBytes)]
    ++ (List.range 64).map (fun i => (80 + 4 * i, leBytes 1 1)))
/-- Log page 0x21: the attribute of each handle: 1 used by a namespace, 0 unused. -/
def Dev.logFdpHandles (d : Dev) : Bytes :=
  d.page 520 ((0, leBytes 2 64) :: (List.range 64).map (fun i =>
    (8 + 8 * i, leBytes 1 (bit (d.namespaces.any (fun n => (d.nspace n).handles.contains i))))))
/-- Log page 0x22: host bytes and media bytes written. -/
def Dev.logFdpStats (d : Dev) : Bytes := d.page 64 [(0, leBytes 16 d.drove.hostBytes), (16, leBytes 16 d.drove.mediaBytes)]
/-- Log page 0x80: the oldest reservation notification of the controller; zeros when there is none. -/
def Dev.logReservation (d : Dev) (k : Nat) : Bytes :=
  match (d.ctrl k).resvNotes with
  | [] => zeros 64
  | (t, n) :: r => d.page 64 [(8, leBytes 1 t), (9, leBytes 1 (sat 255 (r.length + 1))), (12, leBytes 4 n)]
/-- A Sanitize has taken its hurdle and not completed. -/
def Dev.sanitizeOn (d : Dev) : Bool := d.nvme.pens.any (fun e => e.2.isAdmin && e.2.opcode == 0x84 && (d.nvme.keyWaits.get? e.1).isSome)
/-- Log page 0x81: the state of the most recent sanitize: 0 none, 1 completed, 2 in progress. -/
def Dev.logSanitize (d : Dev) : Bytes := d.page 512 [d.lowBits 2 2 (if d.sanitizeOn then 2 else d.nvme.sanitizeStatus)]
/-- The standard log pages; none for an identifier outside Table 5-6. -/
def Dev.logPage (d : Dev) (k lid : Nat) : Option Bytes :=
  match lid with
  | 0x01 => some (d.logErrors k)
  | 0x02 => some d.logSmart
  | 0x03 => some d.logFirmware
  | 0x04 => some (d.logChanged k)
  | 0x05 => some d.logEffects
  | 0x09 => some d.logEndurance
  | 0x20 => some d.logFdpConfig
  | 0x21 => some d.logFdpHandles
  | 0x22 => some d.logFdpStats
  | 0x23 => some (d.freeRun 64)
  | 0x80 => some (d.logReservation k)
  | 0x81 => some d.logSanitize
  | _ => none

/-! ### Vendor pages -/

/-- The Run Module Result log page (Table 5-8) of the held instance that matches a selector. -/
def Dev.logResult (d : Dev) (k sel : Nat) : Option Bytes :=
  ((d.ctrl k).results.find? (fun r => r.inst % 65536 == sel)).map (fun r =>
    leBytes 4 r.inst ++ leBytes 1 r.check ++ leBytes 1 r.ending ++ leBytes 2 r.ecause ++ leBytes 8 (if r.ending = 0 then r.status.toNat else 0)
      ++ leBytes 4 r.bytes.length ++ zeros 12 ++ r.bytes)
/-- The Tally log page (R409): selector 0 the head, i + 1 ring slot i; empty for a slot without a verifying record. -/
def Dev.logTally (d : Dev) (sel : Nat) : Option Bytes :=
  let t := d.fold.tally
  if sel = 0 then some (t.bytesOf (some t.head)) else if sel ≤ 4096 then some (t.bytesOf (some (sel - 1))) else none
/-- The Event Records log page (Table 21-5) of a source. -/
def Dev.logEvents (d : Dev) (s : Nat) : Option Bytes :=
  if !sources.contains s then none
  else
    let x := d.src s
    some (leBytes 2 s ++ leBytes 1 x.fifo.length ++ leBytes 1 x.hist.length ++ leBytes 1 (bit x.handling) ++ zeros 3 ++ leBytes 8 x.next
      ++ leBytes 8 d.fold.bootCtr ++ leBytes 4 x.overflow ++ leBytes 4 x.lost ++ zeros 32 ++ x.fifo.flatMap EvRec.toBytes
      ++ x.hist.flatMap EvRec.toBytes)
/-- Any page of Table 5-6 with its selector; none where the command is refused with Invalid Field. -/
def Dev.anyLog (d : Dev) (k lid sel : Nat) : Option Bytes :=
  match lid with
  | 0xC0 => d.logResult k sel
  | 0xC1 => d.logTally sel
  | 0xC2 => d.logEvents sel
  | _ => d.logPage k lid
/-- The bytes of a page from an offset; a read past the end of a vendor page reads zeros (R409), of another free bytes. -/
def Dev.cutPage (d : Dev) (lid off n : Nat) (b : Bytes) : Bytes :=
  let c := sliceOf b off n
  c ++ (if 0xC0 ≤ lid then zeros (n - c.length) else d.freeRun (n - c.length))

/-! ### Get Log Page -/

/-- Fields of a Get Log Page: bytes asked for, offset, selector. -/
def logLen (dw : Nat → Nat) : Nat := (bitsOf (dw 10) 31 16 + bitsOf (dw 11) 15 0 * 65536 + 1) * 4
/-- Log Page Offset, in bytes. -/
def logOff (dw : Nat → Nat) : Nat := dw 12 + dw 13 * 2 ^ 32
/-- Log Specific Identifier. -/
def logSel (dw : Nat → Nat) : Nat := bitsOf (dw 11) 31 16
/-- A read without Retain Asynchronous Event takes the page's events, and the entries that are reported once. -/
def CtrlSt.logTaken (c : CtrlSt) (lid : Nat) : CtrlSt :=
  let c1 := { c with aes := c.aes.filter (fun e => e.2.2 != lid) }
  if lid = 0x04 then { c1 with changedNs := [] } else if lid = 0x80 then { c1 with resvNotes := c1.resvNotes.drop 1 } else c1
/-- A Get Log Page whose identifier meets a test is served: data and Successful Completion, or Invalid Field. SMART is of controller scope. -/
def Dev.getLog (d : Dev) (p : Nat) (which : Nat → Bool) : Dev :=
  match d.pen p with
  | none => d
  | some x =>
    let lid := x.dw 10 % 256
    if !d.adminReady p 0x02 ∨ !which lid ∨ d.moversHalted x.ctrl then d
    else if lid = 0x02 ∧ x.nsid ≠ 0 ∧ x.nsid ≠ 0xFFFFFFFF then d.complete p scInvalidField 0
    else match d.anyLog x.ctrl lid (logSel x.dw) with
      | none => d.complete p scInvalidField 0
      | some b =>
        if 0x200000 < logLen x.dw ∨ (lid < 0xC0 ∧ (b.length < logOff x.dw ∨ logOff x.dw % 4 ≠ 0)) then d.complete p scInvalidField 0
        else
          let out := d.cutPage lid (logOff x.dw) (logLen x.dw) b
          let d1 := if bitOf (x.dw 10) 15 then d else d.modCtrl x.ctrl (fun c => c.logTaken lid)
          d1.tickFree.completeData p out
/-- GET_LOG_PAGE of a page other than 0xC0 to 0xC2. -/
def execGetLogPage (p : Pen) (s : State) : Out := s.apply fun d => d.getLog p.val (fun l => ! [0xC0, 0xC1, 0xC2].contains l)
/-- GET_LOG_RUN_MODULE_RESULT: page 0xC0. -/
def execGetLogRunModuleResult (p : Pen) (s : State) : Out := s.apply fun d => d.getLog p.val (· == 0xC0)
/-- GET_LOG_TALLY: page 0xC1. -/
def execGetLogTally (p : Pen) (s : State) : Out := s.apply fun d => d.getLog p.val (· == 0xC1)
/-- GET_LOG_EVENT_RECORDS: page 0xC2. -/
def execGetLogEventRecords (p : Pen) (s : State) : Out := s.apply fun d => d.getLog p.val (· == 0xC2)

end Sys2Proof.Machine
end

