-- ==== Sys2Proof/Machine/Admin.lean ====
section
/-! DEFINITION. Admin commands of queues, abort, events, features and Identify (R134, R137, R139, R141, R152, R174, R175, R177, R450, R459, R460).
Field places and status codes that NVMe, and not the manual, gives are PRESUMED (assumption log 30). -/

namespace Sys2Proof.Machine

/-- An admin command of an opcode that is ready in a pen is served by a function of its pen and submission entry; its movers must run when it has
data to fetch or to send. -/
def Dev.admin (d : Dev) (p op : Nat) (f : PenSt → Dev) : Dev :=
  match d.pen p with
  | none => d
  | some x => if d.adminReady p op then f x else d

/-! ### Status codes -/

def scCqInvalid : Nat := 0x100
def scQidInvalid : Nat := 0x101
def scQsize : Nat := 0x102
def scAerLimit : Nat := 0x105
def scVector : Nat := 0x108
def scFormat : Nat := 0x10A
def scQdelete : Nat := 0x10C
def scNotSaveable : Nat := 0x10D
def scCapacity : Nat := 0x115
def scNsidUnavailable : Nat := 0x116
def scAttached : Nat := 0x118
def scNotAttached : Nat := 0x11A
def scThin : Nat := 0x11B
def scCtrlList : Nat := 0x11C
def scCtrlId : Nat := 0x11F
def scPrpOffset : Nat := 0x013

/-! ### Queues (R137, R141, R175) -/

/-- Queue counts granted to a controller: submission and completion queues; none before Number of Queues. -/
def CtrlSt.grant (c : CtrlSt) : Nat × Nat := c.granted.getD (0, 0)
/-- Interrupt vectors of a controller: its I/O queue maximum plus one (R144). -/
def Dev.vectors (d : Dev) (k : Nat) : Nat := if d.isPf k then 513 else 65
/-- Bytes of a memory page (CC.MPS). -/
def CtrlSt.pageSize (c : CtrlSt) : Nat := 4096 * 2 ^ bitsOf c.cc 10 7
/-- The status that refuses a new queue of either kind: identifier in use or beyond the grant, size, base, or not contiguous. -/
def CtrlSt.queueBad (c : CtrlSt) (dw : Nat → Nat) (n : Nat) (inUse : Bool) : Nat :=
  let qid := bitsOf (dw 10) 15 0
  if qid = 0 ∨ n < qid ∨ inUse then scQidInvalid
  else if bitsOf (dw 10) 31 16 = 0 then scQsize
  else if !bitOf (dw 11) 0 then scInvalidField
  else if dw 6 % c.pageSize ≠ 0 then scPrpOffset
  else 0
/-- CREATE_IO_COMPLETION_QUEUE. -/
def Dev.createCq (d : Dev) (p : Nat) : Dev :=
  d.admin p 0x05 fun x =>
    let c := d.ctrl x.ctrl
    let qid := bitsOf (x.dw 10) 15 0
    let st := c.queueBad x.dw c.grant.2 (c.cqs.get? qid).isSome
    if st ≠ 0 then d.complete p st 0
    else if d.vectors x.ctrl ≤ bitsOf (x.dw 11) 31 16 then d.complete p scVector 0
    else
      let q : CqSt := { CqSt.init with size := bitsOf (x.dw 10) 31 16 + 1, iv := bitsOf (x.dw 11) 31 16, ien := bitOf (x.dw 11) 1,
                                       base := x.dw 6 + x.dw 7 * 2 ^ 32 }
      (d.setCtrl x.ctrl { c with cqs := c.cqs.set qid q }).complete p scOk 0
/-- CREATE_IO_COMPLETION_QUEUE. -/
def execCreateIoCompletionQueue (p : Pen) (s : State) : Out := s.apply fun d => d.createCq p.val
/-- CREATE_IO_SUBMISSION_QUEUE, with its priority class. -/
def Dev.createSq (d : Dev) (p : Nat) : Dev :=
  d.admin p 0x01 fun x =>
    let c := d.ctrl x.ctrl
    let qid := bitsOf (x.dw 10) 15 0
    let cqid := bitsOf (x.dw 11) 31 16
    let st := c.queueBad x.dw c.grant.1 (c.sqs.get? qid).isSome
    if st ≠ 0 then d.complete p st 0
    else if cqid = 0 ∨ c.grant.2 < cqid then d.complete p scQidInvalid 0
    else if (c.cqs.get? cqid).isNone then d.complete p scCqInvalid 0
    else
      let q : SqSt := { size := bitsOf (x.dw 10) 31 16 + 1, cq := cqid, prio := bitsOf (x.dw 11) 2 1, head := 0, tail := 0,
                        base := x.dw 6 + x.dw 7 * 2 ^ 32, deleting := none }
      (d.setCtrl x.ctrl { c with sqs := c.sqs.set qid q }).complete p scOk 0
/-- CREATE_IO_SUBMISSION_QUEUE. -/
def execCreateIoSubmissionQueue (p : Pen) (s : State) : Out := s.apply fun d => d.createSq p.val
/-- DELETE_IO_COMPLETION_QUEUE: refused while a submission queue uses it. -/
def Dev.deleteCq (d : Dev) (p : Nat) : Dev :=
  d.admin p 0x04 fun x =>
    let c := d.ctrl x.ctrl
    let qid := bitsOf (x.dw 10) 15 0
    if qid = 0 ∨ (c.cqs.get? qid).isNone then d.complete p scQidInvalid 0
    else if c.sqs.any (fun e => e.2.cq == qid && e.1 != 0) then d.complete p scQdelete 0
    else (d.setCtrl x.ctrl { c with cqs := c.cqs.erase qid }).complete p scOk 0
/-- DELETE_IO_COMPLETION_QUEUE. -/
def execDeleteIoCompletionQueue (p : Pen) (s : State) : Out := s.apply fun d => d.deleteCq p.val
/-- A Waiting command leaves the hurdle table with a status (Table 6-3). -/
def Dev.endWaiting (d : Dev) (q st : Nat) : Dev := (d.freeHurdle q).complete q st 0
/-- The pen's command waits in its hurdle. -/
def Dev.isWaiting (d : Dev) (q : Nat) (x : PenSt) : Bool :=
  x.due.isNone && (match d.nvme.hurdles.get? q with
    | some h => h.state == 1
    | none => false)
/-- DELETE_IO_SUBMISSION_QUEUE: its Waiting commands complete with Commands Aborted due to SQ Deletion; the deletion completes after the last of its
commands (R175). -/
def Dev.deleteSq (d : Dev) (p : Nat) : Dev :=
  d.admin p 0x00 fun x =>
    let c := d.ctrl x.ctrl
    let qid := bitsOf (x.dw 10) 15 0
    match c.sqs.get? qid with
    | none => d.complete p scQidInvalid 0
    | some q =>
      if qid = 0 ∨ q.deleting.isSome then d.complete p scQidInvalid 0
      else
        let d1 := (d.setCtrl x.ctrl { c with sqs := c.sqs.set qid { q with deleting := some p } }).setPen p { x with stage := .external }
        let ws := (d.nvme.pens.filter (fun e => e.2.ctrl == x.ctrl && e.2.sq == qid && d.isWaiting e.1 e.2)).map (fun e => e.1)
        (ws.foldl (fun (d : Dev) w => d.endWaiting w scSqDeleted) d1).finishSqDelete x.ctrl qid
/-- DELETE_IO_SUBMISSION_QUEUE. -/
def execDeleteIoSubmissionQueue (p : Pen) (s : State) : Out := s.apply fun d => d.deleteSq p.val

/-! ### Abort and asynchronous events (R137, R174) -/

/-- ABORT: the named command is aborted only if its hurdle is Waiting; else dword 0 bit 0 is set and nothing changes. -/
def Dev.abort (d : Dev) (p : Nat) : Dev :=
  d.admin p 0x08 fun x =>
    match d.nvme.pens.find? (fun e => e.2.ctrl == x.ctrl && e.2.sq == bitsOf (x.dw 10) 15 0 && e.2.cid == bitsOf (x.dw 10) 31 16 && d.isWaiting e.1 e.2) with
    | some e => (d.endWaiting e.1 scAbortRequested).complete p scOk 0
    | none => d.complete p scOk 1
/-- ABORT. -/
def execAbort (p : Pen) (s : State) : Out := s.apply fun d => d.abort p.val
/-- ASYNCHRONOUS_EVENT_REQUEST: answered at once by an event that is kept, else outstanding; at most 16 per controller. -/
def Dev.aer (d : Dev) (p : Nat) : Dev :=
  d.admin p 0x0C fun x =>
    let c := d.ctrl x.ctrl
    match c.aes with
    | (t, i, g) :: r => (d.setCtrl x.ctrl { c with aes := r }).complete p scOk (t + i * 256 + g * 65536)
    | [] =>
      if 16 ≤ c.aers.length then d.complete p scAerLimit 0
      else (d.setCtrl x.ctrl { c with aers := c.aers ++ [p] }).setPen p { x with stage := .external }
/-- ASYNCHRONOUS_EVENT_REQUEST. -/
def execAsynchronousEventRequest (p : Pen) (s : State) : Out := s.apply fun d => d.aer p.val
/-- INTERRUPT_COALESCING_TIME: the aggregation time of a completion queue ends and its held interrupt is sent. -/
def Dev.coalesceEnd (d : Dev) (k q : Nat) : Dev :=
  match (d.ctrl k).cqs.get? q with
  | none => d
  | some c =>
    if c.heldIrq = 0 then d
    else
      let d1 := d.advanceTo c.heldUntil
      (d1.modCtrl k (fun y => { y with cqs := y.cqs.set q { c with heldIrq := 0, heldUntil := 0 } })).emit (.interrupt k c.iv)
/-- INTERRUPT_COALESCING_TIME of a completion queue. -/
def execInterruptCoalescingTime (k : Ctrl) (q : BitVec 16) (s : State) : Out := s.apply fun d => d.coalesceEnd k.val q.toNat

/-! ### Features (R139, Table 5-7) -/

/-- Sets a feature word of a controller. -/
def Dev.setFeature (d : Dev) (k key v : Nat) : Dev := d.modCtrl k (fun c => { c with features := c.features.set key v })
/-- Sets a feature's data structure. -/
def Dev.setFeatureData (d : Dev) (k key : Nat) (b : Bytes) : Dev := d.modCtrl k (fun c => { c with featData := c.featData.set key b })
/-- Sets a feature of the endurance group. -/
def Dev.setGroupFeature (d : Dev) (key v : Nat) : Dev :=
  { d with nvme := { d.nvme with groupFeatures := d.nvme.groupFeatures.set key v } }
/-- Place of a temperature threshold: sensor selector and over (0) or under (1) type. -/
def tempKey (sel thsel : Nat) : Nat := 0x400 + 2 * sel + thsel
/-- The namespaces a namespace-specific feature names: those attached for the broadcast NSID. -/
def Dev.featureNs (d : Dev) (k nsid : Nat) : List Nat :=
  if nsid = 0xFFFFFFFF then d.namespaces.filter (fun n => d.attached n k) else if d.attached nsid k then [nsid] else []
/-- Set Features other than Power Management and Number of Queues: the new state, or a status. -/
def Dev.featureSet (d : Dev) (x : PenSt) (data : Bytes) : Except Nat Dev :=
  let k := x.ctrl
  let fid := bitsOf (x.dw 10) 7 0
  let v := x.dw 11
  if bitOf (x.dw 10) 31 then .error scNotSaveable
  else match fid with
  | 0x01 => if 6 < v % 8 then .error scInvalidField else .ok (d.setFeature k fid v)
  | 0x04 =>
    let sel := bitsOf v 19 16
    let th := bitsOf v 21 20
    if (7 < sel ∧ sel ≠ 15) ∨ 1 < th then .error scInvalidField
    else .ok ((if sel = 15 then List.range 8 else [sel]).foldl (fun (d : Dev) i => d.setFeature k (tempKey i th) (v % 65536)) d)
  | 0x05 => if bitOf v 16 then .error scInvalidField else .ok (d.setFeature k fid v)
  | 0x08 => .ok (d.setFeature k fid (v % 65536))
  | 0x09 => if d.vectors k ≤ v % 65536 then .error scInvalidField else .ok (d.setFeature k (0x900 + v % 65536) v)
  | 0x0A => .ok (d.setFeature k fid v)
  | 0x0B => .ok (d.setFeature k fid v)
  | 0x0C => .ok ((d.setFeature k fid v).setFeatureData k fid (padTo 256 data))
  | 0x0E => .ok { d with nvme := { d.nvme with timestamp := some (leAt data 0 6, d.now) } }
  | 0x10 =>
    let t1 := bitsOf v 31 16
    let t2 := bitsOf v 15 0
    if t1 ≠ 0 ∧ t2 ≠ 0 ∧ t2 ≤ t1 then .error scInvalidField else .ok (d.setFeature k fid v)
  | 0x11 => .ok (d.setFeature k fid (v % 2))
  | 0x1D => if v % 65536 ≠ 1 ∨ bitsOf (x.dw 12) 15 8 ≠ 0 then .error scInvalidField else .ok (d.setGroupFeature fid (x.dw 12))
  | 0x1E =>
    if 64 ≤ v % 65536 ∨ data.length < bitsOf v 23 16 then .error scInvalidField
    else .ok ((data.take (bitsOf v 23 16)).foldl (fun (d : Dev) t => d.setGroupFeature (0x1E0000 + v % 65536 * 256 + t.toNat) (x.dw 12 % 2)) d)
  | 0x81 => if !bitOf v 0 then .error scInvalidField else .ok (d.setFeatureData k fid (padTo 16 data))
  | 0x82 =>
    let ns := d.featureNs k x.nsid
    if ns = [] then .error scInvalidNs else .ok (ns.foldl (fun (d : Dev) n => d.setFeature k (0x820000 + n) v) d)
  | 0x83 =>
    let ns := d.featureNs k x.nsid
    if ns = [] then .error scInvalidNs
    else .ok (ns.foldl (fun (d : Dev) n => d.setNspace n { d.nspace n with resv := { (d.nspace n).resv with ptpl := bitOf v 0 } }) d)
  | _ => .error scInvalidField
/-- SET_FEATURES of any identifier but Power Management (0x02) and Number of Queues (0x07). -/
def Dev.setFeatures (d : Dev) (p : Nat) (data : Bytes) : Dev :=
  d.admin p 0x09 fun x =>
    let fid := bitsOf (x.dw 10) 7 0
    if fid = 0x02 ∨ fid = 0x07 ∨ d.moversHalted x.ctrl then d
    else match d.featureSet x data with
      | .error st => d.complete p st 0
      | .ok d1 => d1.complete p scOk 0
/-- SET_FEATURES: a pen and the bytes of its data structure, where the feature has one. -/
def execSetFeatures (p : Pen) (data : Bytes) (s : State) : Out := s.apply fun d => d.setFeatures p.val data
/-- SET_FEATURES_POWER_MANAGEMENT: the controller's requested state; the command completes at once where the device state does not change, else
with the entry or exit (R460, R177). -/
def Dev.setPower (d : Dev) (p : Nat) : Dev :=
  d.admin p 0x09 fun x =>
    let ps := x.dw 11 % 32
    if bitsOf (x.dw 10) 7 0 ≠ 0x02 then d
    else if bitOf (x.dw 10) 31 then d.complete p scNotSaveable 0
    else if 4 < ps then d.complete p scInvalidField 0
    else
      let d1 := d.modCtrl x.ctrl (fun c => { c with reqPs := ps, opPs := if ps < 2 then ps else c.opPs })
      let d3 := d1.retarget
      let d2 := if !d.pwr.entering ∧ d3.pwr.entering ∧ d3.pwr.target < d.pwr.current ∧ 2 ≤ d.pwr.current then d3.noteWake 2 (x.ctrl / 64) else d3
      if d1.wantedState = d.wantedState ∨ !d2.pwr.entering then d2.complete p scOk 0
      else (({ d2 with pwr := { d2.pwr with pens := d2.pwr.pens ++ [p] } } : Dev)).setPen p { x with stage := .external }
/-- SET_FEATURES_POWER_MANAGEMENT. -/
def execSetFeaturesPowerManagement (p : Pen) (s : State) : Out := s.apply fun d => d.setPower p.val
/-- The grant as Number of Queues reports it: both counts 0-based. A grant of 0 has no such form: those bits are free. -/
def Dev.grantWord (d : Dev) (g : Nat × Nat) : Nat :=
  (if g.1 = 0 then Config.freeNat d.free % 65536 else g.1 - 1) + 65536 * (if g.2 = 0 then Config.freeNat (d.free + 1) % 65536 else g.2 - 1)
/-- SET_FEATURES_NUMBER_OF_QUEUES: grants the least of the request, the controller's maximum and the pool's free count (R141). -/
def Dev.setQueues (d : Dev) (p : Nat) : Dev :=
  d.admin p 0x09 fun x =>
    let c := d.ctrl x.ctrl
    let nsq := x.dw 11 % 65536
    let ncq := x.dw 11 / 65536
    if bitsOf (x.dw 10) 7 0 ≠ 0x07 then d
    else if bitOf (x.dw 10) 31 then d.complete p scNotSaveable 0
    else if c.granted.isSome then d.complete p scSequence 0
    else if nsq = 65535 ∨ ncq = 65535 then d.complete p scInvalidField 0
    else
      let most := d.cfgv (0x600 + x.ctrl) 3
      let g := (Nat.min (nsq + 1) (Nat.min most d.nvme.poolSq), Nat.min (ncq + 1) (Nat.min most d.nvme.poolCq))
      let d1 := d.setCtrl x.ctrl { c with granted := some g }
      let d2 := { d1 with nvme := { d1.nvme with poolSq := d.nvme.poolSq - g.1, poolCq := d.nvme.poolCq - g.2 } }
      d2.tickFree.tickFree.complete p scOk (d.grantWord g)
/-- SET_FEATURES_NUMBER_OF_QUEUES. -/
def execSetFeaturesNumberOfQueues (p : Pen) (s : State) : Out := s.apply fun d => d.setQueues p.val

/-- Time of the Timestamp feature, in ms. -/
def Dev.timestampMs (d : Dev) : Nat :=
  match d.nvme.timestamp with
  | some (ms, t) => (ms + (d.now - t) / 1000000) % 2 ^ 48
  | none => d.now / 1000000 % 2 ^ 48
/-- The current value of a feature: dword 0 and data, or a status. -/
def Dev.featureNow (d : Dev) (k nsid fid v : Nat) : Except Nat (Nat × Bytes) :=
  let c := d.ctrl k
  let w := c.features.get 0
  match fid with
  | 0x01 => .ok (w fid, [])
  | 0x02 => .ok (c.reqPs, [])
  | 0x04 =>
    if 7 < bitsOf v 19 16 ∨ 1 < bitsOf v 21 20 then .error scInvalidField else .ok (w (tempKey (bitsOf v 19 16) (bitsOf v 21 20)), [])
  | 0x05 => .ok (w fid, [])
  | 0x07 => .ok (d.grantWord c.grant, [])
  | 0x08 => .ok (w fid, [])
  | 0x09 => if d.vectors k ≤ v % 65536 then .error scInvalidField else .ok (v % 65536 + 65536 * bit (bitOf (w (0x900 + v % 65536)) 16), [])
  | 0x0A => .ok (w fid, [])
  | 0x0B => .ok (w fid, [])
  | 0x0C => .ok (w fid, padTo 256 (c.featData.get [] fid))
  | 0x0E => .ok (0, leBytes 6 d.timestampMs ++ d.freeRun 2)
  | 0x10 => .ok (w fid, [])
  | 0x11 => .ok (w fid, [])
  | 0x1D => if v % 65536 ≠ 1 then .error scInvalidField else .ok (d.nvme.groupFeatures.get 0 fid, [])
  | 0x1E =>
    if 64 ≤ v % 65536 then .error scInvalidField
    else
      let ts := (List.range 256).filter (fun t => (d.nvme.groupFeatures.get? (0x1E0000 + v % 65536 * 256 + t)).isSome)
      .ok (ts.length, ts.flatMap (fun t => leBytes 1 t ++ leBytes 1 (d.nvme.groupFeatures.get 0 (0x1E0000 + v % 65536 * 256 + t))))
  | 0x81 => .ok (1, padTo 16 (c.featData.get [] fid))
  | 0x82 => if d.attached nsid k then .ok (w (0x820000 + nsid), []) else .error scInvalidNs
  | 0x83 => if d.attached nsid k then .ok (bit (d.nspace nsid).resv.ptpl, []) else .error scInvalidNs
  | _ => .error scInvalidField
/-- Get Features: SEL 0 the current value; 1 and 2 the default, which is a controller's value after reset; 3 capabilities, which the manual does not
state. -/
def Dev.featureGet (d : Dev) (k nsid dw10 v : Nat) : Except Nat (Nat × Bytes) :=
  let sel := bitsOf dw10 10 8
  let fid := bitsOf dw10 7 0
  if 3 < sel then .error scInvalidField
  else if sel = 1 ∨ sel = 2 then
    (d.modCtrl k (fun c => { c with features := [], featData := [], reqPs := 0, granted := none })).featureNow k nsid fid v
  else if sel = 3 then (d.featureNow k nsid fid v).map (fun _ => (Config.freeNat d.free % 2 ^ 32, []))
  else d.featureNow k nsid fid v
/-- GET_FEATURES. -/
def Dev.getFeatures (d : Dev) (p : Nat) : Dev :=
  d.admin p 0x0A fun x =>
    if d.moversHalted x.ctrl then d
    else match d.featureGet x.ctrl x.nsid (x.dw 10) (x.dw 11) with
      | .error st => d.complete p st 0
      | .ok (v, b) =>
        let d1 := d.tickFree.tickFree
        (if b = [] then d1 else d1.emit (.hostData x.ctrl x.cid 0 b)).complete p scOk v
/-- GET_FEATURES. -/
def execGetFeatures (p : Pen) (s : State) : Out := s.apply fun d => d.getFeatures p.val

/-! ### Identify (R137) -/

/-- A power state descriptor of Table 18-4: maximum power in 10 mW, NOPS, ENLAT and EXLAT. -/
def psDescriptor : Nat → Nat × Nat × Nat × Nat
  | 0 => (7200, 0, 0, 0)
  | 1 => (4500, 0, 100, 100)
  | 2 => (700, 1, 6000, 100)
  | 3 => (500, 1, 8000, 25000)
  | _ => (200, 1, 10000, 160000)
/-- Its bytes: MP, flags, latencies, and RRT, RRL, RWT, RWL equal to the state's number (R459). -/
def psBytes (i : Nat) : Bytes :=
  let s := psDescriptor i
  leBytes 2 s.1 ++ leBytes 1 0 ++ leBytes 1 (2 * s.2.1) ++ leBytes 4 s.2.2.1 ++ leBytes 4 s.2.2.2 ++ leBytes 4 (i * 0x01010101)
/-- Identify Controller. -/
def Dev.idController (d : Dev) (k : Nat) : Bytes :=
  d.page 4096 ([d.lowBits 76 3 (3 + 4 * bit (!d.isPf k)), (77, leBytes 1 9), (78, leBytes 2 (k + 1)), (80, leBytes 4 0x00020100), (111, leBytes 1 1),
    (256, leBytes 2 0xCF), (259, leBytes 1 15), d.lowBits 260 4 0x14, (262, leBytes 1 255), (263, leBytes 1 4), d.lowBits 265 0 1,
    (266, leBytes 2 (d.cfgv 0x013 2 + 273)), (268, leBytes 2 388), (270, leBytes 2 2), (272, leBytes 8 0), d.lowBits 322 0 1, d.lowBits 328 2 3,
    (340, leBytes 2 1), (516, leBytes 4 1024), (520, leBytes 2 0xED), (522, leBytes 2 0), (525, leBytes 1 0)]
    ++ (List.range 5).map (fun i => (2048 + 32 * i, psBytes i)))
/-- The five LBA formats (Table 5-13): metadata size and data size exponent. -/
def lbafBytes : Bytes :=
  (List.range 5).flatMap (fun f => leBytes 2 (lbaFormat f).2 ++ leBytes 1 (if (lbaFormat f).1 = 512 then 9 else 12))
/-- Bytes 128 to 147 of Identify Namespace: each format's relative performance stays free. -/
def lbafPart : List (Nat × Bytes) :=
  (List.range 5).map (fun f => (128 + 4 * f, sliceOf lbafBytes (3 * f) 3))
/-- Identify Namespace. NAWUN is one IU (feature 0x0A). -/
def Dev.idNamespace (d : Dev) (n : Nat) : Bytes :=
  let x := d.nspace n
  d.page 4096 ([(0, leBytes 8 x.nsze), (8, leBytes 8 x.ncap), (25, leBytes 1 4), (26, leBytes 1 (x.lbaf + 16 * bit x.extended)), d.lowBits 27 1 3,
    d.lowBits 28 2 7, (29, leBytes 1 (x.pi + 8 * bit x.piFirst)), (30, leBytes 1 1), d.lowBits 31 0 1, d.lowBits 33 2 1,
    (34, leBytes 2 (d.iuKib * 1024 / x.lbaSize - 1)), (102, leBytes 2 1)] ++ lbafPart)
/-- Identify Namespace for the broadcast NSID: what all namespaces share. -/
def Dev.idCommon (d : Dev) : Bytes := d.page 4096 ([(25, leBytes 1 4), d.lowBits 27 1 3, (30, leBytes 1 1), d.lowBits 33 2 1] ++ lbafPart)
/-- A list of namespaces above an NSID. -/
def nsList (ns : List Nat) (above : Nat) : Bytes := padTo 4096 ((ns.filter (fun n => decide (above < n))).flatMap (leBytes 4))
/-- A controller list from a CNTLID on. -/
def ctrlList (ks : List Nat) (least : Nat) : Bytes :=
  let l := (ks.map (· + 1)).filter (fun k => decide (least ≤ k))
  padTo 4096 (leBytes 2 l.length ++ l.flatMap (leBytes 2))
/-- The virtual functions of a physical function. -/
def Dev.secondaries (d : Dev) (k : Nat) : List Nat :=
  if d.isPf k then (List.range 128).filter (fun j => d.linkOf j == d.linkOf k && !d.isPf j) else []
/-- The secondary controller list of a controller, from a CNTLID on. -/
def Dev.secondaryList (d : Dev) (k least : Nat) : Bytes :=
  let l := (d.secondaries k).filter (fun j => decide (least ≤ j + 1))
  padTo 4096 (leBytes 1 l.length ++ zeros 31 ++ l.flatMap (fun j =>
    leBytes 2 (j + 1) ++ leBytes 2 (k + 1) ++ leBytes 1 (bit (d.ctrl j).online) ++ zeros 3 ++ leBytes 2 (j - k) ++ zeros 22))
/-- Identify: its data, or a status. -/
def Dev.identify (d : Dev) (k nsid dw10 dw11 : Nat) : Except Nat Bytes :=
  let cns := bitsOf dw10 7 0
  let id := bitsOf dw10 31 16
  let csi := bitsOf dw11 31 24
  let mine := d.namespaces.filter (fun n => d.attached n k)
  let valid := decide (1 ≤ nsid) && decide (nsid ≤ 1024)
  match cns with
  | 0x00 =>
    if nsid = 0xFFFFFFFF then .ok d.idCommon
    else if !valid then .error scInvalidNs
    else if d.attached nsid k then .ok (d.idNamespace nsid) else .ok (zeros 4096)
  | 0x01 => .ok (d.idController k)
  | 0x02 => if 0xFFFFFFFE ≤ nsid then .error scInvalidNs else .ok (nsList mine nsid)
  | 0x03 => if d.attached nsid k then .ok (d.freeRun 4096) else .error scInvalidNs
  | 0x05 => if csi ≠ 0 then .error scInvalidField else if d.attached nsid k then .ok (d.freeRun 4096) else .error scInvalidNs
  | 0x06 => if csi ≠ 0 then .error scInvalidField else .ok (d.freeRun 4096)
  | 0x07 => if csi ≠ 0 then .error scInvalidField else if 0xFFFFFFFE ≤ nsid then .error scInvalidNs else .ok (nsList mine nsid)
  | 0x08 => if d.attached nsid k then .ok (d.page 4096 [(1, leBytes 1 1)]) else .error scInvalidNs
  | 0x10 => if 0xFFFFFFFE ≤ nsid then .error scInvalidNs else .ok (nsList d.namespaces nsid)
  | 0x11 => if !valid then .error scInvalidNs else if (d.nspace nsid).exists_ then .ok (d.idNamespace nsid) else .ok (zeros 4096)
  | 0x12 =>
    if !valid ∨ !(d.nspace nsid).exists_ then .error scInvalidNs
    else .ok (ctrlList ((List.range 128).filter (fun j => d.attached nsid j)) id)
  | 0x13 => .ok (ctrlList (List.range 128) id)
  | 0x15 => .ok (d.secondaryList k id)
  | 0x1C => .ok (leBytes 8 1 ++ zeros 4088)
  | _ => .error scInvalidField
/-- IDENTIFY. -/
def Dev.identifyCmd (d : Dev) (p : Nat) : Dev :=
  d.admin p 0x06 fun x =>
    if d.moversHalted x.ctrl then d
    else match d.identify x.ctrl x.nsid (x.dw 10) (x.dw 11) with
      | .error st => d.complete p st 0
      | .ok b => d.tickFree.completeData p b
/-- IDENTIFY. -/
def execIdentify (p : Pen) (s : State) : Out := s.apply fun d => d.identifyCmd p.val

end Sys2Proof.Machine
end

