-- ==== Sys2Proof/Machine/AdminNs.lean ====
section
/-! DEFINITION. Namespace Management and Attachment, Virtualization Management, Format NVM, Sanitize, Security Send and Receive
(R125, R134 to R137, R152, R154, R214, R215, R220, R230, R278, R297, R299, R417, R422). Field places and status codes that NVMe gives, and not the
manual, are PRESUMED (assumption log 30). -/

namespace Sys2Proof.Machine

/-! ### Capacity (R215, R220, R278) -/

/-- IU_COUNT of a size: LBAs of b bytes in IUs of u KiB, rounded up. -/
def iuCountOf (nsze b u : Nat) : Nat := (nsze * b + u * 1024 - 1) / (u * 1024)
/-- A total of IUs stays within the map limit and the flash-side limit. -/
def Dev.capacityOk (d : Dev) (used : Nat) : Bool := decide (used ≤ d.mapLimit) && decide (0 ≤ d.spareFor used)
/-- The lowest DIU at which a range fits beside the ranges given (base, count). -/
def lowestFit (taken : List (Nat × Nat)) (n : Nat) : Nat :=
  let rs := sortOn (fun r : Nat × Nat => r.1) (taken.filter (fun r => r.2 != 0))
  rs.foldl (fun a r => if a + n ≤ r.1 then a else Nat.max a (r.1 + r.2)) 0
/-- The DIU range of a namespace. -/
def Dev.iuSpan (d : Dev) (n : Nat) : Nat × Nat := (d.iuBase n, d.iuCount n)
/-- Sets the DIU range of a namespace. -/
def Dev.setSpan (d : Dev) (n base count : Nat) : Dev := (d.setRoField (cfgId (0x1FF + n) 0x10) base).setRoField (cfgId (0x1FF + n) 0x11) count
/-- S0 is the spare after a format or a Namespace Management commit (R299). -/
def Dev.noteSpare (d : Dev) : Dev := { d with drove := { d.drove with s0 := (d.spareFor d.iuUsed).toNat } }

/-! ### Formats (R152) -/

/-- The status that refuses an LBA format: unknown, 512-byte data on a 16 KiB IU, or protection information without metadata. -/
def formatBad (lbaf pi iuKib : Nat) : Nat :=
  if 4 < lbaf ∨ ((lbaFormat lbaf).1 = 512 ∧ iuKib = 16) ∨ (pi ≠ 0 ∧ (lbaFormat lbaf).2 = 0) then scFormat
  else if 3 < pi then scInvalidField
  else 0

/-! ### Namespace Management (R134, R136, R215) -/

/-- Attachment fields of a namespace with a value. -/
def attachFields (n lo hi : Nat) : List (Nat × Nat) := [(cfgId (0x1FF + n) 1, lo), (cfgId (0x1FF + n) 2, hi)]
/-- The committed attachment set of a namespace, as one 128-bit number. -/
def Dev.attachSet (d : Dev) (n : Nat) : Nat := d.committed (cfgId (0x1FF + n) 1) + 2 ^ 64 * d.committed (cfgId (0x1FF + n) 2)
/-- What a commit of a command came to: the status where it failed. An outcome of 0x02 leaves the command waiting. -/
def commitStatus (r : Nat) : Nat := if r = 3 then scDenied else scInternal
/-- The attachment sets of controllers whose own set changed are reported to them: the list of changed namespaces, and an event where their
Asynchronous Event Configuration permits it. -/
def Dev.noteChanged (d : Dev) (n : Nat) (ks : List Nat) : Dev :=
  ks.foldl (fun (d : Dev) k =>
    if !(d.ctrl k).en then d
    else
      let d1 := d.modCtrl k (fun c => { c with changedNs := addOnce n c.changedNs })
      if bitOf ((d1.ctrl k).features.get 0 0x0B) 8 then d1.asyncEvent k 2 0 4 else d1) d
/-- The namespace a create asks for. One that lists no placement handle takes handle 0 (DESIGN CHOICE, assumption log 52). -/
def newNamespace (data : Bytes) : NsSt :=
  let nh := leAt data 392 2
  let hs := (List.range nh).map (fun i => leAt data (512 + 2 * i) 2)
  { NsSt.init with
    exists_ := true, nsze := leAt data 0 8, ncap := leAt data 8 8, lbaf := bitsOf (leAt data 26 1) 3 0, extended := bitOf (leAt data 26 1) 4,
    pi := leAt data 29 1 % 8, piFirst := bitOf (leAt data 29 1) 3, handles := if nh = 0 then [0] else hs }
/-- The status that refuses a create; 0 when it may go on. -/
def Dev.createBad (d : Dev) (x : NsSt) : Nat :=
  if formatBad x.lbaf x.pi d.iuKib ≠ 0 then formatBad x.lbaf x.pi d.iuKib
  else if x.nsze = 0 ∨ 64 < x.handles.length ∨ x.handles.any (fun h => decide (64 ≤ h)) then scInvalidField
  else if x.nsze ≠ x.ncap then scThin
  else 0
/-- The lowest NSID without a namespace. -/
def Dev.freeNsid (d : Dev) : Option Nat := ((List.range 1024).map (· + 1)).find? (fun n => !(d.nspace n).exists_)
/-- Create: by a commit of an empty attachment set on behalf of the controller; generation 0, or the lowest free entry, is current with a
generated key (Table 16-4). -/
def Dev.nsCreate (d : Dev) (p : Nat) (x : PenSt) (data : Bytes) (fails : TallyFails) : Dev :=
  let ns := newNamespace data
  let cnt := iuCountOf ns.nsze ns.lbaSize d.iuKib
  let base := lowestFit (d.namespaces.map d.iuSpan) cnt
  let st := d.createBad ns
  if st ≠ 0 then d.complete p st 0
  else match d.freeNsid with
    | none => d.complete p scNsidUnavailable 0
    | some n =>
      if !d.capacityOk (d.iuUsed + cnt) ∨ d.mapLimit < base + cnt then d.complete p scCapacity 0
      else if !d.holdsCrook x.ctrl then d.complete p scDenied 0
      else if (d.newGeneration n).isNone then d
      else
        let r := d.ownCommit (some x.ctrl) (attachFields n 0 0) fails
        if r.2 = 2 then d
        else if r.2 ≠ 0 then r.1.complete p (commitStatus r.2) 0
        else
          let d1 := (r.1.setNspace n { ns with key := (r.1.nspace n).key }).setSpan n base cnt
          match d1.newGeneration n with
          | some d2 => d2.noteSpare.complete p scOk n
          | none => r.1
/-- Delete of one namespace, once nothing is attached to it and none of its commands is left: the record, every generation retired, its range given
back; none while the record cannot be placed. -/
def Dev.nsDelete (d : Dev) (n : Nat) : Option Dev :=
  (d.nsRecord n).map (fun d1 =>
    let d2 := (d1.retireCurrent n).1
    ((d2.setNspace n { NsSt.init with key := (d2.nspace n).key }).setSpan n 0 0).modRange n (fun _ => LockRange.init))
/-- A delete of several namespaces. -/
def Dev.nsDeletes (d : Dev) : List Nat → Option Dev
  | [] => some d
  | n :: t => (d.nsDelete n).bind (fun x => x.nsDeletes t)
/-- Commands that name one of some namespaces are in pens. -/
def Dev.nsInUse (d : Dev) (ns : List Nat) : Bool := d.nvme.pens.any (fun e => !e.2.isAdmin && ns.contains e.2.nsid && e.2.due.isNone)
/-- Delete: first the commit that detaches every controller; the namespace goes when its commands have ended (R136). -/
def Dev.nsRemove (d : Dev) (p : Nat) (x : PenSt) (fails : TallyFails) : Dev :=
  let ns := if x.nsid = 0xFFFFFFFF then d.namespaces else if (d.nspace x.nsid).exists_ ∧ x.nsid ≤ 1024 then [x.nsid] else []
  let held := ns.filter (fun n => d.attachSet n != 0)
  if ns = [] then d.complete p scInvalidNs 0
  else if !d.holdsCrook x.ctrl then d.complete p scDenied 0
  else if held ≠ [] then
    let r := d.ownCommit (some x.ctrl) (held.flatMap (fun n => attachFields n 0 0)) fails
    if r.2 = 2 then d
    else if r.2 ≠ 0 then r.1.complete p (commitStatus r.2) 0
    else held.foldl (fun (y : Dev) n => y.noteChanged n ((List.range 128).filter (fun k => d.attached n k && k != x.ctrl))) r.1
  else if d.nsInUse ns ∨ d.cfg.due.any (fun e => ns.contains (e.1 - 0x1FF)) then d
  else match d.nsDeletes ns with
    | none => d
    | some d1 => d1.noteSpare.complete p scOk 0
/-- NAMESPACE_MANAGEMENT, by a physical function. -/
def Dev.nsManage (d : Dev) (p : Nat) (data : Bytes) (fails : TallyFails) : Dev :=
  d.admin p 0x0D fun x =>
    if d.moversHalted x.ctrl then d
    else if !d.isPf x.ctrl then d.complete p scInvalidField 0
    else match x.dw 10 % 16 with
      | 0 => if bitsOf (x.dw 11) 31 24 ≠ 0 then d.complete p scInvalidField 0 else d.nsCreate p x data fails
      | 1 => d.nsRemove p x fails
      | _ => d.complete p scInvalidField 0
/-- NAMESPACE_MANAGEMENT: a pen, the data structure of a create, and the Tally slots that fail. -/
def execNamespaceManagement (p : Pen) (data : Bytes) (fails : TallyFails) (s : State) : Out := s.apply fun d => d.nsManage p.val data fails

/-! ### Namespace Attachment (R136) -/

/-- The controllers of a list: indices, none where an identifier names no controller. -/
def listed (data : Bytes) : Option (List Nat) :=
  let n := leAt data 0 2
  let ids := (List.range (Nat.min n 2047)).map (fun i => leAt data (2 + 2 * i) 2)
  if n = 0 ∨ 2047 < n ∨ ids.any (fun i => decide (i = 0) || decide (128 < i)) then none else some (ids.map (· - 1))
/-- NAMESPACE_ATTACHMENT: a commit of the two attachment fields; it completes when the namespace block has applied it. -/
def Dev.nsAttach (d : Dev) (p : Nat) (data : Bytes) (fails : TallyFails) : Dev :=
  d.admin p 0x15 fun x =>
    let n := x.nsid
    let att := x.dw 10 % 16
    if d.moversHalted x.ctrl then d
    else if !d.isPf x.ctrl ∨ 1 < att then d.complete p scInvalidField 0
    else if n = 0 ∨ 1024 < n ∨ !(d.nspace n).exists_ then d.complete p scInvalidNs 0
    else match listed data with
      | none => d.complete p scCtrlList 0
      | some ks =>
        if att = 0 ∧ ks.any (fun k => d.attached n k) then d.complete p scAttached 0
        else if att = 1 ∧ ks.any (fun k => !d.attached n k) then d.complete p scNotAttached 0
        else
          let m := ks.foldl (fun (m : Nat) k => setBits m k k (1 - att)) (d.attachSet n)
          let r := d.ownCommitAs (0x20000 + p) (some x.ctrl) (attachFields n (m % 2 ^ 64) (m / 2 ^ 64)) fails
          if r.2 = 2 then d
          else if r.2 ≠ 0 then r.1.complete p (commitStatus r.2) 0
          else
            let d1 := r.1.noteChanged n (ks.filter (fun k => k != x.ctrl))
            if d1.cfg.due.any (fun e => e.2.2 == 0x20000 + p) then d1.modPen p (fun y => { y with stage := .external }) else d1
/-- NAMESPACE_ATTACHMENT: a pen, the controller list, and the Tally slots that fail. -/
def execNamespaceAttachment (p : Pen) (data : Bytes) (fails : TallyFails) (s : State) : Out := s.apply fun d => d.nsAttach p.val data fails

/-! ### Virtualization Management (R137) -/

/-- VIRTUALIZATION_MANAGEMENT: a physical function brings one of its virtual functions offline (7) or online (9). -/
def Dev.virtualize (d : Dev) (p : Nat) : Dev :=
  d.admin p 0x1C fun x =>
    let act := x.dw 10 % 16
    let id := bitsOf (x.dw 10) 31 16
    if !d.isPf x.ctrl ∨ (act ≠ 7 ∧ act ≠ 9) then d.complete p scInvalidField 0
    else if id = 0 ∨ !(d.secondaries x.ctrl).contains (id - 1) then d.complete p scCtrlId 0
    else if act = 9 then (d.modCtrl (id - 1) (fun c => { c with online := true })).complete p scOk 0
    else ((d.resetCtrl (id - 1) 2).modCtrl (id - 1) (fun c => { c with online := false })).complete p scOk 0
/-- VIRTUALIZATION_MANAGEMENT. -/
def execVirtualizationManagement (p : Pen) (s : State) : Out := s.apply fun d => d.virtualize p.val

/-! ### Format NVM and Sanitize (R214, R215, R297, R417) -/

/-- The namespace-exclusive command of an opcode that is Held. -/
def Dev.heldAdmin (d : Dev) (p op : Nat) : Option PenSt :=
  match d.pen p with
  | some x => if x.isAdmin && x.opcode == op && x.stage == .executing && x.due.isNone then some x else none
  | none => none
/-- A command that covers every namespace ends the losses that keep critical warning bit 2 (R236, R268, R316, R546). -/
def Dev.integrityClear (d : Dev) (ns : List Nat) : Dev :=
  let d1 := { d with drove := { d.drove with integrityNs := d.drove.integrityNs.filter (fun n => !ns.contains n) } }
  if d.namespaces.all (fun n => ns.contains n) then { d1 with drove := { d1.drove with integrityLost := false, integrityNs := [] } } else d1
/-- A namespace under a new LBA format: its size in bytes is kept, in whole LBAs. -/
def NsSt.reformat (x : NsSt) (dw : Nat) : NsSt :=
  let f := bitsOf dw 3 0
  let n := x.nsze * x.lbaSize / (lbaFormat f).1
  { x with lbaf := f, extended := bitOf dw 4, pi := bitsOf dw 7 5, piFirst := bitOf dw 8, nsze := n, ncap := n }
/-- The IU size, width and parity that a format of every namespace adopts. -/
def Dev.adoptNext (d : Dev) : Dev :=
  ((d.setRoField (cfgId 8 0x11) (d.cfgv 8 0x10)).setRoField (cfgId 7 4) (d.cfgv 7 3)).setRoField (cfgId 7 2) (d.cfgv 7 1)
/-- New formats and ranges: a format of every namespace packs them from DIU 0 in ascending NSID order; another keeps the base. -/
def Dev.reformatAll (d : Dev) (ns : List Nat) (dw : Nat) (all : Bool) : Dev :=
  (ns.foldl (fun (acc : Dev × Nat) n =>
    let x := (acc.1.nspace n).reformat dw
    let c := iuCountOf x.nsze x.lbaSize acc.1.iuKib
    ((acc.1.setNspace n x).setSpan n (if all then acc.2 else acc.1.iuBase n) c, acc.2 + c)) (d, 0)).1
/-- The first format of all finds no census in the erase log: the blocks that the flash maker marked bad are retired with reason 0x05, and the first
census follows (R297). -/
def Dev.firstCensus (d : Dev) (bad : List (Nat × Nat)) : Dev :=
  if d.drove.elog.anyCensus ∨ d.drove.elog.census then d
  else (bad.foldl (fun (d : Dev) b => if d.diePresent b.1 ∧ b.2 < d.dieGroups b.1 then d.retireBlock b.1 b.2 5 0 else d) d).censusStart
/-- FORMAT_NVM, Held: the Crook, the format, the capacity; then the records and, with SES 1 or 2, new keys; then the new format. -/
def Dev.format (d : Dev) (p : Nat) (bad : List (Nat × Nat)) : Dev :=
  match d.heldAdmin p 0x80 with
  | none => d
  | some x =>
    let dw := x.dw 10
    let all := x.nsid == 0xFFFFFFFF
    let ns := if all then d.namespaces else if x.nsid ≤ 1024 ∧ (d.nspace x.nsid).exists_ then [x.nsid] else []
    let next := fun (y : Dev) => (if all then y.adoptNext else y).reformatAll ns dw all
    let u := if all then (if d.cfgv 8 0x10 = 1 then 16 else 4) else d.iuKib
    let st := formatBad (bitsOf dw 3 0) (bitsOf dw 7 5) u
    if !d.holdsCrook x.ctrl then d.complete p scDenied 0
    else if !all ∧ ns = [] then d.complete p scInvalidNs 0
    else if 2 < bitsOf dw 11 9 ∨ bitsOf dw 13 12 ≠ 0 then d.complete p scInvalidField 0
    else if st ≠ 0 then d.complete p st 0
    else if !(next d).capacityOk (next d).iuUsed then d.complete p scCapacity 0
    else match (if bitsOf dw 11 9 = 0 then d.nsRecords ns else (d.changeKeys ns).map (fun r => r.1)) with
      | none => d
      | some d1 =>
        let d2 := (next d1).integrityClear ns
        ((if all then d2.firstCensus bad else d2).noteSpare).complete p scOk 0
/-- FORMAT_NVM: a pen, and the blocks (die and block group) that the spare bytes of R297 mark bad. -/
def execFormatNvm (p : Pen) (bad : List (DieId × BitVec 12)) (s : State) : Out :=
  s.apply fun d => d.format p.val (bad.map (fun b => (b.1.toNat, b.2.toNat)))
/-- SANITIZE, Held: Block Erase and Crypto Erase give every namespace a new key, and the command completes when every generation that it retired has
been released. -/
def Dev.sanitize (d : Dev) (p : Nat) : Dev :=
  match d.heldAdmin p 0x84 with
  | none => d
  | some x =>
    let act := x.dw 10 % 8
    if act = 1 then d.complete p scOk 0
    else if act ≠ 2 ∧ act ≠ 4 then d.complete p scInvalidField 0
    else match d.changeKeys d.namespaces with
      | none => d
      | some (d1, gens) =>
        let d2 := { d1 with nvme := { d1.nvme with sanitizeStatus := 1 } }
        (d2.integrityClear d2.namespaces).awaitRelease p gens
/-- SANITIZE. -/
def execSanitize (p : Pen) (s : State) : Out := s.apply fun d => d.sanitize p.val

/-! ### Security Send and Receive (R422) -/

/-- The security protocols of Table 16-10. -/
def secProtocols : List Nat := [0x00, 0x01, 0x02, 0xE8, 0xF0]
/-- A number of two bytes, most significant first. -/
def be2 (v : Nat) : Bytes := (leBytes 2 v).reverse
/-- Security protocol information (SPC layout, PRESUMED, assumption log 40): the protocols supported, or no certificate. -/
def secInfo (spsp : Nat) : Option Bytes :=
  if spsp = 0 then some (zeros 6 ++ be2 5 ++ secProtocols.flatMap (leBytes 1)) else if spsp = 1 then some (zeros 4) else none
/-- What a Security Receive of protocol 0x01 or 0x02 returns: Level 0 Discovery at ComID 0x0001, whose bytes the manual does not state; at another ComID
the status of the controller's last method in a response packet, or an empty packet (TCG layout, PRESUMED, assumption log 40). -/
def Dev.tcgReceive (d : Dev) (k spsp len : Nat) : Bytes :=
  if spsp = 1 then d.freeRun len
  else match d.tcg.replies.get? k with
    | none => zeros 4 ++ be2 spsp ++ zeros 14
    | some st =>
      putAt 56 ([0xF0, 0xF1, 0xF9, 0xF0, BitVec.ofNat 8 st, 0x00, 0x00, 0xF1] : Bytes) (putAt 4 (be2 spsp) (d.freeRun 64))
/-- SECURITY_SEND of a protocol that no command of its own serves: an unlisted protocol, protocol 0x00, a lifecycle SPSP other than 0x0002, an SPDM
request the device does not support, and a lifecycle request of an unknown TYPE. -/
def Dev.secSend (d : Dev) (p : Nat) (data : Bytes) (fails : TallyFails) : Dev :=
  d.admin p 0x81 fun x =>
    let sp := d.secp p
    if d.moversHalted x.ctrl then d
    else if sp = 0 ∨ !secProtocols.contains sp ∨ (sp = 0xF0 ∧ (d.spsp p ≠ 2 ∨ !d.isPf x.ctrl)) then d.complete p scInvalidField 0
    else if sp = 0xE8 ∧ ! [0x81, 0x82, 0x83, 0x84, 0x85, 0x86, 0xE0, 0xE1, 0xE3].contains (leAt data 1 1) then
      ({ d with spdm := { d.spdm with replies := d.spdm.replies.set x.ctrl (spdmError errUnsupported) } } : Dev).complete p scOk 0
    else if sp = 0xF0 ∧ (leAt data 6 1 = 0 ∨ 8 < leAt data 6 1) then
      if !d.holdsCrook x.ctrl then d.complete p scDenied 0
      else (d.lcRequest Dev.eraseAll data (x.dw 11) (x.ctrl + 1) true fails).complete p scOk 0
    else d
/-- SECURITY_SEND: a pen, its data, and the Tally slots that fail should a refusal be recorded. -/
def execSecuritySend (p : Pen) (data : Bytes) (fails : TallyFails) (s : State) : Out := s.apply fun d => d.secSend p.val data fails
/-- SECURITY_RECEIVE of a protocol that no command of its own serves: protocol information, TCG and SPDM answers, and what is refused. -/
def Dev.secReceive (d : Dev) (p : Nat) : Dev :=
  d.admin p 0x82 fun x =>
    let sp := d.secp p
    let len := x.dw 11
    if d.moversHalted x.ctrl then d
    else if !secProtocols.contains sp ∨ 0x200000 < len ∨ (sp = 0xF0 ∧ (d.spsp p = 0 ∨ d.spsp p = 2 ∨ 6 < d.spsp p ∨ !d.isPf x.ctrl)) then
      d.complete p scInvalidField 0
    else if sp = 0 then
      match secInfo (d.spsp p) with
      | some b => d.completeData p (b.take len)
      | none => d.complete p scInvalidField 0
    else if sp = 1 ∨ sp = 2 then
      let d1 := d.tickFree.completeData p ((d.tcgReceive x.ctrl (d.spsp p) len).take len)
      if d.spsp p = 1 then d1 else { d1 with tcg := { d1.tcg with replies := d1.tcg.replies.erase x.ctrl } }
    else if sp = 0xE8 then
      match d.spdm.replies.get? x.ctrl with
      | some b => ({ d with spdm := { d.spdm with replies := d.spdm.replies.erase x.ctrl } } : Dev).completeData p (b.take len)
      | none => d.complete p scSequence 0
    else d
/-- SECURITY_RECEIVE. -/
def execSecurityReceive (p : Pen) (s : State) : Out := s.apply fun d => d.secReceive p.val

end Sys2Proof.Machine
end

