-- ==== Sys2Proof/Machine/BexobAlu.lean ====
section
/-! DEFINITION. Integer, immediate, branch and jump instructions of the Bexob cores (R74, R77, R78, Table 3-3). -/

namespace Sys2Proof.Machine

/-- A register operation of format R: rd takes a function of rs1 and rs2. -/
def Dev.runAlu (d : Dev) (c : Nat) (f : Fields) (op : Nat) (g : Word → Word → Word) : Dev :=
  d.runInstr c f (opR op) (d.writes c f (g (d.x c f) (d.y c f)))
/-- A register operation with rs2 zero: rd takes a function of rs1. -/
def Dev.runAlu1 (d : Dev) (c : Nat) (f : Fields) (op : Nat) (g : Word → Word) : Dev :=
  d.runInstr c f (opR1 op) (d.writes c f (g (d.x c f)))
/-- An immediate operation with a sign-extended imm41 (R74). -/
def Dev.runImm (d : Dev) (c : Nat) (f : Fields) (op : Nat) (g : Word → Word → Word) : Dev :=
  d.runInstr c f (opI op) (d.writes c f (g (d.x c f) (sext41 f.imm)))
/-- An immediate operation with a zero-extended imm41 (R74). -/
def Dev.runImmZ (d : Dev) (c : Nat) (f : Fields) (op : Nat) (g : Word → Word → Word) : Dev :=
  d.runInstr c f (opI op) (d.writes c f (g (d.x c f) (zext41 f.imm)))
/-- A shift by imm41[5:0]; imm41[40:6] must be zero (R77). -/
def Dev.runShift (d : Dev) (c : Nat) (f : Fields) (op : Nat) (g : Word → Word → Word) : Dev :=
  d.runInstr c f { opI op with imm := 0x3F } (d.writes c f (g (d.x c f) (zext41 f.imm)))
/-- The target of a branch or of JAL: pc + sext(imm41) × 8 (R74). -/
def Dev.branchTarget (d : Dev) (c : Nat) (f : Fields) : Word := (d.core c).pc + (sext41 f.imm) * 8#64
/-- A branch on a condition of rs1 and rs2 (R78). -/
def Dev.runBranch (d : Dev) (c : Nat) (f : Fields) (op : Nat) (g : Word → Word → Bool) : Dev :=
  d.runInstr c f (opS op) (.ok (d, if g (d.x c f) (d.y c f) then .jump (d.branchTarget c f) else .next))

/-- ADD: Adds rs1 and rs2 modulo 2^64 (R77). -/
def execAdd (c : CoreId) (f : Fields) (s : State) : Out := s.apply fun d => d.runAlu c.val f 0x01 (fun x y => x + y)
/-- SUB: Subtracts rs2 from rs1 modulo 2^64 (R77). -/
def execSub (c : CoreId) (f : Fields) (s : State) : Out := s.apply fun d => d.runAlu c.val f 0x02 (fun x y => x - y)
/-- AND: Bitwise AND (R77). -/
def execAnd (c : CoreId) (f : Fields) (s : State) : Out := s.apply fun d => d.runAlu c.val f 0x03 (fun x y => x &&& y)
/-- OR: Bitwise OR (R77). -/
def execOr (c : CoreId) (f : Fields) (s : State) : Out := s.apply fun d => d.runAlu c.val f 0x04 (fun x y => x ||| y)
/-- XOR: Bitwise XOR (R77). -/
def execXor (c : CoreId) (f : Fields) (s : State) : Out := s.apply fun d => d.runAlu c.val f 0x05 (fun x y => x ^^^ y)
/-- SLL: shift left by rs2[5:0] (R77). -/
def execSll (c : CoreId) (f : Fields) (s : State) : Out := s.apply fun d => d.runAlu c.val f 0x06 alusll
/-- SRL: logical shift right by rs2[5:0] (R77). -/
def execSrl (c : CoreId) (f : Fields) (s : State) : Out := s.apply fun d => d.runAlu c.val f 0x07 alusrl
/-- SRA: arithmetic shift right by rs2[5:0] (R77). -/
def execSra (c : CoreId) (f : Fields) (s : State) : Out := s.apply fun d => d.runAlu c.val f 0x08 alusra
/-- SLT: signed compare (R77). -/
def execSlt (c : CoreId) (f : Fields) (s : State) : Out := s.apply fun d => d.runAlu c.val f 0x09 aluslt
/-- SLTU: unsigned compare (R77). -/
def execSltu (c : CoreId) (f : Fields) (s : State) : Out := s.apply fun d => d.runAlu c.val f 0x0a alusltu
/-- MIN: signed smaller (R77). -/
def execMin (c : CoreId) (f : Fields) (s : State) : Out := s.apply fun d => d.runAlu c.val f 0x0b alumin
/-- MAX: signed larger (R77). -/
def execMax (c : CoreId) (f : Fields) (s : State) : Out := s.apply fun d => d.runAlu c.val f 0x0c alumax
/-- MINU: unsigned smaller (R77). -/
def execMinu (c : CoreId) (f : Fields) (s : State) : Out := s.apply fun d => d.runAlu c.val f 0x0d aluminu
/-- MAXU: unsigned larger (R77). -/
def execMaxu (c : CoreId) (f : Fields) (s : State) : Out := s.apply fun d => d.runAlu c.val f 0x0e alumaxu
/-- MUL: low 64 bits of the product (R77). -/
def execMul (c : CoreId) (f : Fields) (s : State) : Out := s.apply fun d => d.runAlu c.val f 0x0f alumul
/-- MULH: high 64 bits of the signed product (R77). -/
def execMulh (c : CoreId) (f : Fields) (s : State) : Out := s.apply fun d => d.runAlu c.val f 0x10 alumulh
/-- MULHU: high 64 bits of the unsigned product (R77). -/
def execMulhu (c : CoreId) (f : Fields) (s : State) : Out := s.apply fun d => d.runAlu c.val f 0x11 alumulhu
/-- DIV: signed quotient rounded toward zero (R77). -/
def execDiv (c : CoreId) (f : Fields) (s : State) : Out := s.apply fun d => d.runAlu c.val f 0x12 aludiv
/-- DIVU: unsigned quotient (R77). -/
def execDivu (c : CoreId) (f : Fields) (s : State) : Out := s.apply fun d => d.runAlu c.val f 0x13 aludivu
/-- REM: remainder with the sign of rs1 (R77). -/
def execRem (c : CoreId) (f : Fields) (s : State) : Out := s.apply fun d => d.runAlu c.val f 0x14 alurem
/-- REMU: unsigned remainder (R77). -/
def execRemu (c : CoreId) (f : Fields) (s : State) : Out := s.apply fun d => d.runAlu c.val f 0x15 aluremu
/-- CLZ: count of leading zero bits of rs1 (R77). -/
def execClz (c : CoreId) (f : Fields) (s : State) : Out := s.apply fun d => d.runAlu1 c.val f 0x16 aluclz
/-- CTZ: count of trailing zero bits of rs1 (R77). -/
def execCtz (c : CoreId) (f : Fields) (s : State) : Out := s.apply fun d => d.runAlu1 c.val f 0x17 aluctz
/-- POPC: count of one bits of rs1 (R77). -/
def execPopc (c : CoreId) (f : Fields) (s : State) : Out := s.apply fun d => d.runAlu1 c.val f 0x18 alupopc
/-- BSWAP: byte order of rs1 reversed (R77). -/
def execBswap (c : CoreId) (f : Fields) (s : State) : Out := s.apply fun d => d.runAlu1 c.val f 0x19 alubswap
/-- ADDI: adds sext(imm41) to rs1 (R77). -/
def execAddi (c : CoreId) (f : Fields) (s : State) : Out := s.apply fun d => d.runImm c.val f 0x20 (fun x y => x + y)
/-- ANDI: ANDs rs1 with zext(imm41) (R77). -/
def execAndi (c : CoreId) (f : Fields) (s : State) : Out := s.apply fun d => d.runImmZ c.val f 0x21 (fun x y => x &&& y)
/-- ORI: ORs rs1 with zext(imm41) (R77). -/
def execOri (c : CoreId) (f : Fields) (s : State) : Out := s.apply fun d => d.runImmZ c.val f 0x22 (fun x y => x ||| y)
/-- XORI: XORs rs1 with zext(imm41) (R77). -/
def execXori (c : CoreId) (f : Fields) (s : State) : Out := s.apply fun d => d.runImmZ c.val f 0x23 (fun x y => x ^^^ y)
/-- SLLI: shift left by imm41[5:0] (R77). -/
def execSlli (c : CoreId) (f : Fields) (s : State) : Out := s.apply fun d => d.runShift c.val f 0x24 alusll
/-- SRLI: logical shift right by imm41[5:0] (R77). -/
def execSrli (c : CoreId) (f : Fields) (s : State) : Out := s.apply fun d => d.runShift c.val f 0x25 alusrl
/-- SRAI: arithmetic shift right by imm41[5:0] (R77). -/
def execSrai (c : CoreId) (f : Fields) (s : State) : Out := s.apply fun d => d.runShift c.val f 0x26 alusra
/-- SLTI: signed compare with sext(imm41) (R77). -/
def execSlti (c : CoreId) (f : Fields) (s : State) : Out := s.apply fun d => d.runImm c.val f 0x27 aluslt
/-- SLTIU: unsigned compare with sext(imm41) (R77). -/
def execSltiu (c : CoreId) (f : Fields) (s : State) : Out := s.apply fun d => d.runImm c.val f 0x28 alusltu
/-- LUI: imm41 shifted left by 23 (R77). -/
def execLui (c : CoreId) (f : Fields) (s : State) : Out :=
  s.apply fun d => d.runInstr c.val f { opI 0x29 with rs1 := false } (d.writes c.val f (alului f.imm))
/-- AUIPC: pc + sext(imm41) (R77). -/
def execAuipc (c : CoreId) (f : Fields) (s : State) : Out :=
  s.apply fun d => d.runInstr c.val f { opI 0x2A with rs1 := false } (d.writes c.val f ((d.core c.val).pc + sext41 f.imm))
/-- BEQ: branches when rs1 is equal to rs2 (R78). -/
def execBeq (c : CoreId) (f : Fields) (s : State) : Out := s.apply fun d => d.runBranch c.val f 0x30 (fun x y => x == y)
/-- BNE: branches when rs1 is not equal to rs2 (R78). -/
def execBne (c : CoreId) (f : Fields) (s : State) : Out := s.apply fun d => d.runBranch c.val f 0x31 (fun x y => x != y)
/-- BLT: branches when rs1 is signed less to rs2 (R78). -/
def execBlt (c : CoreId) (f : Fields) (s : State) : Out := s.apply fun d => d.runBranch c.val f 0x32 (fun x y => decide (x.toInt < y.toInt))
/-- BGE: branches when rs1 is signed greater or equal to rs2 (R78). -/
def execBge (c : CoreId) (f : Fields) (s : State) : Out := s.apply fun d => d.runBranch c.val f 0x33 (fun x y => decide (y.toInt ≤ x.toInt))
/-- BLTU: branches when rs1 is unsigned less to rs2 (R78). -/
def execBltu (c : CoreId) (f : Fields) (s : State) : Out := s.apply fun d => d.runBranch c.val f 0x34 (fun x y => decide (x.toNat < y.toNat))
/-- BGEU: branches when rs1 is unsigned greater or equal to rs2 (R78). -/
def execBgeu (c : CoreId) (f : Fields) (s : State) : Out := s.apply fun d => d.runBranch c.val f 0x35 (fun x y => decide (y.toNat ≤ x.toNat))
/-- JAL: rd takes pc + 8, and the core continues at pc + sext(imm41) × 8 (R78). -/
def execJal (c : CoreId) (f : Fields) (s : State) : Out :=
  s.apply fun d => d.runInstr c.val f { opI 0x36 with rs1 := false }
    (.ok (d.setRd c.val f ((d.core c.val).pc + 8), .jump (d.branchTarget c.val f)))
/-- JALR: rd takes pc + 8, and the core continues at rs1 + sext(imm41); a target that is not 8-byte aligned traps, with ETVAL the target,
and writes no register (R78). -/
def execJalr (c : CoreId) (f : Fields) (s : State) : Out :=
  s.apply fun d =>
    let t := d.x c.val f + sext41 f.imm
    d.runInstr c.val f (opI 0x37)
      (if t.toNat % 8 ≠ 0 then .error (.fault 4 2 t) else .ok (d.setRd c.val f ((d.core c.val).pc + 8), .jump t))

end Sys2Proof.Machine
end

