-- ==== Sys2Proof/Machine/BexobCfg.lean ====
section
/-! DEFINITION. The configuration and transaction instructions (R69, R97 to R100, R108, R114, R542). -/

namespace Sys2Proof.Machine

/-- A configuration-access trap; ETVAL is the configuration ID (Table 3-13). -/
def cfgFault (detail : Nat) (x : Word) : Trap := .fault 5 detail (BitVec.ofNat 64 (x.toNat % 2 ^ 32))
/-- A manifest permits an access to an ID: bit 0 CGET, bit 1 CSET; field 0xFFFFF covers every field of the block (R69). -/
def manifestAllows (m : List (Nat × Nat)) (id accBit : Nat) : Bool :=
  m.any (fun e => bitOf e.2 accBit && (e.1 == id || (e.1 % 0x100000 == 0xFFFFF && cfgBlock e.1 == cfgBlock id)))
/-- A block is reachable by a module of a controller (R108). -/
def Dev.blockReachable (d : Dev) (k blk : Nat) : Bool :=
  if 0x200 ≤ blk ∧ blk ≤ 0x5FF then d.attached (blk - 0x1FF) k
  else if 0x600 ≤ blk ∧ blk ≤ 0x67F then
    let t := blk - 0x600
    t == k || (d.isPf k && !d.isPf t && d.linkOf t == d.linkOf k)
  else true
/-- The level may access an ID: at O the manifest and R108 decide. -/
def Dev.cfgPermitted (d : Dev) (c id accBit : Nat) : Bool :=
  let k := d.core c
  if k.level ≠ .o then true
  else match k.modRun with
    | some m => manifestAllows m.manifest id accBit && d.blockReachable m.ctrl (cfgBlock id)
    | none => false
/-- The field that an operand names, checked for its existence and then for permission (R97). -/
def Dev.cfgField (d : Dev) (c : Nat) (x : Word) (accBit : Nat) : Except Trap (Nat × FieldInfo) :=
  let id := x.toNat % 2 ^ 32
  match (if 2 ^ 32 ≤ x.toNat then none else d.field id) with
  | none => .error (cfgFault 2 x)
  | some i => if d.cfgPermitted c id accBit then .ok (id, i) else .error (cfgFault 1 x)
/-- The transaction in TXH of the context that executes on a core. -/
def Dev.openTxn (d : Dev) (c : Nat) : Option Txn := (d.cfg.openOf (d.ctxOf c)).getLast?
/-- A TS field that is read joins the conflict set of the context's newest transaction (R114). -/
def Dev.noteRead (d : Dev) (c id : Nat) (i : FieldInfo) : Dev :=
  match d.openTxn c with
  | none => d
  | some t => if i.cls = .ro then d else d.modTxn t.handle (fun t => { t with reads := addOnce id t.reads })
/-- The value CGET returns: what the newest open transaction has staged, else the committed value. -/
def Dev.cgetValue (d : Dev) (c id : Nat) : Word :=
  match (d.openTxn c).bind (fun t => t.staged.get? id) with
  | some v => v
  | none => BitVec.ofNat 64 (d.committed id)
/-- CGET. -/
def execCget (c : CoreId) (f : Fields) (s : State) : Out :=
  s.apply fun d => d.runInstr c.val f (opR1 0x90) (match d.cfgField c.val (d.x c.val f) 0 with
    | .error t => .error t
    | .ok (id, i) => (d.noteRead c.val id i).writes c.val f (d.cgetValue c.val id))
/-- CVER: the version of a field, 0 for a read-only one (R113). -/
def execCver (c : CoreId) (f : Fields) (s : State) : Out :=
  s.apply fun d => d.runInstr c.val f (opR1 0x92) (match d.cfgField c.val (d.x c.val f) 0 with
    | .error t => .error t
    | .ok (id, i) => (d.noteRead c.val id i).writes c.val f (BitVec.ofNat 64 (if i.cls = .ro then 0 else d.version id)))
/-- CSET of a field that the level may set: read-only, limits, then the state of the transaction (R98); the fields whose committed values a
condition across fields used join the conflict set (R542). -/
def Dev.csetField (d : Dev) (c : Nat) (f : Fields) (id : Nat) (i : FieldInfo) : Except Trap (Dev × After) :=
  let y := d.y c f
  let staged : Tab Word := ((d.openTxn c).map (fun t => t.staged)).getD []
  if i.cls = .ro then .error (cfgFault 3 (d.x c f))
  else if d.outOfLimits staged i id y.toNat then .error (cfgFault 4 (d.x c f))
  else match d.openTxn c with
    | none => .error (.fault 6 1 (instrWord 0x91 f))
    | some t =>
      if 256 ≤ t.staged.length ∧ (t.staged.get? id).isNone then .error (.fault 6 3 (instrWord 0x91 f))
      else
        let used := (acrossIds id).filter (fun k => k != id && (t.staged.get? k).isNone)
        .ok (d.modTxn t.handle (fun t => { t with staged := t.staged.set id y, reads := used.foldl (fun l k => addOnce k l) t.reads }), .next)
/-- CSET. -/
def execCset (c : CoreId) (f : Fields) (s : State) : Out :=
  s.apply fun d => d.runInstr c.val f { opR 0x91 with rd := false } (match d.cfgField c.val (d.x c.val f) 1 with
    | .error t => .error t
    | .ok (id, i) => d.csetField c.val f id i)
/-- The controller of the module that executes on a core at O; none for V firmware. -/
def Dev.txnCtrl (d : Dev) (c : Nat) : Option Nat := if (d.core c).level = .o then (d.core c).modRun.map (fun m => m.ctrl) else none
/-- TXB. -/
def execTxb (c : CoreId) (f : Fields) (s : State) : Out :=
  s.apply fun d =>
    let r := d.txBegin (d.ctxOf c.val) (d.txnCtrl c.val) (d.x c.val f).toNat
    d.runInstr c.val f ((opR1 0x98).only [.shepherd] [.v, .o]) (r.1.writes c.val f (BitVec.ofNat 64 r.2))
/-- The handle TXC and TXA act on: x, when it is the context's TXH. -/
def Dev.ownHandle (d : Dev) (c : Nat) (x : Word) : Option Nat :=
  match d.openTxn c with
  | some t => if t.handle = x.toNat then some t.handle else none
  | none => none
/-- TXC: the commit reaches step 1 and the core stalls until its outcome is known (R100, R115). -/
def execTxc (c : CoreId) (f : Fields) (s : State) : Out :=
  s.apply fun d => d.runInstr c.val f ((opR1 0x99).only [.shepherd] [.v, .o]) (match d.ownHandle c.val (d.x c.val f) with
    | none => .error (.fault 6 2 (instrWord 0x99 f))
    | some h => .ok ((d.modCore c.val (fun k => { k with run := .inTxc f.rd h })).commitStart h, .stay))
/-- TXA: the transaction closes and everything it staged is discarded. -/
def execTxa (c : CoreId) (f : Fields) (s : State) : Out :=
  s.apply fun d => d.runInstr c.val f ({ opR1 0x9A with rd := false }.only [.shepherd] [.v, .o])
    (match d.ownHandle c.val (d.x c.val f) with
     | none => .error (.fault 6 2 (instrWord 0x9A f))
     | some h => .ok (d.dropTxn h, .next))

end Sys2Proof.Machine
end

