-- ==== Sys2Proof/Machine/BexobMem.lean ====
section
/-! DEFINITION. Loads, stores and atomics of the Bexob cores (R44, R47, R79 to R81). -/

namespace Sys2Proof.Machine

/-- The address of a load or store: rs1 + sext(imm41) (R79). -/
def Dev.dataAddr (d : Dev) (c : Nat) (f : Fields) : Nat := (d.x c f + sext41 f.imm).toNat
/-- A load of `n` bytes into rd (R79). -/
def Dev.runLoad (d : Dev) (c : Nat) (f : Fields) (op n : Nat) (signed : Bool) : Dev :=
  d.runInstr c f (opI op) (match d.load c (d.core c).level (d.dataAddr c f) n with
    | .error t => .error t
    | .ok (d1, v) => d1.writes c f (loadExtend signed (leBytes n v)))
/-- A store of the low `n` bytes of rs2 (R79, R80). -/
def Dev.runStore (d : Dev) (c : Nat) (f : Fields) (op n : Nat) : Dev :=
  d.runInstr c f (opS op) (match d.store c (d.core c).level (d.dataAddr c f) n ((d.y c f).toNat % 2 ^ (8 * n)) with
    | .error t => .error t
    | .ok d1 => .ok (d1, .next))
/-- An atomic on the 8 bytes at rs1: rd takes the old value (R81). -/
def Dev.runAmo (d : Dev) (c : Nat) (f : Fields) (op : Nat) (k : Amo) : Dev :=
  d.runInstr c f (opR op) (match d.atomic c (d.core c).level (d.x c f).toNat k (d.y c f) ((d.core c).reg f.rd) with
    | .error t => .error t
    | .ok (d1, old) => d1.writes c f old)

/-- LD: loads 8 bytes (R79). -/
def execLd (c : CoreId) (f : Fields) (s : State) : Out := s.apply fun d => d.runLoad c.val f 0x40 8 false
/-- LW: loads 4 bytes, sign-extended (R79). -/
def execLw (c : CoreId) (f : Fields) (s : State) : Out := s.apply fun d => d.runLoad c.val f 0x41 4 true
/-- LWU: loads 4 bytes, zero-extended (R79). -/
def execLwu (c : CoreId) (f : Fields) (s : State) : Out := s.apply fun d => d.runLoad c.val f 0x42 4 false
/-- LH: loads 2 bytes, sign-extended (R79). -/
def execLh (c : CoreId) (f : Fields) (s : State) : Out := s.apply fun d => d.runLoad c.val f 0x43 2 true
/-- LHU: loads 2 bytes, zero-extended (R79). -/
def execLhu (c : CoreId) (f : Fields) (s : State) : Out := s.apply fun d => d.runLoad c.val f 0x44 2 false
/-- LB: loads 1 byte, sign-extended (R79). -/
def execLb (c : CoreId) (f : Fields) (s : State) : Out := s.apply fun d => d.runLoad c.val f 0x45 1 true
/-- LBU: loads 1 byte, zero-extended (R79). -/
def execLbu (c : CoreId) (f : Fields) (s : State) : Out := s.apply fun d => d.runLoad c.val f 0x46 1 false
/-- SD: stores the low 8 bytes of rs2 (R79, R80). -/
def execSd (c : CoreId) (f : Fields) (s : State) : Out := s.apply fun d => d.runStore c.val f 0x48 8
/-- SW: stores the low 4 bytes of rs2 (R79, R80). -/
def execSw (c : CoreId) (f : Fields) (s : State) : Out := s.apply fun d => d.runStore c.val f 0x49 4
/-- SH: stores the low 2 bytes of rs2 (R79, R80). -/
def execSh (c : CoreId) (f : Fields) (s : State) : Out := s.apply fun d => d.runStore c.val f 0x4a 2
/-- SB: stores the low 1 byte of rs2 (R79, R80). -/
def execSb (c : CoreId) (f : Fields) (s : State) : Out := s.apply fun d => d.runStore c.val f 0x4b 1
/-- AMOADD: memory takes the sum, rd the old value (R81). -/
def execAmoadd (c : CoreId) (f : Fields) (s : State) : Out := s.apply fun d => d.runAmo c.val f 0x50 .add
/-- AMOAND: memory takes the bitwise AND, rd the old value (R81). -/
def execAmoand (c : CoreId) (f : Fields) (s : State) : Out := s.apply fun d => d.runAmo c.val f 0x51 .and
/-- AMOOR: memory takes the bitwise OR, rd the old value (R81). -/
def execAmoor (c : CoreId) (f : Fields) (s : State) : Out := s.apply fun d => d.runAmo c.val f 0x52 .or
/-- AMOXOR: memory takes the bitwise XOR, rd the old value (R81). -/
def execAmoxor (c : CoreId) (f : Fields) (s : State) : Out := s.apply fun d => d.runAmo c.val f 0x53 .xor
/-- AMOSWAP: memory takes the value of rs2, rd the old value (R81). -/
def execAmoswap (c : CoreId) (f : Fields) (s : State) : Out := s.apply fun d => d.runAmo c.val f 0x54 .swap
/-- AMOMAXU: memory takes the unsigned larger, rd the old value (R81). -/
def execAmomaxu (c : CoreId) (f : Fields) (s : State) : Out := s.apply fun d => d.runAmo c.val f 0x55 .maxu
/-- AMOMINU: memory takes the unsigned smaller, rd the old value (R81). -/
def execAmominu (c : CoreId) (f : Fields) (s : State) : Out := s.apply fun d => d.runAmo c.val f 0x56 .minu
/-- CAS: memory takes the value of rs2 where memory equals rd, rd the old value (R81). -/
def execCas (c : CoreId) (f : Fields) (s : State) : Out := s.apply fun d => d.runAmo c.val f 0x57 .cas

end Sys2Proof.Machine
end

