-- ==== Sys2Proof/Machine/Mgmt.lean ====
section
/-! DEFINITION. Management operations: NVMe-MI over the out-of-band paths and in-band, the vendor commands 0xC0 and 0xC1, tunnelled admin commands, and
the Basic Management Command (R499 to R504, R467). The layouts of NVMe-MI messages and data are those of NVMe-MI 2.0 (PRESUMED, assumption log 50). -/

namespace Sys2Proof.Machine

/-! ### Statuses -/

def miSuccess : Nat := 0
def miInternal : Nat := 2
def miInvalidOpcode : Nat := 3
def miInvalidParam : Nat := 4
def miAccessDenied : Nat := 7

/-- What an operation answers: status, response field, data. -/
abbrev MiAns := Nat × Nat × Bytes
/-- An answer without data. -/
def miBare (st : Nat) : MiAns := (st, 0, [])

/-! ### Operations -/

/-- Read Device State (R503): 20 bytes. -/
def Dev.deviceState (d : Dev) : Bytes :=
  leBytes 4 d.fold.bootstat ++ leBytes 4 d.fold.lifecycleReg ++ leBytes 4 d.fold.tamperReg ++ leBytes 4 d.pwr.stateReg ++ leBytes 4 d.hub.linkstat
/-- A port's PCIe link or links are up. -/
def Dev.portUp (d : Dev) (p : Nat) : Bool := (d.link (2 * p)).width != 0 || (d.link (2 * p + 1)).width != 0
/-- Read NVMe-MI Data Structure: 0 the subsystem (three ports, version 2.0), 1 a port (0 and 1 PCIe, 2 two-wire), 2 the controllers from an identifier on,
3 a controller, 4 the optional commands, which the manual does not list. -/
def Dev.miStructure (d : Dev) (nmd0 : Nat) : MiAns :=
  let port := bitsOf nmd0 23 16
  let id := bitsOf nmd0 15 0
  match bitsOf nmd0 31 24 with
  | 0 => (miSuccess, 32, d.page 32 [(0, leBytes 1 2), (1, leBytes 1 2), (2, leBytes 1 0)])
  | 1 => if 2 < port then miBare miInvalidParam else (miSuccess, 32, d.page 32 [(0, leBytes 1 (if port = 2 then 2 else 1))])
  | 2 =>
    let l := ((List.range 128).map (· + 1)).filter (fun k => decide (id ≤ k))
    (miSuccess, 2 + 2 * l.length, leBytes 2 l.length ++ l.flatMap (leBytes 2))
  | 3 => if id = 0 ∨ 128 < id then miBare miInvalidParam else (miSuccess, 32, d.page 32 [(0, leBytes 1 ((id - 1) / 64))])
  | 4 => (miSuccess, 2, d.freeRun 2)
  | _ => miBare miInvalidParam
/-- NVM Subsystem Health Status Poll. -/
def Dev.miSubsystem (d : Dev) : MiAns :=
  (miSuccess, 0, d.page 8 [(0, leBytes 1 (8 * bit (d.portUp 0) + 4 * bit (d.portUp 1) + 32 * bit (!d.evt.fatal) + 16)),
    (1, leBytes 1 (255 - d.criticalWarning)), (2, leBytes 1 (Nat.min 127 (d.compositeK - 273))), (3, leBytes 1 d.percentUsed), (6, zeros 2)])
/-- CSTS of a controller: RDY, CFS in device fatal (R503), SHST. -/
def Dev.csts (d : Dev) (k : Nat) : Nat := bit (d.ctrl k).rdy + 2 * bit d.evt.fatal + 4 * (d.ctrl k).shst
/-- Controller Health Status Poll: the controllers from an identifier on, at most so many. -/
def Dev.miControllers (d : Dev) (nmd0 : Nat) : MiAns :=
  let ks := (((List.range 128).filter (fun k => decide (nmd0 % 65536 ≤ k + 1)))).take (bitsOf nmd0 23 16 + 1)
  (miSuccess, ks.length * 65536, ks.flatMap (fun k => leBytes 2 (k + 1) ++ leBytes 2 (d.csts k) ++ leBytes 2 d.compositeK ++ leBytes 1 d.percentUsed
    ++ leBytes 1 d.availableSpare ++ leBytes 1 d.criticalWarning ++ d.freeRun 2 ++ zeros 5))
/-- A configuration of a port: 1 the two-wire frequency of port 2 (1 to 3 for 100 kHz, 400 kHz, 1 MHz), 3 the MCTP transmission unit, 64 bytes (R498),
2 the health status change, which holds nothing. -/
def Dev.miConfigGet (d : Dev) (nmd0 : Nat) : MiAns :=
  let port := bitsOf nmd0 31 24
  match nmd0 % 256 with
  | 1 => if port = 2 then (miSuccess, d.walk.miConfig.get 1 (256 + port), []) else miBare miInvalidParam
  | 2 => (miSuccess, 0, [])
  | 3 => if port ≤ 2 then (miSuccess, 64, []) else miBare miInvalidParam
  | _ => miBare miInvalidParam
/-- Configuration Set. -/
def Dev.miConfigSet (d : Dev) (nmd0 nmd1 : Nat) : Dev × MiAns :=
  let port := bitsOf nmd0 31 24
  let f := bitsOf nmd0 11 8
  match nmd0 % 256 with
  | 1 =>
    if port = 2 ∧ 1 ≤ f ∧ f ≤ 3 then (d.modWalk fun w => { w with miConfig := w.miConfig.set (256 + port) f }, miBare miSuccess)
    else (d, miBare miInvalidParam)
  | 2 => (d, miBare miSuccess)
  | 3 => (d, miBare (if port ≤ 2 ∧ nmd1 % 65536 = 64 then miSuccess else miInvalidParam))
  | _ => (d, miBare miInvalidParam)
/-- VPD Read: offset and length. -/
def miVpd (nmd0 nmd1 : Nat) : MiAns :=
  let off := nmd0 % 65536
  let n := nmd1 % 65536
  if Config.vpdSize < off + n then miBare miInvalidParam else (miSuccess, 0, (List.range n).map (fun i => Config.vpdByte (off + i)))
/-- Standby (R467, R502): refused while it is not enabled or a controller is; a second request finds the entry under way. -/
def Dev.miStandby (d : Dev) : Dev × MiAns :=
  if d.pwr.entering && d.pwr.target == 5 then (d, miBare miSuccess)
  else if d.cfgv 0x00A 3 = 0 ∨ d.enabledCtrls ≠ [] then (d, miBare miAccessDenied)
  else (d.beginEntry 5, miBare miSuccess)

/-! ### Out-of-band requests -/

/-- The next message is an NVMe-MI command of one of some opcodes: it is answered by V firmware, or by whoever serves the boot where `early`; otherwise
with Internal Error (R503). -/
def Dev.miServe (d0 : Dev) (ops : List Nat) (early : Bool) (f : Dev → MgmtMsg → Dev × MiAns) : Dev :=
  let d := d0.sweep
  match d.nextMsg with
  | none => d
  | some m =>
    if m.mtype ≠ 4 ∨ m.nmimt ≠ 1 ∨ bitOf (leAt m.body 1 1) 7 ∨ !ops.contains (leAt m.body 4 1) ∨ d.mgmtLevel = 0 then d
    else
      let r := if d.mgmtLevel = 3 || early then f d m else (d, miBare miInternal)
      r.1.tickFree.mgmtReply m (miResponse m r.2.1 r.2.2.1 r.2.2.2)
/-- NVMe Management dwords 0 and 1 of a message. -/
def MgmtMsg.nmd0 (m : MgmtMsg) : Nat := leAt m.body 8 4
/-- Dword 1. -/
def MgmtMsg.nmd1 (m : MgmtMsg) : Nat := leAt m.body 12 4
/-- READ_NVME_MI_DATA_STRUCTURE. -/
def execReadNvmeMiDataStructure (s : State) : Out := s.apply fun d => d.miServe [0x00] false fun d m => (d, d.miStructure m.nmd0)
/-- HEALTH_STATUS_POLL, of the subsystem (0x01) or of controllers (0x02). -/
def execHealthStatusPoll (s : State) : Out :=
  s.apply fun d => d.miServe [0x01, 0x02] false fun d m => (d, if leAt m.body 4 1 = 1 then d.miSubsystem else d.miControllers m.nmd0)
/-- CONFIGURATION_SET. -/
def execConfigurationSet (s : State) : Out := s.apply fun d => d.miServe [0x03] false fun d m => d.miConfigSet m.nmd0 m.nmd1
/-- CONFIGURATION_GET. -/
def execConfigurationGet (s : State) : Out := s.apply fun d => d.miServe [0x04] false fun d m => (d, d.miConfigGet m.nmd0)
/-- VPD_READ. -/
def execVpdRead (s : State) : Out := s.apply fun d => d.miServe [0x05] false fun d m => (d, miVpd m.nmd0 m.nmd1)
/-- STANDBY. -/
def execStandby (s : State) : Out := s.apply fun d => d.miServe [0xC0] false fun d _ => d.miStandby
/-- READ_DEVICE_STATE: answered at every stage of the boot that answers at all. -/
def execReadDeviceState (s : State) : Out := s.apply fun d => d.miServe [0xC1] true fun d _ => (d, (miSuccess, 0, d.deviceState))

/-! ### Tunnelled admin commands -/

/-- Dword of the tunnelled submission entry: dwords 10 to 15 stand at byte 44. -/
def MgmtMsg.sqe (m : MgmtMsg) (i : Nat) : Nat := if i = 1 then leAt m.body 8 4 else leAt m.body (44 + 4 * (i - 10)) 4
/-- The status field and data of a tunnelled Identify, Get Features or Get Log Page on behalf of a controller: MI status, NVMe status, dword 0, data. -/
def Dev.tunnel (d : Dev) (m : MgmtMsg) : Nat × Nat × Nat × Bytes :=
  let op := leAt m.body 4 1
  let k := leAt m.body 6 2 - 1
  let off := leAt m.body 28 4
  let len := leAt m.body 32 4
  let cut := fun (b : Bytes) => sliceOf b off len
  let pack := fun (r : Except Nat (Nat × Bytes)) => match r with
    | .error st => (miSuccess, st, 0, ([] : Bytes))
    | .ok (v, b) => (miSuccess, 0, v, cut b)
  if leAt m.body 6 2 = 0 ∨ 128 < leAt m.body 6 2 then (miInvalidParam, 0, 0, [])
  else if op = 0x06 then pack ((d.identify k (m.sqe 1) (m.sqe 10) (m.sqe 11)).map (fun b => (0, b)))
  else if op = 0x0A then pack (d.featureGet k (m.sqe 1) (m.sqe 10) (m.sqe 11))
  else
    let lid := m.sqe 10 % 256
    match d.anyLog k lid (logSel m.sqe) with
    | none => (miSuccess, scInvalidField, 0, [])
    | some b => (miSuccess, 0, 0, cut (d.cutPage lid (logOff m.sqe) (logLen m.sqe) b))
/-- A tunnelled Security Send or Receive of protocol 0xF0 that Fold firmware accepts while the boot is halted (R504): the challenge, a request of type
0x05, the result. -/
def Dev.lcTunnel (d : Dev) (m : MgmtMsg) : Bool :=
  let spsp := bitsOf (m.sqe 10) 23 8
  d.fold.halted && d.mgmtLevel == 2 && m.mtype == 4 && m.nmimt == 2 && !bitOf (leAt m.body 1 1) 7 && bitsOf (m.sqe 10) 31 24 == 0xF0
    && ((leAt m.body 4 1 == 0x82 && (spsp == 1 || spsp == 3)) || (leAt m.body 4 1 == 0x81 && spsp == 2 && leAt m.body 74 1 == 5))
/-- The request data of a tunnelled command: from byte 68 to the message's integrity check. -/
def MgmtMsg.data (m : MgmtMsg) : Bytes := (m.body.drop 68).take (m.body.length - 72)
/-- A tunnelled command's Successful Completion with data. -/
def MgmtMsg.tunnelOk (m : MgmtMsg) (b : Bytes) : Bytes := miResponse m 0 0 (zeros 12 ++ b)
/-- The next message is such a command with an opcode and SPSP. -/
def Dev.lcNext (d : Dev) (op spsp : Nat) : Option MgmtMsg :=
  match d.nextMsg with
  | some m => if d.lcTunnel m && leAt m.body 4 1 == op && bitsOf (m.sqe 10) 23 8 == spsp then some m else none
  | none => none
/-- LIFECYCLE_CHALLENGE: over NVMe in a pen, or over a management path while the boot is halted; the JTAG mailbox carries none. -/
def Dev.challenge (d : Dev) (src : LcSource) : Dev :=
  match src with
  | .pen p => d.lcChallenge p.val
  | .jtag => d
  | .mgmt => match d.lcNext 0x82 1 with
    | some m => if d.drbgOk then d.lcNonce.1.mgmtReply m (m.tunnelOk d.lcNonce.2) else d
    | none => d
/-- LIFECYCLE_CHALLENGE and where it comes from. -/
def execLifecycleChallenge (src : LcSource) (s : State) : Out := s.apply fun d => d.challenge src
/-- LIFECYCLE_RESULT. -/
def Dev.lcResultRow (d : Dev) (src : LcSource) : Dev :=
  match src with
  | .pen p => d.lcReceive p.val 3 d.fold.lcResult
  | .jtag => d
  | .mgmt => match d.lcNext 0x82 3 with
    | some m => d.mgmtReply m (m.tunnelOk d.fold.lcResult)
    | none => d
/-- LIFECYCLE_RESULT and where it comes from. -/
def execLifecycleResult (src : LcSource) (s : State) : Out := s.apply fun d => d.lcResultRow src
/-- DECOMMISSION: over NVMe, or over a management path as the next message, whose data is the request (R504). -/
def Dev.decommission (d : Dev) (src : LcSource) (b : Bytes) (storeOk : Bool) (fails : TallyFails) : Dev :=
  match src with
  | .mgmt => match d.lcNext 0x81 2 with
    | some m => (d.mgmtReply m (m.tunnelOk [])).lcRow 5 .mgmt m.data storeOk fails
    | none => d
  | _ => d.lcRow 5 src b storeOk fails
/-- DECOMMISSION: where it comes from, its bytes, whether the store write ends well, and the Tally slots that fail. -/
def execDecommission (src : LcSource) (b : Bytes) (storeOk : Bool) (fails : TallyFails) (s : State) : Out :=
  s.apply fun d => d.decommission src b storeOk fails
/-- TUNNELLED_ADMIN: Identify, Get Features and Get Log Page; any other opcode is answered with Invalid Command Opcode. What R504 accepts
has commands of its own. -/
def Dev.tunnelled (d0 : Dev) : Dev :=
  let d := d0.sweep
  match d.nextMsg with
  | none => d
  | some m =>
    let op := leAt m.body 4 1
    if m.mtype ≠ 4 ∨ m.nmimt ≠ 2 ∨ bitOf (leAt m.body 1 1) 7 ∨ d.mgmtLevel = 0 ∨ d.lcTunnel m then d
    else if d.mgmtLevel < 3 then d.mgmtReply m (miResponse m miInternal 0 [])
    else if op ≠ 0x06 ∧ op ≠ 0x0A ∧ op ≠ 0x02 then d.mgmtReply m (miResponse m miInvalidOpcode 0 [])
    else
      let r := d.tunnel m
      if r.1 ≠ 0 then d.mgmtReply m (miResponse m r.1 0 [])
      else d.tickFree.tickFree.mgmtReply m (miResponse m 0 0 (leBytes 4 r.2.2.1 ++ zeros 4 ++ leBytes 4 (2 * r.2.1 * 65536) ++ r.2.2.2))
/-- TUNNELLED_ADMIN. -/
def execTunnelledAdmin (s : State) : Out := s.apply Dev.tunnelled

/-! ### In-band (NVMe-MI Send and Receive) -/

/-- Dword 0 of an in-band completion: the NVMe-MI status and the response field. -/
def miDw0 (a : MiAns) : Nat := a.1 + 256 * (a.2.1 % 2 ^ 24)
/-- NVME_MI_SEND: no operation of Table 20-3 that sends is allowed in-band. -/
def execNvmeMiSend (p : Pen) (s : State) : Out :=
  s.apply fun d => d.admin p.val 0x1D fun _ => d.complete p.val scOk (miDw0 (miBare miInvalidOpcode))
/-- An in-band operation: the data structures, health polls, Configuration Get, VPD Read and Read Device State. -/
def Dev.miInBand (d : Dev) (op nmd0 nmd1 : Nat) : MiAns :=
  match op with
  | 0x00 => d.miStructure nmd0
  | 0x01 => d.miSubsystem
  | 0x02 => d.miControllers nmd0
  | 0x04 => d.miConfigGet nmd0
  | 0x05 => miVpd nmd0 nmd1
  | 0xC1 => (miSuccess, 0, d.deviceState)
  | _ => miBare miInvalidOpcode
/-- NVME_MI_RECEIVE: opcode in CDW11, dwords 0 and 1 in CDW12 and CDW13. -/
def Dev.miReceive (d : Dev) (p : Nat) : Dev :=
  d.admin p 0x1E fun x =>
    if d.moversHalted x.ctrl then d
    else
      let op := x.dw 11 % 256
      let a := if (d.core 1).run = .inReset ∧ op ≠ 0xC1 then miBare miInternal else d.miInBand op (x.dw 12) (x.dw 13)
      let d1 := if a.2.2 = [] then d.tickFree else d.tickFree.emit (.hostData x.ctrl x.cid 0 a.2.2)
      d1.complete p scOk (miDw0 a)
/-- NVME_MI_RECEIVE. -/
def execNvmeMiReceive (p : Pen) (s : State) : Out := s.apply fun d => d.miReceive p.val

/-! ### The Basic Management Command (R499) -/

/-- CRC-8 of SMBus, polynomial 0x07. -/
def pecByte : Nat → Nat → Nat
  | 0, c => c
  | n + 1, c => pecByte n (if bitOf c 7 then (c * 2 % 256) ^^^ 7 else c * 2)
/-- PEC of a run of bytes. -/
def pecOf (b : Bytes) : Nat := b.foldl (fun c x => pecByte 8 (c ^^^ x.toNat)) 0
/-- The status block at command code 0; the identification block at 8, whose bytes the manual does not state. -/
def Dev.bmcBlock (d : Dev) (code : Nat) : Bytes :=
  let b := if code = 8 then leBytes 1 22 ++ d.freeRun 22
    else leBytes 1 6 ++ leBytes 1 (128 + 64 * bit (d.mgmtLevel != 3) + 32 * bit (!d.evt.fatal) + 16 + 8 * bit (d.portUp 0) + 4 * bit (d.portUp 1))
      ++ leBytes 1 (255 - d.criticalWarning) ++ leBytes 1 (Nat.min 127 (d.compositeK - 273)) ++ leBytes 1 d.percentUsed ++ zeros 2
  b ++ leBytes 1 (pecOf (([0xD4, BitVec.ofNat 8 code, 0xD5] : Bytes) ++ b))
/-- BASIC_MANAGEMENT_COMMAND: answered in SMBus mode, once the management path is up. -/
def Dev.basicMgmt (d : Dev) (code : Nat) : Dev :=
  if d.walk.i3c ∨ d.mgmtLevel = 0 ∨ (code ≠ 0 ∧ code ≠ 8) then d
  else
    let d1 := d.tickFree.emit (.smbus (d.bmcBlock code))
    if d1.walk.msgs = [] ∧ d1.walk.tx = [] then d1.mgmtDone else d1
/-- BASIC_MANAGEMENT_COMMAND: the command code read. -/
def execBasicManagementCommand (code : BitVec 8) (s : State) : Out := s.apply fun d => d.basicMgmt code.toNat

end Sys2Proof.Machine
end

