-- ==== Sys2Proof/Machine/Dispatch.lean ====
section
/-! DEFINITION. The dispatch: one arm per command, each a direct call of its meaning. -/

namespace Sys2Proof.Machine

/-- The effect of a command on everything but the queue. -/
def exec (i : Instr) (s : State) : Host.Outcome State Fault Refusal :=
  match i with
  | .add c f => Sys2Proof.Machine.execAdd c f s
  | .sub c f => Sys2Proof.Machine.execSub c f s
  | .and c f => Sys2Proof.Machine.execAnd c f s
  | .or c f => Sys2Proof.Machine.execOr c f s
  | .xor c f => Sys2Proof.Machine.execXor c f s
  | .sll c f => Sys2Proof.Machine.execSll c f s
  | .srl c f => Sys2Proof.Machine.execSrl c f s
  | .sra c f => Sys2Proof.Machine.execSra c f s
  | .slt c f => Sys2Proof.Machine.execSlt c f s
  | .sltu c f => Sys2Proof.Machine.execSltu c f s
  | .min c f => Sys2Proof.Machine.execMin c f s
  | .max c f => Sys2Proof.Machine.execMax c f s
  | .minu c f => Sys2Proof.Machine.execMinu c f s
  | .maxu c f => Sys2Proof.Machine.execMaxu c f s
  | .mul c f => Sys2Proof.Machine.execMul c f s
  | .mulh c f => Sys2Proof.Machine.execMulh c f s
  | .mulhu c f => Sys2Proof.Machine.execMulhu c f s
  | .div c f => Sys2Proof.Machine.execDiv c f s
  | .divu c f => Sys2Proof.Machine.execDivu c f s
  | .rem c f => Sys2Proof.Machine.execRem c f s
  | .remu c f => Sys2Proof.Machine.execRemu c f s
  | .clz c f => Sys2Proof.Machine.execClz c f s
  | .ctz c f => Sys2Proof.Machine.execCtz c f s
  | .popc c f => Sys2Proof.Machine.execPopc c f s
  | .bswap c f => Sys2Proof.Machine.execBswap c f s
  | .addi c f => Sys2Proof.Machine.execAddi c f s
  | .andi c f => Sys2Proof.Machine.execAndi c f s
  | .ori c f => Sys2Proof.Machine.execOri c f s
  | .xori c f => Sys2Proof.Machine.execXori c f s
  | .slli c f => Sys2Proof.Machine.execSlli c f s
  | .srli c f => Sys2Proof.Machine.execSrli c f s
  | .srai c f => Sys2Proof.Machine.execSrai c f s
  | .slti c f => Sys2Proof.Machine.execSlti c f s
  | .sltiu c f => Sys2Proof.Machine.execSltiu c f s
  | .lui c f => Sys2Proof.Machine.execLui c f s
  | .auipc c f => Sys2Proof.Machine.execAuipc c f s
  | .beq c f => Sys2Proof.Machine.execBeq c f s
  | .bne c f => Sys2Proof.Machine.execBne c f s
  | .blt c f => Sys2Proof.Machine.execBlt c f s
  | .bge c f => Sys2Proof.Machine.execBge c f s
  | .bltu c f => Sys2Proof.Machine.execBltu c f s
  | .bgeu c f => Sys2Proof.Machine.execBgeu c f s
  | .jal c f => Sys2Proof.Machine.execJal c f s
  | .jalr c f => Sys2Proof.Machine.execJalr c f s
  | .ld c f => Sys2Proof.Machine.execLd c f s
  | .lw c f => Sys2Proof.Machine.execLw c f s
  | .lwu c f => Sys2Proof.Machine.execLwu c f s
  | .lh c f => Sys2Proof.Machine.execLh c f s
  | .lhu c f => Sys2Proof.Machine.execLhu c f s
  | .lb c f => Sys2Proof.Machine.execLb c f s
  | .lbu c f => Sys2Proof.Machine.execLbu c f s
  | .sd c f => Sys2Proof.Machine.execSd c f s
  | .sw c f => Sys2Proof.Machine.execSw c f s
  | .sh c f => Sys2Proof.Machine.execSh c f s
  | .sb c f => Sys2Proof.Machine.execSb c f s
  | .amoadd c f => Sys2Proof.Machine.execAmoadd c f s
  | .amoand c f => Sys2Proof.Machine.execAmoand c f s
  | .amoor c f => Sys2Proof.Machine.execAmoor c f s
  | .amoxor c f => Sys2Proof.Machine.execAmoxor c f s
  | .amoswap c f => Sys2Proof.Machine.execAmoswap c f s
  | .amomaxu c f => Sys2Proof.Machine.execAmomaxu c f s
  | .amominu c f => Sys2Proof.Machine.execAmominu c f s
  | .cas c f => Sys2Proof.Machine.execCas c f s
  | .waitev c f => Sys2Proof.Machine.execWaitev c f s
  | .waitevWake c => Sys2Proof.Machine.execWaitevWake c s
  | .msgsend c f => Sys2Proof.Machine.execMsgsend c f s
  | .msgrecv c f => Sys2Proof.Machine.execMsgrecv c f s
  | .yield c f => Sys2Proof.Machine.execYield c f s
  | .yieldResume c => Sys2Proof.Machine.execYieldResume c s
  | .fence c f => Sys2Proof.Machine.execFence c f s
  | .trap c f => Sys2Proof.Machine.execTrap c f s
  | .eret c f => Sys2Proof.Machine.execEret c f s
  | .spget c f => Sys2Proof.Machine.execSpget c f s
  | .spset c f => Sys2Proof.Machine.execSpset c f s
  | .rest c f => Sys2Proof.Machine.execRest c f s
  | .restWake c => Sys2Proof.Machine.execRestWake c s
  | .fopRead c f => Sys2Proof.Machine.execFopRead c f s
  | .fopProgramTlc c f => Sys2Proof.Machine.execFopProgramTlc c f s
  | .fopProgramSlc c f => Sys2Proof.Machine.execFopProgramSlc c f s
  | .fopErase c f => Sys2Proof.Machine.execFopErase c f s
  | .fopResetDie c f => Sys2Proof.Machine.execFopResetDie c f s
  | .fopGetFeatures c f => Sys2Proof.Machine.execFopGetFeatures c f s
  | .fopSetFeatures c f => Sys2Proof.Machine.execFopSetFeatures c f s
  | .fopReadParameterPage c f => Sys2Proof.Machine.execFopReadParameterPage c f s
  | .fopSoftRead c f => Sys2Proof.Machine.execFopSoftRead c f s
  | .fopc c f => Sys2Proof.Machine.execFopc c f s
  | .fopq c f => Sys2Proof.Machine.execFopq c f s
  | .move c f => Sys2Proof.Machine.execMove c f s
  | .movec c f => Sys2Proof.Machine.execMovec c f s
  | .pacc c f => Sys2Proof.Machine.execPacc c f s
  | .prec c f => Sys2Proof.Machine.execPrec c f s
  | .pver c f => Sys2Proof.Machine.execPver c f s
  | .pzero c f => Sys2Proof.Machine.execPzero c f s
  | .pcol c f => Sys2Proof.Machine.execPcol c f s
  | .cget c f => Sys2Proof.Machine.execCget c f s
  | .cset c f => Sys2Proof.Machine.execCset c f s
  | .cver c f => Sys2Proof.Machine.execCver c f s
  | .txb c f => Sys2Proof.Machine.execTxb c f s
  | .txc c f => Sys2Proof.Machine.execTxc c f s
  | .txa c f => Sys2Proof.Machine.execTxa c f s
  | .meas c f => Sys2Proof.Machine.execMeas c f s
  | .eventTrap c => Sys2Proof.Machine.execEventTrap c s
  | .coreTimer c => Sys2Proof.Machine.execCoreTimer c s
  | .serviceExit c => Sys2Proof.Machine.execServiceExit c s
  | .serviceAppendResult c => Sys2Proof.Machine.execServiceAppendResult c s
  | .serviceRunLimitQuery c => Sys2Proof.Machine.execServiceRunLimitQuery c s
  | .serviceYield c us => Sys2Proof.Machine.execServiceYield c us s
  | .runLimitExpiry c => Sys2Proof.Machine.execRunLimitExpiry c s
  | .moveComplete c n he data => Sys2Proof.Machine.execMoveComplete c n he data s
  | .parityOperationComplete c n bad => Sys2Proof.Machine.execParityOperationComplete c n bad s
  | .measAnswer fails => Sys2Proof.Machine.execMeasAnswer fails s
  | .commitWaitEnd h => Sys2Proof.Machine.execCommitWaitEnd h s
  | .blockSafePoint b => Sys2Proof.Machine.execBlockSafePoint b s
  | .drainComplete b => Sys2Proof.Machine.execDrainComplete b s
  | .drainBudgetExpired h => Sys2Proof.Machine.execDrainBudgetExpired h s
  | .persistentRecordCommitted h ok fails => Sys2Proof.Machine.execPersistentRecordCommitted h ok fails s
  | .commitComplete h => Sys2Proof.Machine.execCommitComplete h s
  | .runModule p data fails => Sys2Proof.Machine.execRunModule p data fails s
  | .moduleStart c failsLoad failsCounter => Sys2Proof.Machine.execModuleStart c failsLoad failsCounter s
  | .crookQuery p => Sys2Proof.Machine.execCrookQuery p s
  | .crookAcquire p => Sys2Proof.Machine.execCrookAcquire p s
  | .crookRenew p => Sys2Proof.Machine.execCrookRenew p s
  | .crookRelease p => Sys2Proof.Machine.execCrookRelease p s
  | .crookLeaseExpiry => Sys2Proof.Machine.execCrookLeaseExpiry s
  | .ucieModuleTraining m ok => Sys2Proof.Machine.execUcieModuleTraining m ok s
  | .ucieModuleFail m => Sys2Proof.Machine.execUcieModuleFail m s
  | .doorbellWrite k q cq v => Sys2Proof.Machine.execDoorbellWrite k q cq v s
  | .commandFetch k q cdw ranges => Sys2Proof.Machine.execCommandFetch k q cdw ranges s
  | .dataPointerWalkEnd p w => Sys2Proof.Machine.execDataPointerWalkEnd p w s
  | .hurdleHeld p => Sys2Proof.Machine.execHurdleHeld p s
  | .hurdleLongWait p => Sys2Proof.Machine.execHurdleLongWait p s
  | .hostDataArrival p data md bad => Sys2Proof.Machine.execHostDataArrival p data md bad s
  | .hostReadFailure p timeout => Sys2Proof.Machine.execHostReadFailure p timeout s
  | .placementWaitEnd p => Sys2Proof.Machine.execPlacementWaitEnd p s
  | .tombstoneWaitEnd p => Sys2Proof.Machine.execTombstoneWaitEnd p s
  | .readDispatch p iu => Sys2Proof.Machine.execReadDispatch p iu s
  | .reconstructionRequest p iu => Sys2Proof.Machine.execReconstructionRequest p iu s
  | .reconstructionComplete bad => Sys2Proof.Machine.execReconstructionComplete bad s
  | .deleteIoSubmissionQueue p => Sys2Proof.Machine.execDeleteIoSubmissionQueue p s
  | .createIoSubmissionQueue p => Sys2Proof.Machine.execCreateIoSubmissionQueue p s
  | .deleteIoCompletionQueue p => Sys2Proof.Machine.execDeleteIoCompletionQueue p s
  | .createIoCompletionQueue p => Sys2Proof.Machine.execCreateIoCompletionQueue p s
  | .getLogPage p => Sys2Proof.Machine.execGetLogPage p s
  | .getLogRunModuleResult p => Sys2Proof.Machine.execGetLogRunModuleResult p s
  | .getLogTally p => Sys2Proof.Machine.execGetLogTally p s
  | .getLogEventRecords p => Sys2Proof.Machine.execGetLogEventRecords p s
  | .identify p => Sys2Proof.Machine.execIdentify p s
  | .abort p => Sys2Proof.Machine.execAbort p s
  | .setFeatures p data => Sys2Proof.Machine.execSetFeatures p data s
  | .setFeaturesPowerManagement p => Sys2Proof.Machine.execSetFeaturesPowerManagement p s
  | .setFeaturesNumberOfQueues p => Sys2Proof.Machine.execSetFeaturesNumberOfQueues p s
  | .getFeatures p => Sys2Proof.Machine.execGetFeatures p s
  | .asynchronousEventRequest p => Sys2Proof.Machine.execAsynchronousEventRequest p s
  | .namespaceManagement p data fails => Sys2Proof.Machine.execNamespaceManagement p data fails s
  | .namespaceAttachment p data fails => Sys2Proof.Machine.execNamespaceAttachment p data fails s
  | .firmwareImageDownload p data => Sys2Proof.Machine.execFirmwareImageDownload p data s
  | .firmwareCommitReplace p how fails => Sys2Proof.Machine.execFirmwareCommitReplace p how fails s
  | .firmwareCommitReplaceActivate p how fails => Sys2Proof.Machine.execFirmwareCommitReplaceActivate p how fails s
  | .firmwareCommitActivateReset p => Sys2Proof.Machine.execFirmwareCommitActivateReset p s
  | .firmwareCommitActivateLive p => Sys2Proof.Machine.execFirmwareCommitActivateLive p s
  | .coreActivation fails => Sys2Proof.Machine.execCoreActivation fails s
  | .virtualizationManagement p => Sys2Proof.Machine.execVirtualizationManagement p s
  | .nvmeMiSend p => Sys2Proof.Machine.execNvmeMiSend p s
  | .nvmeMiReceive p => Sys2Proof.Machine.execNvmeMiReceive p s
  | .formatNvm p bad => Sys2Proof.Machine.execFormatNvm p bad s
  | .sanitize p => Sys2Proof.Machine.execSanitize p s
  | .securitySend p data fails => Sys2Proof.Machine.execSecuritySend p data fails s
  | .securityReceive p => Sys2Proof.Machine.execSecurityReceive p s
  | .lifecycleChallenge src => Sys2Proof.Machine.execLifecycleChallenge src s
  | .lifecycleResult src => Sys2Proof.Machine.execLifecycleResult src s
  | .eotinIdentityChain p => Sys2Proof.Machine.execEotinIdentityChain p s
  | .eotinHssCertificate p => Sys2Proof.Machine.execEotinHssCertificate p s
  | .ownerEndorsementChain p => Sys2Proof.Machine.execOwnerEndorsementChain p s
  | .enrol src b storeOk fails => Sys2Proof.Machine.execEnrol src b storeOk fails s
  | .transfer src b storeOk fails => Sys2Proof.Machine.execTransfer src b storeOk fails s
  | .release src b storeOk fails => Sys2Proof.Machine.execRelease src b storeOk fails s
  | .setPolicy src b storeOk fails => Sys2Proof.Machine.execSetPolicy src b storeOk fails s
  | .decommission src b storeOk fails => Sys2Proof.Machine.execDecommission src b storeOk fails s
  | .openDebug src b storeOk fails => Sys2Proof.Machine.execOpenDebug src b storeOk fails s
  | .closeDebug src b storeOk fails => Sys2Proof.Machine.execCloseDebug src b storeOk fails s
  | .installEndorsement src b storeOk fails => Sys2Proof.Machine.execInstallEndorsement src b storeOk fails s
  | .nonceExpiry => Sys2Proof.Machine.execNonceExpiry s
  | .provisioning serial keys helper chain cert image => Sys2Proof.Machine.execProvisioning serial keys helper chain cert image s
  | .tapAccess tap b fails => Sys2Proof.Machine.execTapAccess tap b fails s
  | .tcgMethod p m => Sys2Proof.Machine.execTcgMethod p m s
  | .flush p => Sys2Proof.Machine.execFlush p s
  | .write p => Sys2Proof.Machine.execWrite p s
  | .read p => Sys2Proof.Machine.execRead p s
  | .compare p => Sys2Proof.Machine.execCompare p s
  | .writeZeroes p bad => Sys2Proof.Machine.execWriteZeroes p bad s
  | .datasetManagement p => Sys2Proof.Machine.execDatasetManagement p s
  | .verify p => Sys2Proof.Machine.execVerify p s
  | .reservationRegister p b => Sys2Proof.Machine.execReservationRegister p b s
  | .reservationReport p => Sys2Proof.Machine.execReservationReport p s
  | .reservationAcquire p b => Sys2Proof.Machine.execReservationAcquire p b s
  | .reservationRelease p b => Sys2Proof.Machine.execReservationRelease p b s
  | .controllerEnable k cc aqa asq acq => Sys2Proof.Machine.execControllerEnable k cc aqa asq acq s
  | .controllerReset k => Sys2Proof.Machine.execControllerReset k s
  | .shutdownNotification k shn => Sys2Proof.Machine.execShutdownNotification k shn s
  | .nvmSubsystemReset v => Sys2Proof.Machine.execNvmSubsystemReset v s
  | .functionLevelReset k => Sys2Proof.Machine.execFunctionLevelReset k s
  | .busMasterEnableChange k on => Sys2Proof.Machine.execBusMasterEnableChange k on s
  | .d3hotEntry k => Sys2Proof.Machine.execD3hotEntry k s
  | .perstN l asserted => Sys2Proof.Machine.execPerstN l asserted s
  | .linkDown l => Sys2Proof.Machine.execLinkDown l s
  | .linkTrained l rate width => Sys2Proof.Machine.execLinkTrained l rate width s
  | .channelBringUp ch dies fails => Sys2Proof.Machine.execChannelBringUp ch dies fails s
  | .dqsCheck ch lost fails => Sys2Proof.Machine.execDqsCheck ch lost fails s
  | .arrayOperationStart die => Sys2Proof.Machine.execArrayOperationStart die s
  | .programDataTransferred die => Sys2Proof.Machine.execProgramDataTransferred die s
  | .dieOperationComplete die x => Sys2Proof.Machine.execDieOperationComplete die x s
  | .programSuspend die => Sys2Proof.Machine.execProgramSuspend die s
  | .suspendAcknowledged die => Sys2Proof.Machine.execSuspendAcknowledged die s
  | .suspendTimeout die => Sys2Proof.Machine.execSuspendTimeout die s
  | .programResume die => Sys2Proof.Machine.execProgramResume die s
  | .dieBusyTimeout die => Sys2Proof.Machine.execDieBusyTimeout die s
  | .chnReleaseRead core ch => Sys2Proof.Machine.execChnReleaseRead core ch s
  | .workItem v => Sys2Proof.Machine.execWorkItem v s
  | .resultPost ticket => Sys2Proof.Machine.execResultPost ticket s
  | .droveForm stream use => Sys2Proof.Machine.execDroveForm stream use s
  | .droveHeaderProgrammed serial => Sys2Proof.Machine.execDroveHeaderProgrammed serial s
  | .rowComplete serial => Sys2Proof.Machine.execRowComplete serial s
  | .summaryRowsProgrammed serial => Sys2Proof.Machine.execSummaryRowsProgrammed serial s
  | .verifyResult serial fails => Sys2Proof.Machine.execVerifyResult serial fails s
  | .memberProgramFail serial => Sys2Proof.Machine.execMemberProgramFail serial s
  | .lambBlockErase n => Sys2Proof.Machine.execLambBlockErase n s
  | .pwrfailAssert units => Sys2Proof.Machine.execPwrfailAssert units s
  | .journalCopiesProgrammed failA failB => Sys2Proof.Machine.execJournalCopiesProgrammed failA failB s
  | .pwrfailDeassert => Sys2Proof.Machine.execPwrfailDeassert s
  | .journalReplay badA badB bad => Sys2Proof.Machine.execJournalReplay badA badB bad s
  | .replayConsumed => Sys2Proof.Machine.execReplayConsumed s
  | .mapRebuild bad ms => Sys2Proof.Machine.execMapRebuild bad ms s
  | .mapcLookup diu => Sys2Proof.Machine.execMapcLookup diu s
  | .mapcUpdate diu entry => Sys2Proof.Machine.execMapcUpdate diu entry s
  | .mapcConditionalUpdate diu entry source => Sys2Proof.Machine.execMapcConditionalUpdate diu entry source s
  | .mapCacheFillReturn line => Sys2Proof.Machine.execMapCacheFillReturn line s
  | .mapCacheWritebackAccepted line => Sys2Proof.Machine.execMapCacheWritebackAccepted line s
  | .mapcEnableClear => Sys2Proof.Machine.execMapcEnableClear s
  | .mapcEnableSet => Sys2Proof.Machine.execMapcEnableSet s
  | .mapcFlushDone => Sys2Proof.Machine.execMapcFlushDone s
  | .clean => Sys2Proof.Machine.execClean s
  | .repairRelease slot => Sys2Proof.Machine.execRepairRelease slot s
  | .mapRepair k bad => Sys2Proof.Machine.execMapRepair k bad s
  | .gcCycleStart grp => Sys2Proof.Machine.execGcCycleStart grp s
  | .copyBatch serial bad => Sys2Proof.Machine.execCopyBatch serial bad s
  | .gcDestinationsClosed serial => Sys2Proof.Machine.execGcDestinationsClosed serial s
  | .readEpochAdvance => Sys2Proof.Machine.execReadEpochAdvance s
  | .readEpochDrained serial => Sys2Proof.Machine.execReadEpochDrained serial s
  | .eraseLogPageProgram => Sys2Proof.Machine.execEraseLogPageProgram s
  | .eraseLogPeriodExpiry => Sys2Proof.Machine.execEraseLogPeriodExpiry s
  | .blockErase die g => Sys2Proof.Machine.execBlockErase die g s
  | .droveRelease serial => Sys2Proof.Machine.execDroveRelease serial s
  | .retire die g bad => Sys2Proof.Machine.execRetire die g bad s
  | .wearLevelling grp => Sys2Proof.Machine.execWearLevelling grp s
  | .autoDeclare ch fails => Sys2Proof.Machine.execAutoDeclare ch fails s
  | .declareRetry fails => Sys2Proof.Machine.execDeclareRetry fails s
  | .declarationApply ch => Sys2Proof.Machine.execDeclarationApply ch s
  | .memberRebuildPass serial bad fails => Sys2Proof.Machine.execMemberRebuildPass serial bad fails s
  | .memberSwitch serial => Sys2Proof.Machine.execMemberSwitch serial s
  | .evacuation serial bad => Sys2Proof.Machine.execEvacuation serial bad s
  | .quiesceRequest v => Sys2Proof.Machine.execQuiesceRequest v s
  | .quiesceCloseTimeout v => Sys2Proof.Machine.execQuiesceCloseTimeout v s
  | .initialisationFill pprFails => Sys2Proof.Machine.execInitialisationFill pprFails s
  | .grazeRead t => Sys2Proof.Machine.execGrazeRead t s
  | .nandGrazeLate => Sys2Proof.Machine.execNandGrazeLate s
  | .dramRefresh n => Sys2Proof.Machine.execDramRefresh n s
  | .mr4Poll need n => Sys2Proof.Machine.execMr4Poll need n s
  | .dramTraining n fails ppr => Sys2Proof.Machine.execDramTraining n fails ppr s
  | .zqCalibration n => Sys2Proof.Machine.execZqCalibration n s
  | .driftCheck n beyond => Sys2Proof.Machine.execDriftCheck n beyond s
  | .retrainStart n => Sys2Proof.Machine.execRetrainStart n s
  | .trainDeferExpiry n => Sys2Proof.Machine.execTrainDeferExpiry n s
  | .dramRequest port a lat f => Sys2Proof.Machine.execDramRequest port a lat f s
  | .bootSequence fails => Sys2Proof.Machine.execBootSequence fails s
  | .coreRelease => Sys2Proof.Machine.execCoreRelease s
  | .controllerReady fails => Sys2Proof.Machine.execControllerReady fails s
  | .tallyAppend e fails => Sys2Proof.Machine.execTallyAppend e fails s
  | .bottomTreeBuild => Sys2Proof.Machine.execBottomTreeBuild s
  | .keyClear slot => Sys2Proof.Machine.execKeyClear slot s
  | .zeroize => Sys2Proof.Machine.execZeroize s
  | .slotInUseZero slot => Sys2Proof.Machine.execSlotInUseZero slot s
  | .keyBusRequest ch eng slot => Sys2Proof.Machine.execKeyBusRequest ch eng slot s
  | .unwrapGenerate off => Sys2Proof.Machine.execUnwrapGenerate off s
  | .unwrapLoad off => Sys2Proof.Machine.execUnwrapLoad off s
  | .unwrapInject off => Sys2Proof.Machine.execUnwrapInject off s
  | .unwrapLoadKek off => Sys2Proof.Machine.execUnwrapLoadKek off s
  | .unwrapComplete => Sys2Proof.Machine.execUnwrapComplete s
  | .generationRelease n j => Sys2Proof.Machine.execGenerationRelease n j s
  | .drbgReseed => Sys2Proof.Machine.execDrbgReseed s
  | .healthTestFail rct => Sys2Proof.Machine.execHealthTestFail rct s
  | .entropyRecoveryTimeout => Sys2Proof.Machine.execEntropyRecoveryTimeout s
  | .dieDrbgReseed k katOk => Sys2Proof.Machine.execDieDrbgReseed k katOk s
  | .dieDrbgStarved k => Sys2Proof.Machine.execDieDrbgStarved k s
  | .tamperEvent b fails => Sys2Proof.Machine.execTamperEvent b fails s
  | .digAlloc core => Sys2Proof.Machine.execDigAlloc core s
  | .digStart core slot ctl => Sys2Proof.Machine.execDigStart core slot ctl s
  | .digRelease core slot => Sys2Proof.Machine.execDigRelease core slot s
  | .digDataPush core slot lo hi => Sys2Proof.Machine.execDigDataPush core slot lo hi s
  | .digLast core slot count lo hi => Sys2Proof.Machine.execDigLast core slot count lo hi s
  | .digFinish slot => Sys2Proof.Machine.execDigFinish slot s
  | .digResultRead core slot n => Sys2Proof.Machine.execDigResultRead core slot n s
  | .digCompare core slot fails => Sys2Proof.Machine.execDigCompare core slot fails s
  | .ecdsaVerify off => Sys2Proof.Machine.execEcdsaVerify off s
  | .ecdsaSign off => Sys2Proof.Machine.execEcdsaSign off s
  | .hssVerify off => Sys2Proof.Machine.execHssVerify off s
  | .lmotsSign off => Sys2Proof.Machine.execLmotsSign off s
  | .lmsLeaf off => Sys2Proof.Machine.execLmsLeaf off s
  | .ecdsaPublicKey off => Sys2Proof.Machine.execEcdsaPublicKey off s
  | .pkaComplete ec => Sys2Proof.Machine.execPkaComplete ec s
  | .iluKeyWrite p core v => Sys2Proof.Machine.execIluKeyWrite p core v s
  | .iluProgram p core units addr data => Sys2Proof.Machine.execIluProgram p core units addr data s
  | .iluErase p core addr data => Sys2Proof.Machine.execIluErase p core addr data s
  | .iluSuspend p core addr data => Sys2Proof.Machine.execIluSuspend p core addr data s
  | .iluResume p core addr data => Sys2Proof.Machine.execIluResume p core addr data s
  | .iluFlagProgram p core addr data => Sys2Proof.Machine.execIluFlagProgram p core addr data s
  | .iluCommandComplete ok => Sys2Proof.Machine.execIluCommandComplete ok s
  | .iluAutoSuspend => Sys2Proof.Machine.execIluAutoSuspend s
  | .wearWindowMove => Sys2Proof.Machine.execWearWindowMove s
  | .sectorReerase ok => Sys2Proof.Machine.execSectorReerase ok s
  | .powerStateEntry => Sys2Proof.Machine.execPowerStateEntry s
  | .entrySuspend => Sys2Proof.Machine.execEntrySuspend s
  | .entryResume => Sys2Proof.Machine.execEntryResume s
  | .powerStateExit => Sys2Proof.Machine.execPowerStateExit s
  | .paddockAccessWake p => Sys2Proof.Machine.execPaddockAccessWake p s
  | .apstTransition k => Sys2Proof.Machine.execApstTransition k s
  | .noppmeWork start => Sys2Proof.Machine.execNoppmeWork start s
  | .l12Exit l => Sys2Proof.Machine.execL12Exit l s
  | .wakePattern port us => Sys2Proof.Machine.execWakePattern port us s
  | .managementWake i3c => Sys2Proof.Machine.execManagementWake i3c s
  | .standby => Sys2Proof.Machine.execStandby s
  | .standbyExit => Sys2Proof.Machine.execStandbyExit s
  | .rootSelect t => Sys2Proof.Machine.execRootSelect t s
  | .pllReference t r => Sys2Proof.Machine.execPllReference t r s
  | .aonSelect t => Sys2Proof.Machine.execAonSelect t s
  | .sourceEnable t => Sys2Proof.Machine.execSourceEnable t s
  | .sourceDisable t => Sys2Proof.Machine.execSourceDisable t s
  | .pllLock p => Sys2Proof.Machine.execPllLock p s
  | .clockPowerOnSequence x0 x1 => Sys2Proof.Machine.execClockPowerOnSequence x0 x1 s
  | .referenceLoss => Sys2Proof.Machine.execReferenceLoss s
  | .fioReady => Sys2Proof.Machine.execFioReady s
  | .fioCheck bad => Sys2Proof.Machine.execFioCheck bad s
  | .gate n => Sys2Proof.Machine.execGate n s
  | .ungate n => Sys2Proof.Machine.execUngate n s
  | .autogateExpiry n => Sys2Proof.Machine.execAutogateExpiry n s
  | .gateAcknowledge n => Sys2Proof.Machine.execGateAcknowledge n s
  | .gateTimeout n => Sys2Proof.Machine.execGateTimeout n s
  | .gatedTransaction n => Sys2Proof.Machine.execGatedTransaction n s
  | .wakingEnd n => Sys2Proof.Machine.execWakingEnd n s
  | .temperatureSample sn v => Sys2Proof.Machine.execTemperatureSample sn v s
  | .sensorSelfCheck sn ok => Sys2Proof.Machine.execSensorSelfCheck sn ok s
  | .nandTemperatureRead die v => Sys2Proof.Machine.execNandTemperatureRead die v s
  | .trimLoad => Sys2Proof.Machine.execTrimLoad s
  | .thermalEvaluation => Sys2Proof.Machine.execThermalEvaluation s
  | .thermalTrip units => Sys2Proof.Machine.execThermalTrip units s
  | .thermalTripCooldown => Sys2Proof.Machine.execThermalTripCooldown s
  | .walkFrameReceive cs broken => Sys2Proof.Machine.execWalkFrameReceive cs broken s
  | .walkFrameRemove cs broken => Sys2Proof.Machine.execWalkFrameRemove cs broken s
  | .walkTransmit arriving => Sys2Proof.Machine.execWalkTransmit arriving s
  | .ringCheckProbe => Sys2Proof.Machine.execRingCheckProbe s
  | .probeTimeout => Sys2Proof.Machine.execProbeTimeout s
  | .passSwitchChange opens => Sys2Proof.Machine.execPassSwitchChange opens s
  | .mctpPacket x => Sys2Proof.Machine.execMctpPacket x s
  | .setEndpointId => Sys2Proof.Machine.execSetEndpointId s
  | .getEndpointId => Sys2Proof.Machine.execGetEndpointId s
  | .getEndpointUuid => Sys2Proof.Machine.execGetEndpointUuid s
  | .getMctpVersionSupport => Sys2Proof.Machine.execGetMctpVersionSupport s
  | .getMessageTypeSupport => Sys2Proof.Machine.execGetMessageTypeSupport s
  | .i3cAddressAssignment a => Sys2Proof.Machine.execI3cAddressAssignment a s
  | .rstdaa => Sys2Proof.Machine.execRstdaa s
  | .readNvmeMiDataStructure => Sys2Proof.Machine.execReadNvmeMiDataStructure s
  | .healthStatusPoll => Sys2Proof.Machine.execHealthStatusPoll s
  | .configurationGet => Sys2Proof.Machine.execConfigurationGet s
  | .configurationSet => Sys2Proof.Machine.execConfigurationSet s
  | .vpdRead => Sys2Proof.Machine.execVpdRead s
  | .tunnelledAdmin => Sys2Proof.Machine.execTunnelledAdmin s
  | .readDeviceState => Sys2Proof.Machine.execReadDeviceState s
  | .getVersion v m => Sys2Proof.Machine.execGetVersion v m s
  | .getCapabilities v m => Sys2Proof.Machine.execGetCapabilities v m s
  | .negotiateAlgorithms v m => Sys2Proof.Machine.execNegotiateAlgorithms v m s
  | .getDigests v m => Sys2Proof.Machine.execGetDigests v m s
  | .getCertificate v m => Sys2Proof.Machine.execGetCertificate v m s
  | .challenge v m => Sys2Proof.Machine.execChallenge v m s
  | .getMeasurements v m => Sys2Proof.Machine.execGetMeasurements v m s
  | .chunkGet v m => Sys2Proof.Machine.execChunkGet v m s
  | .chunkSend v m => Sys2Proof.Machine.execChunkSend v m s
  | .take core src => Sys2Proof.Machine.execTake core src s
  | .done core src => Sys2Proof.Machine.execDone core src s
  | .declare core => Sys2Proof.Machine.execDeclare core s
  | .class3NotTaken src => Sys2Proof.Machine.execClass3NotTaken src s
  | .pet v => Sys2Proof.Machine.execPet v s
  | .colliePreExpiry => Sys2Proof.Machine.execColliePreExpiry s
  | .collieExpiry => Sys2Proof.Machine.execCollieExpiry s
  | .iluBoundaryReport => Sys2Proof.Machine.execIluBoundaryReport s
  | .resetHoldTimeout => Sys2Proof.Machine.execResetHoldTimeout s
  | .warmReset => Sys2Proof.Machine.execWarmReset s
  | .foldInitiatedReset failA failB => Sys2Proof.Machine.execFoldInitiatedReset failA failB s
  | .foldDoubleTrap => Sys2Proof.Machine.execFoldDoubleTrap s
  | .powerOnReset => Sys2Proof.Machine.execPowerOnReset s
  | .pwrokRise bifur dramCfg walkAddr mgmtAddr => Sys2Proof.Machine.execPwrokRise bifur dramCfg walkAddr mgmtAddr s
  | .railFault pwrokFalls units => Sys2Proof.Machine.execRailFault pwrokFalls units s
  | .readClearCounter core a => Sys2Proof.Machine.execReadClearCounter core a s
  | .registerWrite core a v => Sys2Proof.Machine.execRegisterWrite core a v s
  | .l12Entry l => Sys2Proof.Machine.execL12Entry l s
  | .d3hotExit k => Sys2Proof.Machine.execD3hotExit k s
  | .basicManagementCommand code => Sys2Proof.Machine.execBasicManagementCommand code s
  | .crystalReady x => Sys2Proof.Machine.execCrystalReady x s
  | .healthTestRecovery => Sys2Proof.Machine.execHealthTestRecovery s
  | .malformedTlp k outside => Sys2Proof.Machine.execMalformedTlp k outside s
  | .interruptCoalescingTime k q => Sys2Proof.Machine.execInterruptCoalescingTime k q s

end Sys2Proof.Machine
end

