-- ==== Sys2Proof/Machine/Step.lean ====
section
/-! DEFINITION. One step of the block: the command at the front of the queue, or an idle tick. -/

namespace Sys2Proof.Machine

/-- With no command waiting, device time advances by one step of TIME, 4 ns (R42; DESIGN CHOICE, assumption log 1). -/
def State.tick (s : State) : State := { s with dev := s.dev.advanceTo (s.dev.now + tickNs) }

/-- Takes the command at the front of the queue and runs it with the rest of the queue; with an empty queue the block idles for one tick. -/
def step (s : State) : Out :=
  match s.pending with
  | [] => .next s.tick
  | c :: rest => exec c { s with pending := rest }

/-- The state with the command that a word spells put at the front of its queue; a word spells none (no row has bits). -/
def State.withFetchWord (s : State) (nbits w : Nat) : State :=
  match decodeTableWord nbits w with
  | some c => { s with pending := c :: s.pending }
  | none => s

end Sys2Proof.Machine
end

