-- ==== Sys2Proof/Safety.lean ====
section
/-! DEFINITION. What counts as a safe state of the block and what the claims say of a command, in the terms the claims use. -/

namespace Sys2Proof.Safety

open Sys2Proof.Machine

/-- The byte memories are in canonical form: addresses rise strictly and no listed byte is what an unlisted one reads as. -/
def memoryCanonical (s : State) : Prop := memWf s.dev.mem = true

/-- A step answers a next state: it neither faults nor refuses. -/
def completes (s : State) : Prop := ∃ t, step s = .next t

/-- The command completes and leaves this device; the queue stays as it is. -/
def Gives (c : Instr) (s : State) (d : Dev) : Prop := exec c s = .next { s with dev := d }

/-- The command completes, the queue stays as it is, and the device it leaves has a property. -/
def Does (c : Instr) (s : State) (P : Dev → Prop) : Prop := ∃ d, exec c s = .next { s with dev := d } ∧ P d

/-- A core may execute the instruction in hand: it runs with its paddock On, its module is within its run limit and not at the exit
stub (R58, R121), and the fetch is permitted (R45). -/
def Fetches (d : Dev) (c : CoreId) : Prop :=
  (d.core c.val).run = .running ∧ d.padOn (corePad c.val) = true ∧ (d.core c.val).overLimit = false
    ∧ ((d.core c.val).level = .o → (d.core c.val).pc ≠ Config.exitStub)
    ∧ d.fetchTrap c.val (d.core c.val).level (d.core c.val).pc.toNat = none

/-- The instruction in hand executes: it is fetched, its encoding, core kind and level pass the checks of R75, and no event trap is due at
its boundary (R50). -/
def Ready (d : Dev) (c : CoreId) (f : Fields) (i : OpInfo) : Prop :=
  Fetches d c ∧ i.check f (kindOf c.val) (d.core c.val).level = none ∧ d.eventDue c.val = none

/-- A core after an instruction retires and continues at an address. -/
def Core.after (k : Core) (pc : Word) : Core := { k with pc := pc, instret := k.instret + 1 }

/-- A core after an instruction that writes rd and continues at the next instruction. -/
def Core.wrote (k : Core) (f : Fields) (v : Word) : Core := Core.after (k.setReg f.rd v) (k.pc + 8)

/-- The command of pen p has ended with a status and completion dwords: its completion entry stands in the completion queue and the pen
is free, or the pen holds the completion until the front end may post it. -/
def EndedWith (p : Nat) (x : PenSt) (st dw0 : Nat) (d : Dev) : Prop :=
  (d.pen p = none ∧ Output.completion x.ctrl x.sq x.cid st dw0 ∈ d.outputs)
  ∨ (∃ y, d.pen p = some y ∧ y.due = some (st, dw0) ∧ y.ctrl = x.ctrl ∧ y.sq = x.sq ∧ y.cid = x.cid)

end Sys2Proof.Safety
end

