-- ==== Sys2Proof/WellFormed.lean ====
section
/-! DEFINITION. Which commands are well formed: operands within the bounds the manual gives, where the operand's type does not bound them
already. Every command outside these bounds is still total in the machine: it has the effect its own checks give it. -/

namespace Sys2Proof

/-- A packet on the I3C or SMBus path is an MCTP header and a payload of at most 64 bytes (R498, R499). -/
def MctpIn.wellFormed : MctpIn → Bool
  | .walk => true
  | .i3c p => decide (4 ≤ p.length) && decide (p.length ≤ 68)

/-- What a walk finds: PRP entries, or SGL segments of at most 256 descriptors (R149). -/
def WalkData.wellFormed : WalkData → Bool
  | .prp _ => true
  | .sgl segs md => segs.all (fun s => decide (s.length ≤ 256)) && decide (md.length ≤ 1)

/-- The fields of a runtime Tally entry fit their places in the slot (Table 15-8). -/
def Entry.wellFormed (e : Entry) : Bool :=
  decide (e.etype < 256) && decide (e.detail < 256) && decide (e.cntlid < 65536) && decide (e.cid < 65536) && decide (e.eflags < 256)

/-- The operands of a TCG method: lengths, and authorities 1 to 13, with 0 for an anonymous session (R423 to R425). -/
def TcgMethod.wellFormed : TcgMethod → Bool
  | .installKek _ k => k.length == 32
  | .injectKey _ _ w => w.length == 72
  | .startSession _ a _ => decide (a.toNat ≤ 13)
  | .authenticate a _ => decide (1 ≤ a.toNat) && decide (a.toNat ≤ 13)
  | .setPin a _ => decide (1 ≤ a.toNat) && decide (a.toNat ≤ 13)
  | .enableAuthority a _ => decide (1 ≤ a.toNat) && decide (a.toNat ≤ 13)
  | _ => true

/-- Each die of a channel is reported once. -/
def diesDistinct : List DieInfo → Bool
  | [] => true
  | x :: t => t.all (fun y => x.index != y.index) && diesDistinct t

/-- A command is well formed. The commands without an arm take any operands of their types. -/
def Instr.wellFormed : Instr → Bool
  | .commandFetch _ _ cdw ranges => cdw.length == 16 && decide (ranges.length ≤ 4096)
  | .linkTrained _ rate width => decide (1 ≤ rate.toNat) && decide (rate.toNat ≤ 4) && [1, 2, 4, 8, 16].contains width.toNat
  | .shutdownNotification _ shn => shn == 1 || shn == 2
  | .basicManagementCommand code => code == 0 || code == 8
  | .generationRelease n _ => decide (1 ≤ n.toNat) && decide (n.toNat ≤ 1024)
  | .channelBringUp _ dies _ => diesDistinct dies
  | .dataPointerWalkEnd _ w => w.wellFormed
  | .mctpPacket x => x.wellFormed
  | .walkFrameReceive cs _ => decide (cs.length ≤ 75)
  | .walkFrameRemove cs _ => decide (cs.length ≤ 75)
  | .wakePattern _ us => us.length == 5
  | .tallyAppend e _ => e.wellFormed
  | .tcgMethod _ m => m.wellFormed
  | .provisioning serial keys helper _ _ _ => decide (serial.length ≤ 16) && decide (keys.length ≤ 192) && decide (helper.length ≤ 1024)
  | _ => true

end Sys2Proof
end

