-- ==== Sys2Proof/Certificates/Slice0/Obligations.lean ====
section
/-! DEFINITION. The statements about the model, each a rule of the manual or derived from its rules. -/

open Sys2Proof Sys2Proof.Machine Sys2Proof.Safety

/-- The register operations: opcode, command, result. -/
def Sys2Proof.Safety.registerOps : List (Nat × (CoreId → Fields → Instr) × (Word → Word → Word)) :=
  [(0x01, .add, fun x y => x + y), (0x02, .sub, fun x y => x - y), (0x03, .and, fun x y => x &&& y), (0x04, .or, fun x y => x ||| y),
   (0x05, .xor, fun x y => x ^^^ y), (0x06, .sll, fun x y => x <<< (y &&& 63)), (0x07, .srl, fun x y => x >>> (y &&& 63)),
   (0x08, .sra, fun x y => BitVec.ofInt 64 (x.toInt / 2 ^ (y &&& 63).toNat)), (0x09, .slt, fun x y => if x.slt y then 1 else 0),
   (0x0A, .sltu, fun x y => if x.ult y then 1 else 0), (0x0B, .min, fun x y => if x.sle y then x else y),
   (0x0C, .max, fun x y => if x.sle y then y else x), (0x0D, .minu, fun x y => if x ≤ y then x else y),
   (0x0E, .maxu, fun x y => if x ≤ y then y else x), (0x0F, .mul, fun x y => x * y),
   (0x10, .mulh, fun x y => BitVec.ofInt 64 (x.toInt * y.toInt / 2 ^ 64)), (0x11, .mulhu, fun x y => BitVec.ofNat 64 (x.toNat * y.toNat / 2 ^ 64)),
   (0x12, .div, fun x y => if y = 0 then -1 else x.sdiv y), (0x13, .divu, fun x y => if y = 0 then -1 else x / y),
   (0x14, .rem, fun x y => if y = 0 then x else x.srem y), (0x15, .remu, fun x y => if y = 0 then x else x % y)]
/-- The operations on the bits of one register: opcode, command, what the result is. -/
def Sys2Proof.Safety.bitOps : List (Nat × (CoreId → Fields → Instr) × (Word → Word → Prop)) :=
  [(0x16, .clz, fun x v => v.toNat ≤ 64 ∧ (∀ i, 64 - v.toNat ≤ i → x.getLsbD i = false) ∧ (v.toNat < 64 → x.getLsbD (63 - v.toNat) = true)),
   (0x17, .ctz, fun x v => v.toNat ≤ 64 ∧ (∀ i, i < v.toNat → x.getLsbD i = false) ∧ (v.toNat < 64 → x.getLsbD v.toNat = true)),
   (0x18, .popc, fun x v => v.toNat = countOnes 64 x.toNat),
   (0x19, .bswap, fun x v => ∀ i < 8, v.extractLsb' (8 * i) 8 = x.extractLsb' (56 - 8 * i) 8)]
/-- For each of ADD to BSWAP of Table 3-3, on any core, registers and state where the instruction executes (Ready), the command completes;
the only change is the core's: rd takes the table's result of rs1 and rs2 (a write to g0 is discarded; for CLZ, CTZ and POPC the count of
rs1's leading zero, trailing zero or one bits, for BSWAP its bytes reversed), the pc moves on by 8 and INSTRET by 1. (R77, R40) -/
def Obligations.BexobRegisterOperations : Prop :=
  (∀ r ∈ registerOps, ∀ (c : CoreId) (f : Fields) (s : State), Ready s.dev c f (opR r.1) →
    Gives (r.2.1 c f) s (s.dev.setCore c.val (Core.wrote (s.dev.core c.val) f
      (r.2.2 ((s.dev.core c.val).reg f.rs1) ((s.dev.core c.val).reg f.rs2)))))
  ∧ (∀ r ∈ bitOps, ∀ (c : CoreId) (f : Fields) (s : State), Ready s.dev c f (opR1 r.1) →
    ∃ v, Gives (r.2.1 c f) s (s.dev.setCore c.val (Core.wrote (s.dev.core c.val) f v)) ∧ r.2.2 ((s.dev.core c.val).reg f.rs1) v)

/-- The immediate operations: what R73 fixes for them, command, result of pc, rs1 and imm41. -/
def Sys2Proof.Safety.immediateOps : List (OpInfo × (CoreId → Fields → Instr) × (Word → Word → BitVec 41 → Word)) :=
  [(opI 0x20, .addi, fun _ x i => x + i.signExtend 64), (opI 0x21, .andi, fun _ x i => x &&& i.setWidth 64),
   (opI 0x22, .ori, fun _ x i => x ||| i.setWidth 64), (opI 0x23, .xori, fun _ x i => x ^^^ i.setWidth 64),
   ({ opI 0x24 with imm := 0x3F }, .slli, fun _ x i => x <<< (i &&& 63)), ({ opI 0x25 with imm := 0x3F }, .srli, fun _ x i => x >>> (i &&& 63)),
   ({ opI 0x26 with imm := 0x3F }, .srai, fun _ x i => BitVec.ofInt 64 (x.toInt / 2 ^ (i &&& 63).toNat)),
   (opI 0x27, .slti, fun _ x i => if x.slt (i.signExtend 64) then 1 else 0),
   (opI 0x28, .sltiu, fun _ x i => if x.ult (i.signExtend 64) then 1 else 0),
   ({ opI 0x29 with rs1 := false }, .lui, fun _ _ i => BitVec.ofNat 64 (i.toNat * 2 ^ 23)),
   ({ opI 0x2A with rs1 := false }, .auipc, fun pc _ i => pc + i.signExtend 64)]
/-- Where ADDI, SLTI, SLTIU (imm41 sign-extended), ANDI, ORI, XORI (zero-extended), SLLI, SRLI, SRAI (shift imm41[5:0], bits [40:6] zero),
LUI or AUIPC executes, the command completes and only the core changes: rd takes the result, the pc moves on by 8 and INSTRET by 1. (R74,
R77) -/
def Obligations.BexobImmediateOperations : Prop :=
  ∀ r ∈ immediateOps, ∀ (c : CoreId) (f : Fields) (s : State), Ready s.dev c f r.1 →
    Gives (r.2.1 c f) s (s.dev.setCore c.val (Core.wrote (s.dev.core c.val) f
      (r.2.2 (s.dev.core c.val).pc ((s.dev.core c.val).reg f.rs1) f.imm)))

/-- The branches: opcode, command, condition. -/
def Sys2Proof.Safety.branchOps : List (Nat × (CoreId → Fields → Instr) × (Word → Word → Bool)) :=
  [(0x30, .beq, fun x y => decide (x = y)), (0x31, .bne, fun x y => decide (x ≠ y)), (0x32, .blt, fun x y => x.slt y),
   (0x33, .bge, fun x y => !x.slt y), (0x34, .bltu, fun x y => x.ult y), (0x35, .bgeu, fun x y => !x.ult y)]
/-- Where a branch executes, the core continues at pc + sext(imm41) × 8 when its condition of rs1 and rs2 holds and else at the next
instruction, and nothing else changes but INSTRET. JAL writes pc + 8 and continues at pc + sext(imm41) × 8; JALR writes pc + 8 and continues
at rs1 + sext(imm41) when that is 8-byte aligned. An unaligned JALR outside a trap raises the misaligned-access trap: no register is
written, EPC is the JALR and ETVAL the target. (R78) -/
def Obligations.BexobBranches : Prop :=
  (∀ r ∈ branchOps, ∀ (c : CoreId) (f : Fields) (s : State), Ready s.dev c f (opS r.1) →
    Gives (r.2.1 c f) s (s.dev.setCore c.val (Core.after (s.dev.core c.val)
      (if r.2.2 ((s.dev.core c.val).reg f.rs1) ((s.dev.core c.val).reg f.rs2)
       then (s.dev.core c.val).pc + f.imm.signExtend 64 * 8 else (s.dev.core c.val).pc + 8))))
  ∧ (∀ (c : CoreId) (f : Fields) (s : State), Ready s.dev c f { opI 0x36 with rs1 := false } →
    Gives (.jal c f) s (s.dev.setCore c.val (Core.after ((s.dev.core c.val).setReg f.rd ((s.dev.core c.val).pc + 8))
      ((s.dev.core c.val).pc + f.imm.signExtend 64 * 8))))
  ∧ (∀ (c : CoreId) (f : Fields) (s : State) (t : Word), Ready s.dev c f (opI 0x37) →
    t = (s.dev.core c.val).reg f.rs1 + f.imm.signExtend 64 →
    (t.extractLsb' 0 3 = 0 → Gives (.jalr c f) s (s.dev.setCore c.val
      (Core.after ((s.dev.core c.val).setReg f.rd ((s.dev.core c.val).pc + 8)) t)))
    ∧ (t.extractLsb' 0 3 ≠ 0 → (s.dev.core c.val).inTrap = false → (s.dev.core c.val).level ≠ .o →
        Gives (.jalr c f) s (s.dev.setCore c.val
          ((s.dev.core c.val).enterTrap c.val (.fault 4 2 t) (s.dev.core c.val).pc))))

/-- The loads: opcode, command, bytes, sign extension. -/
def Sys2Proof.Safety.loadOps : List (Nat × (CoreId → Fields → Instr) × Nat × Bool) :=
  [(0x40, .ld, 8, true), (0x41, .lw, 4, true), (0x42, .lwu, 4, false), (0x43, .lh, 2, true), (0x44, .lhu, 2, false), (0x45, .lb, 1, true),
   (0x46, .lbu, 1, false)]
/-- Where LD, LW, LWU, LH, LHU, LB or LBU executes at an address aligned to its size that the level may read in byte-addressed memory (at
direct address m) in a word without a raddle mark, the command completes and only the core changes: rd takes the little-endian bytes at m,
sign- or zero-extended to 64 bits. (R79, R40) -/
def Obligations.BexobLoads : Prop :=
  ∀ r ∈ loadOps, ∀ (c : CoreId) (f : Fields) (s : State) (a m : Nat), Ready s.dev c f (opI r.1) →
    a = ((s.dev.core c.val).reg f.rs1 + f.imm.signExtend 64).toNat → a % r.2.2.1 = 0 →
    s.dev.access c.val (s.dev.core c.val).level a .load = .ok (.mem m) → s.dev.marked m = false →
    Gives (r.2.1 c f) s (s.dev.setCore c.val (Core.wrote (s.dev.core c.val) f
      (if r.2.2.2 then (BitVec.ofNat (8 * r.2.2.1) (ofLe (s.dev.bytes m r.2.2.1))).signExtend 64
       else BitVec.ofNat 64 (ofLe (s.dev.bytes m r.2.2.1)))))

/-- The stores: opcode, command, bytes. -/
def Sys2Proof.Safety.storeOps : List (Nat × (CoreId → Fields → Instr) × Nat) := [(0x48, .sd, 8), (0x49, .sw, 4), (0x4A, .sh, 2), (0x4B, .sb, 1)]
/-- Where SD, SW, SH or SB executes at an aligned address a that the level may store to in byte-addressed memory (at direct address m), the
word not marked unless the store is SD, the command completes: the bytes from m take the low bytes of rs2, every other byte of memory reads
as before, an SD clears the mark of its word and no other mark changes, and of the rest only the core's pc and INSTRET move. (R79, R80) -/
def Obligations.BexobStores : Prop :=
  ∀ r ∈ storeOps, ∀ (c : CoreId) (f : Fields) (s : State) (a m : Nat), Ready s.dev c f (opS r.1) →
    a = ((s.dev.core c.val).reg f.rs1 + f.imm.signExtend 64).toNat → a % r.2.2 = 0 →
    s.dev.access c.val (s.dev.core c.val).level a .store = .ok (.mem m) → (r.2.2 = 8 ∨ s.dev.marked m = false) →
    Does (r.2.1 c f) s fun d =>
      (∀ i < r.2.2, d.byte (m + i) = ((s.dev.core c.val).reg f.rs2).extractLsb' (8 * i) 8)
      ∧ (∀ x, x < m ∨ m + r.2.2 ≤ x → d.byte x = s.dev.byte x)
      ∧ (∀ w, w ∈ d.marks ↔ w ∈ s.dev.marks ∧ ¬ (m ≤ w ∧ w + 8 ≤ m + r.2.2))
      ∧ d = { s.dev with mem := d.mem, marks := d.marks,
                         cores := s.dev.cores.set c.val (Core.after (s.dev.core c.val) ((s.dev.core c.val).pc + 8)) }

/-- The atomics: opcode, command, new memory value of the old one, rs2 and rd before the instruction. -/
def Sys2Proof.Safety.atomicOps : List (Nat × (CoreId → Fields → Instr) × (Word → Word → Word → Word)) :=
  [(0x50, .amoadd, fun m y _ => m + y), (0x51, .amoand, fun m y _ => m &&& y), (0x52, .amoor, fun m y _ => m ||| y),
   (0x53, .amoxor, fun m y _ => m ^^^ y), (0x54, .amoswap, fun _ y _ => y), (0x55, .amomaxu, fun m y _ => if m ≤ y then y else m),
   (0x56, .amominu, fun m y _ => if m ≤ y then m else y), (0x57, .cas, fun m y z => if m = z then y else m)]
/-- Where AMOADD, AMOAND, AMOOR, AMOXOR, AMOSWAP, AMOMAXU, AMOMINU or CAS executes at an 8-byte aligned address that the level may reach for
an atomic (direct address m) in a word without a raddle mark, the command completes: the 8 bytes at m take the operation's new value of the
old one, rs2 and rd (CAS leaves them where memory differs from rd), every other byte reads as before, and rd takes the old value. (R81) -/
def Obligations.BexobAtomics : Prop :=
  ∀ r ∈ atomicOps, ∀ (c : CoreId) (f : Fields) (s : State) (a m : Nat) (old : Word), Ready s.dev c f (opR r.1) →
    a = ((s.dev.core c.val).reg f.rs1).toNat → a % 8 = 0 →
    s.dev.access c.val (s.dev.core c.val).level a .amo = .ok (.mem m) → s.dev.marked m = false →
    old = BitVec.ofNat 64 (ofLe (s.dev.bytes m 8)) →
    Does (r.2.1 c f) s fun d =>
      BitVec.ofNat 64 (ofLe (d.bytes m 8)) = r.2.2 old ((s.dev.core c.val).reg f.rs2) ((s.dev.core c.val).reg f.rd)
      ∧ (∀ x, x < m ∨ m + 8 ≤ x → d.byte x = s.dev.byte x)
      ∧ d = { s.dev with mem := d.mem, cores := s.dev.cores.set c.val (Core.wrote (s.dev.core c.val) f old) }

/-- Where WAITEV executes with a mask that is not zero (ANDed with bit 8 at level O), it completes at once with EVPEND under the mask in rd
when an input of the mask is asserted, and else stalls the core at its own address with nothing else changed; a mask of zero outside a trap
raises the illegal-instruction trap. WAITEV_WAKE completes a stalled WAITEV once an input of its mask is asserted and no event trap is due.
EVENT_TRAP, where ESTAT.IE is set, an input that EVTRAP selects is asserted, and the core runs, pauses or stalls in WAITEV outside a trap
with its paddock On, enters the trap with that input's number as detail, ETVAL holding the inputs and EPC the core's pc. CORE_TIMER lets
time pass until TIME reaches TIMERCMP. (R48, R49, R50) -/
def Obligations.BexobEvents : Prop :=
  (∀ (c : CoreId) (f : Fields) (s : State) (m : Nat), Ready s.dev c f { opI 0x60 with rs1 := false, imm := 0xFFFF } →
    m = (f.imm.toNat % 65536) &&& (if (s.dev.core c.val).level = .o then 0x100 else 0xFFFF) →
    (m ≠ 0 → bitsNum (s.dev.inputs c.val) &&& m ≠ 0 → Gives (.waitev c f) s (s.dev.setCore c.val
      (Core.wrote (s.dev.core c.val) f (BitVec.ofNat 64 (bitsNum (s.dev.inputs c.val) &&& m)))))
    ∧ (m ≠ 0 → bitsNum (s.dev.inputs c.val) &&& m = 0 → Gives (.waitev c f) s (s.dev.setCore c.val
        { s.dev.core c.val with run := .waitev f.rd (BitVec.ofNat 16 m) }))
    ∧ (m = 0 → (s.dev.core c.val).inTrap = false → (s.dev.core c.val).level ≠ .o → Gives (.waitev c f) s (s.dev.setCore c.val
        ((s.dev.core c.val).enterTrap c.val (.fault 1 7 (instrWord 0x60 f)) (s.dev.core c.val).pc))))
  ∧ (∀ (c : CoreId) (s : State) (rd : BitVec 5) (m : BitVec 16), (s.dev.core c.val).run = .waitev rd m → s.dev.eventDue c.val = none →
    bitsNum (s.dev.inputs c.val) &&& m.toNat ≠ 0 → Gives (.waitevWake c) s (s.dev.setCore c.val
      { (s.dev.core c.val).setReg rd (BitVec.ofNat 64 (bitsNum (s.dev.inputs c.val) &&& m.toNat)) with
        run := .running, pc := (s.dev.core c.val).pc + 8, instret := (s.dev.core c.val).instret + 1 }))
  ∧ (∀ (c : CoreId) (s : State) (n : Nat), s.dev.eventDue c.val = some n → (s.dev.core c.val).interruptible = true →
    s.dev.padOn (corePad c.val) = true → (s.dev.core c.val).inTrap = false → Gives (.eventTrap c) s (s.dev.setCore c.val
      ((s.dev.core c.val).enterTrap c.val (.fault 9 n (BitVec.ofNat 64 (bitsNum (s.dev.inputs c.val)))) (s.dev.core c.val).pc)))
  ∧ (∀ (c : CoreId) (s : State), (s.dev.core c.val).run ≠ .inReset → s.dev.clk.hold = false →
    (s.dev.core c.val).timercmp.toNat ≤ 2 ^ 64 - 4 →
    Does (.coreTimer c) s fun d => (s.dev.core c.val).timercmp.toNat ≤ d.timeOf c.val ∧ d.mem = s.dev.mem ∧ d.evt = s.dev.evt)

/-- A core has taken a trap from a state of it: R52, steps 1 to 5. -/
def Sys2Proof.Safety.Entered (k : Core) (c : CoreId) (t : Trap) (epc : Word) (k1 : Core) : Prop :=
  k1.epc = epc ∧ k1.ecause = BitVec.ofNat 64 (t.cause + t.detail * 65536) ∧ k1.etval = t.tval
    ∧ bitsOf k1.estat.toNat 1 0 = k.level.code ∧ bitOf k1.estat.toNat 2 = bitOf k.estat.toNat 4 ∧ k1.inTrap = true ∧ k1.ie = false
    ∧ k1.level = (if kindOf c.val = .fold then .f else .v) ∧ k1.pc = k.tvec &&& ~~~7 ∧ k1.run = .running
    ∧ k1 = { k with epc := k1.epc, ecause := k1.ecause, etval := k1.etval, estat := k1.estat, level := k1.level, pc := k1.pc, run := k1.run }
/-- The core of a state takes a trap and nothing else changes. -/
def Sys2Proof.Safety.Takes (i : Instr) (s : State) (c : CoreId) (k : Core) (t : Trap) (epc : Word) : Prop :=
  ∃ k1, Entered k c t epc k1 ∧ Gives i s (s.dev.setCore c.val k1)
/-- A trap of a core outside a trap writes EPC, ECAUSE and ETVAL, copies the level to PPRIV and IE to PIE, clears IE and sets INTRAP, sets
the level to V on Shepherd and Drover cores and leaves it on the Fold (a Fold core at F), and continues at TVEC without its low three bits;
every other register of the core, every other core and all memory are unchanged (at O the core then ends its module, unless the trap is a
service call or an event). A fault's EPC is its own address, TRAP's the next instruction, an event's the next instruction not yet executed:
shown for the register operations of Table 3-3, TRAP and EVENT_TRAP. Inside a trap the core halts, keeps its registers, and posts a record
of class 3 with the new cause to its own source. ERET restores level, IE and pc from PPRIV, PIE and EPC and clears INTRAP, or raises the
illegal-instruction trap when the core kind does not run the level. (R52, R54) -/
def Obligations.TrapEntry : Prop :=
  (∀ (d : Dev) (c : CoreId) (t : Trap) (epc : Word), (d.core c.val).inTrap = false →
    ∃ k1, Entered (d.core c.val) c t epc k1 ∧ d.trap c.val t epc =
      (if (d.core c.val).level = .o ∧ t.cause ≠ 8 ∧ t.cause ≠ 9 then (d.setCore c.val k1).endModule c.val 1 t.cause 0 else d.setCore c.val k1))
  ∧ (∀ (d : Dev) (c : CoreId) (t : Trap) (epc : Word), (d.core c.val).inTrap = true →
    d.trap c.val t epc = (d.setCore c.val { d.core c.val with run := .halted }).post (ownSource c.val) (coreIdOf c.val)
      (t.cause + t.detail * 65536) 0x08 3)
  ∧ (∀ r ∈ registerOps, ∀ (c : CoreId) (f : Fields) (s : State) (t : Trap), Fetches s.dev c → (s.dev.core c.val).inTrap = false →
    (s.dev.core c.val).level ≠ .o → (opR r.1).check f (kindOf c.val) (s.dev.core c.val).level = some t →
    Takes (r.2.1 c f) s c (s.dev.core c.val) t (s.dev.core c.val).pc)
  ∧ (∀ (c : CoreId) (f : Fields) (s : State), Ready s.dev c f { opI 0x65 with rd := false, rs1 := false, imm := 0xFF } →
    (s.dev.core c.val).inTrap = false → (s.dev.core c.val).level ≠ .o →
    Takes (.trap c f) s c (Core.after (s.dev.core c.val) ((s.dev.core c.val).pc + 8))
      { cause := 8, detail := f.imm.toNat, tval := instrWord 0x65 f, next := true } ((s.dev.core c.val).pc + 8))
  ∧ (∀ (c : CoreId) (s : State) (n : Nat), s.dev.eventDue c.val = some n → (s.dev.core c.val).interruptible = true →
    s.dev.padOn (corePad c.val) = true → (s.dev.core c.val).inTrap = false →
    Takes (.eventTrap c) s c (s.dev.core c.val) (.fault 9 n (BitVec.ofNat 64 (bitsNum (s.dev.inputs c.val)))) (s.dev.core c.val).pc)
  ∧ (∀ (c : CoreId) (f : Fields) (s : State), Ready s.dev c f ({ opR1 0x66 with rd := false, rs1 := false }.only allKinds [.f, .v]) →
    (∀ l : Level, bitsOf (s.dev.core c.val).estat.toNat 1 0 = l.code → l ∈ kindLevels (kindOf c.val) →
      Does (.eret c f) s fun d => (d.core c.val).level = l ∧ (d.core c.val).pc = (s.dev.core c.val).epc
        ∧ (d.core c.val).ie = (s.dev.core c.val).pie ∧ (d.core c.val).inTrap = false
        ∧ (d.core c.val).regs = (s.dev.core c.val).regs ∧ d = { s.dev with cores := d.cores })
    ∧ ((∀ l : Level, bitsOf (s.dev.core c.val).estat.toNat 1 0 = l.code → l ∉ kindLevels (kindOf c.val)) →
        (s.dev.core c.val).inTrap = false →
        Takes (.eret c f) s c (s.dev.core c.val) (.fault 1 8 (instrWord 0x66 f)) (s.dev.core c.val).pc))

/-- Where MSGSEND executes with a number that names core t: with t's paddock On and fewer than 16 entries waiting, the message with the
sender's identity and rs2[31:0] joins t's queue and rd takes 0; with 16 or more entries rd takes 1 and nothing is sent; with the paddock not
On, or a number that names no core, rd takes 2 and nothing is sent. Where MSGRECV executes, the oldest entry leaves the queue and rd takes
bit 63, the sender in [47:32] and the payload; rd takes 0 from an empty queue. (R82) -/
def Obligations.BexobMessages : Prop :=
  (∀ (c : CoreId) (f : Fields) (s : State) (t : Nat), Ready s.dev c f ((opR 0x61).only allKinds [.f, .v]) →
    t < 41 → ((s.dev.core c.val).reg f.rs1).toNat = coreIdOf t →
    (s.dev.padOn (corePad t) = true → (s.dev.core t).msgs.length < 16 → ∃ d1,
      d1 = s.dev.setCore t { s.dev.core t with msgs := (s.dev.core t).msgs ++
        [{ sender := BitVec.ofNat 16 (coreIdOf c.val), payload := ((s.dev.core c.val).reg f.rs2).setWidth 32 }] }
      ∧ Gives (.msgsend c f) s (d1.setCore c.val (Core.wrote (d1.core c.val) f 0)))
    ∧ (s.dev.padOn (corePad t) = true → 16 ≤ (s.dev.core t).msgs.length →
        Gives (.msgsend c f) s (s.dev.setCore c.val (Core.wrote (s.dev.core c.val) f 1)))
    ∧ (s.dev.padOn (corePad t) = false → Gives (.msgsend c f) s (s.dev.setCore c.val (Core.wrote (s.dev.core c.val) f 2))))
  ∧ (∀ (c : CoreId) (f : Fields) (s : State), Ready s.dev c f ((opR 0x61).only allKinds [.f, .v]) →
    (∀ t < 41, ((s.dev.core c.val).reg f.rs1).toNat ≠ coreIdOf t) →
    Gives (.msgsend c f) s (s.dev.setCore c.val (Core.wrote (s.dev.core c.val) f 2)))
  ∧ (∀ (c : CoreId) (f : Fields) (s : State), Ready s.dev c f ({ opR1 0x62 with rs1 := false }.only allKinds [.f, .v]) →
    ((s.dev.core c.val).msgs = [] → Gives (.msgrecv c f) s (s.dev.setCore c.val (Core.wrote (s.dev.core c.val) f 0)))
    ∧ (∀ m rest, (s.dev.core c.val).msgs = m :: rest → Gives (.msgrecv c f) s (s.dev.setCore c.val
        (Core.wrote { s.dev.core c.val with msgs := rest } f (1#1 ++ 0#15 ++ m.sender ++ m.payload)))))

/-- Where YIELD executes, the core retires it and pauses for imm41[5:0] + 1 cycles; YIELD_RESUME lets a pausing core run again. Where FENCE
executes with bit 0 clear, or with no MOVE or parity operation of the core outstanding, it retires with nothing else changed; with bit 0 set
and such an operation outstanding the core waits. Where REST executes with PWRMODE.ARM set, SELF 0 and SET 0, the core rests at the next
instruction; with ARM clear or SELF 0b11, outside a trap, it raises the illegal-instruction trap. REST_WAKE of a resting core with e11 or an
input of EVTRAP asserted lets it run with ARM clear. (R43) -/
def Obligations.BexobPauses : Prop :=
  (∀ (c : CoreId) (f : Fields) (s : State), Ready s.dev c f { opI 0x63 with rd := false, rs1 := false, imm := 0x3F } →
    Gives (.yield c f) s (s.dev.setCore c.val (Core.after
      { s.dev.core c.val with run := .yielding (s.dev.run + cyclesNs c.val (f.imm.toNat % 64 + 1)) } ((s.dev.core c.val).pc + 8))))
  ∧ (∀ (c : CoreId) (s : State) (t : Nat), (s.dev.core c.val).run = .yielding t → s.dev.clk.hold = false →
    Does (.yieldResume c) s fun d => (d.core c.val).run = .running ∧ (d.core c.val).pc = (s.dev.core c.val).pc ∧ t ≤ d.run ∧ d.mem = s.dev.mem)
  ∧ (∀ (c : CoreId) (f : Fields) (s : State), Ready s.dev c f { opI 0x64 with rd := false, rs1 := false, imm := 1 } →
    (f.imm.getLsbD 0 = false ∨ ((s.dev.core c.val).moves = [] ∧ (s.dev.core c.val).pars = []) →
      Gives (.fence c f) s (s.dev.setCore c.val (Core.after (s.dev.core c.val) ((s.dev.core c.val).pc + 8))))
    ∧ (f.imm.getLsbD 0 = true → (s.dev.core c.val).moves ≠ [] ∨ (s.dev.core c.val).pars ≠ [] →
      Gives (.fence c f) s (s.dev.setCore c.val { s.dev.core c.val with run := .fencing })))
  ∧ (∀ (c : CoreId) (f : Fields) (s : State), Ready s.dev c f ({ opR1 0x69 with rd := false, rs1 := false }.only allKinds [.f, .v]) →
    ((s.dev.core c.val).pwrArm = true → (s.dev.core c.val).pwrSelf = 0 → (s.dev.core c.val).pwrSet = 0 →
      Gives (.rest c f) s (s.dev.setCore c.val (Core.after { s.dev.core c.val with run := .resting } ((s.dev.core c.val).pc + 8))))
    ∧ (((s.dev.core c.val).pwrArm = false ∨ (s.dev.core c.val).pwrSelf = 3) → (s.dev.core c.val).inTrap = false →
      Gives (.rest c f) s (s.dev.setCore c.val
        ((s.dev.core c.val).enterTrap c.val (.fault 1 6 (instrWord 0x69 f)) (s.dev.core c.val).pc))))
  ∧ (∀ (c : CoreId) (s : State), (s.dev.core c.val).run = .resting →
    bitsNum (s.dev.inputs c.val) &&& ((s.dev.core c.val).evtrap.toNat ||| 0x800) ≠ 0 →
    Does (.restWake c) s fun d => (d.core c.val).run = .running ∧ (d.core c.val).pwrArm = false ∧ d.mem = s.dev.mem)

/-- The special registers a level may write and how SPSET changes a core. -/
def Sys2Proof.Safety.writableSp : List (Nat × (Core → Word → Core)) :=
  [(0x002, fun k v => { k with epc := v }), (0x005, fun k v => { k with estat := v &&& 0x1F }), (0x006, fun k v => { k with tvec := v }),
   (0x008, fun k v => { k with evtrap := v &&& 0xFFFF }), (0x00B, fun k v => { k with timercmp := v }),
   (0x00C, fun k v => { k with pwrmode := v &&& 0x1FF03 }), (0x00D, fun k v => { k with save0 := v }), (0x00E, fun k v => { k with save1 := v })]
/-- The special registers that hold a core's own field, with the field. -/
def Sys2Proof.Safety.readableSp : List (Nat × (Core → Word)) :=
  [(0x001, fun k => BitVec.ofNat 64 k.level.code), (0x002, fun k => k.epc), (0x003, fun k => k.ecause), (0x004, fun k => k.etval),
   (0x005, fun k => k.estat), (0x006, fun k => k.tvec), (0x008, fun k => k.evtrap), (0x00B, fun k => k.timercmp), (0x00C, fun k => k.pwrmode),
   (0x00D, fun k => k.save0), (0x00E, fun k => k.save1), (0x00F, fun k => k.instret), (0x010, fun k => if k.level = .o then k.modinst else 0)]
/-- Where SPGET executes on a register that Table 2-3 lets the level read, rd takes its value and nothing else changes but pc and INSTRET.
Where SPSET executes on a register the level may write, that register takes rs1 (ESTAT, EVTRAP and PWRMODE keep their reserved bits zero)
and no other changes. Outside a trap and above O, a number not listed raises the illegal-instruction trap, a register the level may not
reach the privilege trap, a write to a read-only one the illegal-instruction trap. Where TRAP executes outside a trap above O, it retires
and enters the service-call trap with detail imm41[7:0] and EPC the next instruction. (R41, R86) -/
def Obligations.SpecialRegisters : Prop :=
  (∀ r ∈ readableSp, ∀ (c : CoreId) (f : Fields) (s : State), Ready s.dev c f { opI 0x67 with rs1 := false, imm := 0xFFF } →
    f.imm.toNat = r.1 → ((s.dev.core c.val).level ≠ .o ∨ r.1 = 0x001 ∨ r.1 = 0x00B ∨ r.1 = 0x00F ∨ r.1 = 0x010) →
    Gives (.spget c f) s (s.dev.setCore c.val (Core.wrote (s.dev.core c.val) f (r.2 (s.dev.core c.val)))))
  ∧ (∀ r ∈ writableSp, ∀ (c : CoreId) (f : Fields) (s : State), Ready s.dev c f { opI 0x68 with rd := false, imm := 0xFFF } →
    f.imm.toNat = r.1 → ((s.dev.core c.val).level ≠ .o ∨ r.1 = 0x00B) →
    Gives (.spset c f) s (s.dev.setCore c.val
      (Core.after (r.2 (s.dev.core c.val) ((s.dev.core c.val).reg f.rs1)) ((s.dev.core c.val).pc + 8))))
  ∧ (∀ (c : CoreId) (f : Fields) (s : State), Ready s.dev c f { opI 0x68 with rd := false, imm := 0xFFF } →
    (s.dev.core c.val).inTrap = false → (s.dev.core c.val).level ≠ .o →
    (0x012 ≤ f.imm.toNat → Gives (.spset c f) s (s.dev.setCore c.val
      ((s.dev.core c.val).enterTrap c.val (.fault 1 5 (instrWord 0x68 f)) (s.dev.core c.val).pc)))
    ∧ (f.imm.toNat = 0x00F → Gives (.spset c f) s (s.dev.setCore c.val
      ((s.dev.core c.val).enterTrap c.val (.fault 1 4 (instrWord 0x68 f)) (s.dev.core c.val).pc)))
    ∧ (f.imm.toNat = 0x011 → (s.dev.core c.val).level = .f → Gives (.spset c f) s (s.dev.setCore c.val
      ((s.dev.core c.val).enterTrap c.val (.fault 2 2 (instrWord 0x68 f)) (s.dev.core c.val).pc))))
  ∧ (∀ (c : CoreId) (f : Fields) (s : State), Ready s.dev c f { opI 0x65 with rd := false, rs1 := false, imm := 0xFF } →
    (s.dev.core c.val).inTrap = false → (s.dev.core c.val).level ≠ .o →
    Gives (.trap c f) s (s.dev.setCore c.val ((Core.after (s.dev.core c.val) ((s.dev.core c.val).pc + 8)).enterTrap c.val
      { cause := 8, detail := f.imm.toNat, tval := instrWord 0x65 f, next := true } ((s.dev.core c.val).pc + 8))))

/-- A service call has returned to the module with a status. -/
def Sys2Proof.Safety.ServiceReturned (s : State) (c : CoreId) (d : Dev) (v : Word) : Prop :=
  (d.core c.val).level = .o ∧ (d.core c.val).pc = (s.dev.core c.val).epc ∧ (d.core c.val).reg 1 = v ∧ (d.core c.val).inTrap = false
/-- Where V firmware of a core has a service call of the module in hand: call 0 ends the module (nothing runs on the core at O, its level is
V and no transaction of the instance that was still open stays open); call 1 with g2 = 0 returns 0, with a full result buffer returns 1,
with an unreadable byte returns 2, and else appends the bytes and returns 0; call 2 returns the remaining run limit in whole microseconds;
call 3 lets the given microseconds (at most g1) pass and returns them. Calls 1 to 3 return to level O at EPC with the status in g1. The
run-limit expiry ends the module of a core outside a trap. (R59) -/
def Obligations.ServiceCalls : Prop :=
  (∀ (c : CoreId) (s : State), s.dev.serviceIn c.val = some 0 → Does (.serviceExit c) s fun d =>
    (d.core c.val).modRun = none ∧ (d.core c.val).level = .v ∧ d.mem = s.dev.mem
    ∧ (∀ m, (s.dev.core c.val).modRun = some m → ∀ t ∈ d.cfg.txns, t.phase = .opened → t.ctx ≠ { core := c.val, inst := m.inst }))
  ∧ (∀ (c : CoreId) (s : State) (m : ModRun) (a n : Nat), s.dev.serviceIn c.val = some 1 → (s.dev.core c.val).modRun = some m →
    a = ((s.dev.core c.val).reg 1).toNat → n = ((s.dev.core c.val).reg 2).toNat →
    (n = 0 → Does (.serviceAppendResult c) s fun d => ServiceReturned s c d 0 ∧ (d.core c.val).modRun = some m)
    ∧ (n ≠ 0 → 65536 < m.result.length + n →
        Does (.serviceAppendResult c) s fun d => ServiceReturned s c d 1 ∧ (d.core c.val).modRun = some m)
    ∧ (n ≠ 0 → m.result.length + n ≤ 65536 → (s.dev.rangeTrap c.val .o a n .load).isSome = true →
        Does (.serviceAppendResult c) s fun d => ServiceReturned s c d 2 ∧ (d.core c.val).modRun = some m)
    ∧ (n ≠ 0 → m.result.length + n ≤ 65536 → s.dev.rangeTrap c.val .o a n .load = none →
        Does (.serviceAppendResult c) s fun d => ServiceReturned s c d 0
          ∧ (d.core c.val).modRun = some { m with result := m.result ++ s.dev.rangeBytes c.val .o a n }))
  ∧ (∀ (c : CoreId) (s : State) (m : ModRun), s.dev.serviceIn c.val = some 2 → (s.dev.core c.val).modRun = some m →
    Does (.serviceRunLimitQuery c) s fun d => ServiceReturned s c d (BitVec.ofNat 64 ((m.limitUs * 1000 - m.usedNs) / 1000)))
  ∧ (∀ (c : CoreId) (us : W32) (s : State), s.dev.serviceIn c.val = some 3 → us.toNat ≤ ((s.dev.core c.val).reg 1).toNat →
    Does (.serviceYield c us) s fun d => ServiceReturned s c d (us.setWidth 64) ∧ d.now = s.dev.now + us.toNat * 1000)
  ∧ (∀ (c : CoreId) (s : State), (s.dev.core c.val).limitTakes = true → s.dev.clk.hold = false → (s.dev.core c.val).inTrap = false →
    Does (.runLimitExpiry c) s fun d => (d.core c.val).modRun = none ∧ (d.core c.val).level = .v)

/-- The FOP rows with their operation codes. -/
def Sys2Proof.Safety.fopOps : List (Nat × (CoreId → Fields → Instr)) :=
  [(1, .fopRead), (2, .fopProgramTlc), (3, .fopProgramSlc), (4, .fopErase), (5, .fopResetDie), (6, .fopGetFeatures), (7, .fopSetFeatures),
   (8, .fopReadParameterPage), (9, .fopSoftRead)]
/-- The conditions under which FOP queues nothing, by status (R90). -/
def Sys2Proof.Safety.fopRefused (d : Dev) (c : Nat) (x : FopDesc) (n : Nat) : Prop :=
  (n = 1 ∧ 8 ≤ (d.dieOps x.die).length)
  ∨ (n = 2 ∧ (4096 ≤ x.die ∨ droverOf (x.die / 32) ≠ c))
  ∨ (n = 3 ∧ (d.dieFailed x.die = true ∨ ((d.die x.die).needsReset = true ∧ x.op ≠ 5) ∨ (d.chan (x.die / 32)).up = false
      ∨ d.padOn (chanPad (x.die / 32)) = false))
  ∨ (n = 4 ∧ (x.invalid = true ∨ (x.ciphers = true ∧ d.slotUsable x.keyslot = false)))
/-- Where FOP of any operation code executes with its descriptor read, rd takes 0 and the operation joins the end of its die's queue when
none of these conditions holds, and when exactly one does, the status it names and nothing is queued: 1 the die holds 8 operations, 2 DIE is
not on a channel the core serves, 3 the die or its channel is declared failed (or awaits its reset) or the channel or its paddock is not up,
4 the descriptor is invalid (or names a key slot it cannot use). FOPC writes 0 with no record waiting and else the oldest record, which
leaves the queue; FOPQ writes the number of the die's operations, or all ones for a die the core does not serve. (R92) -/
def Obligations.DieOperationIssue : Prop :=
  (∀ r ∈ fopOps, ∀ (c : CoreId) (f : Fields) (s : State) (b : Bytes) (x : FopDesc), Ready s.dev c f ((opR1 0x70).only [.drover] [.v]) →
    s.dev.descriptor c.val (s.dev.core c.val).level ((s.dev.core c.val).reg f.rs1).toNat = .ok b → x = FopDesc.ofBytes b → x.op = r.1 →
    ((∀ n, ¬ fopRefused s.dev c.val x n) → Does (r.2 c f) s fun d =>
      (d.core c.val) = Core.wrote (s.dev.core c.val) f 0
      ∧ (∃ o : DieOp, o.desc = x ∧ o.stage = .queued ∧ o.origin = .fop ∧ d.dieOps x.die = s.dev.dieOps x.die ++ [o])
      ∧ (∀ i, i ≠ x.die → d.dieOps i = s.dev.dieOps i) ∧ d.mem = s.dev.mem ∧ (∀ j, j ≠ c.val → d.core j = s.dev.core j))
    ∧ (∀ n, fopRefused s.dev c.val x n → (∀ m, m ≠ n → ¬ fopRefused s.dev c.val x m) →
        Gives (r.2 c f) s (s.dev.setCore c.val (Core.wrote (s.dev.core c.val) f (BitVec.ofNat 64 n)))))
  ∧ (∀ (c : CoreId) (f : Fields) (s : State), Ready s.dev c f ({ opR1 0x71 with rs1 := false }.only [.drover] [.v]) →
    ((s.dev.core c.val).fopDone = [] → Gives (.fopc c f) s (s.dev.setCore c.val (Core.wrote (s.dev.core c.val) f 0)))
    ∧ (∀ x rest, (s.dev.core c.val).fopDone = x :: rest → Does (.fopc c f) s fun d =>
        d.core c.val = Core.wrote { s.dev.core c.val with fopDone := rest } f
          (BitVec.ofNat 64 (x.tag + 2 ^ 16 * x.die + 2 ^ 32 * x.status + 2 ^ 40 * x.retries + 2 ^ 63))
        ∧ (∀ i, i ≠ x.die → d.dieOps i = s.dev.dieOps i) ∧ d.mem = s.dev.mem))
  ∧ (∀ (c : CoreId) (f : Fields) (s : State), Ready s.dev c f ((opR1 0x72).only [.drover] [.v]) →
    Gives (.fopq c f) s (s.dev.setCore c.val (Core.wrote (s.dev.core c.val) f
      (if ((s.dev.core c.val).reg f.rs1).toNat < 4096 ∧ droverOf (((s.dev.core c.val).reg f.rs1).toNat / 32) = c.val
       then BitVec.ofNat 64 (s.dev.dieOps ((s.dev.core c.val).reg f.rs1).toNat).length else BitVec.allOnes 64))))

/-- Where MOVE executes with its descriptor read, rd takes 2 for an invalid descriptor, 1 with all 16 slots in use, and else 0 with the
transfer queued. Where MOVEC executes, rd takes the oldest record and its slot is free, or 0. A transfer within staging SRAM whose source
words carry no mark and whose ranges do not overlap ends with the destination bytes equal to the source bytes, no other byte changed, and a
record of status 0 with its tag; a transfer whose function cannot be reached ends with status 6. (R94) -/
def Obligations.MoveInstructions : Prop :=
  (∀ (c : CoreId) (f : Fields) (s : State) (b : Bytes) (x : MoveDesc), Ready s.dev c f ((opR1 0x78).only allKinds [.f, .v]) →
    s.dev.descriptor c.val (s.dev.core c.val).level ((s.dev.core c.val).reg f.rs1).toNat = .ok b → x = MoveDesc.ofBytes b →
    (x.invalid = true → Gives (.move c f) s (s.dev.setCore c.val (Core.wrote (s.dev.core c.val) f 2)))
    ∧ (x.invalid = false → 16 ≤ (s.dev.core c.val).moves.length + (s.dev.core c.val).moveDone.length →
        Gives (.move c f) s (s.dev.setCore c.val (Core.wrote (s.dev.core c.val) f 1)))
    ∧ (x.invalid = false → (s.dev.core c.val).moves.length + (s.dev.core c.val).moveDone.length < 16 →
        Gives (.move c f) s (s.dev.setCore c.val (Core.wrote { s.dev.core c.val with
          moves := (s.dev.core c.val).moves ++ [{ desc := x, level := (s.dev.core c.val).level }] } f 0))))
  ∧ (∀ (c : CoreId) (f : Fields) (s : State), Ready s.dev c f ({ opR1 0x79 with rs1 := false }.only allKinds [.f, .v]) →
    ((s.dev.core c.val).moveDone = [] → Gives (.movec c f) s (s.dev.setCore c.val (Core.wrote (s.dev.core c.val) f 0)))
    ∧ (∀ r rest, (s.dev.core c.val).moveDone = r :: rest → Gives (.movec c f) s (s.dev.setCore c.val
        (Core.wrote { s.dev.core c.val with moveDone := rest } f (BitVec.ofNat 64 (r.tag + 2 ^ 16 * r.status + 2 ^ 63))))))
  ∧ (∀ (c : CoreId) (n : Fin 16) (data : Bytes) (s : State) (m : MoveOp), (s.dev.core c.val).moves[n.val]? = some m →
    m.level ≠ .o → m.desc.srcHost = false → m.desc.dstHost = false → inStaging m.desc.src m.desc.len = true →
    inStaging m.desc.dst m.desc.len = true → (m.desc.src + m.desc.len ≤ m.desc.dst ∨ m.desc.dst + m.desc.len ≤ m.desc.src) →
    (∀ w ∈ s.dev.marks, w + 8 ≤ m.desc.src ∨ m.desc.src + m.desc.len ≤ w) → 0 < m.desc.len →
    Does (.moveComplete c n .ok data) s fun d =>
      (∀ i < m.desc.len, d.byte (m.desc.dst + i) = s.dev.byte (m.desc.src + i))
      ∧ (∀ a, a < m.desc.dst ∨ m.desc.dst + m.desc.len ≤ a → d.byte a = s.dev.byte a)
      ∧ (d.core c.val).moveDone = (s.dev.core c.val).moveDone ++ [{ tag := m.desc.tag, status := 0 }]
      ∧ (d.core c.val).moves.length + 1 = (s.dev.core c.val).moves.length)
  ∧ (∀ (c : CoreId) (n : Fin 16) (he : HostEnd) (data : Bytes) (s : State) (m : MoveOp), (s.dev.core c.val).moves[n.val]? = some m →
    (m.desc.srcHost = true ∨ m.desc.dstHost = true) → s.dev.functionDown m.desc.function = true →
    Does (.moveComplete c n he data) s fun d =>
      (d.core c.val).moveDone = (s.dev.core c.val).moveDone ++ [{ tag := m.desc.tag, status := 6 }] ∧ d.mem = s.dev.mem)

/-- The parity instructions that take a descriptor: opcode, command, operation. -/
def Sys2Proof.Safety.parityOps : List (Nat × (CoreId → Fields → Instr) × ParOp) :=
  [(0x80, .pacc, .pacc), (0x81, .prec, .prec), (0x82, .pver, .pver), (0x83, .pzero, .pzero)]
/-- An operation of a core has ended with a record. -/
def Sys2Proof.Safety.ParityEnded (s : State) (c : CoreId) (n : Nat) (q : ParOpQ) (status : Nat) (d : Dev) : Prop :=
  (d.core c.val).pars = (s.dev.core c.val).pars.eraseIdx n
  ∧ (d.core c.val).parDone = (s.dev.core c.val).parDone ++ [{ tag := q.desc.tag, status := status }]
/-- Where PACC, PREC, PVER or PZERO executes with its descriptor read, rd takes 2 for an invalid descriptor, 1 with the 8 slots in use, and
else 0 with the operation queued. PCOL takes the oldest record or 0. A queued PZERO whose target is staging ends with zeros in DST; a PACC
between unmarked ranges of staging with mode P ends with each destination byte XORed with its source byte; a PREC whose words can be rebuilt
from the levels its mode permits ends with them in DST, and with status 2 and no memory changed when one cannot; a PVER whose selected
parity words equal the recomputed ones ends with status 0, and with one that differs with status 1. Each posts its record and frees its
place among the operations. (R96) -/
def Obligations.ParityInstructions : Prop :=
  (∀ r ∈ parityOps, ∀ (c : CoreId) (f : Fields) (s : State) (b : Bytes) (x : ParDesc),
    Ready s.dev c f ((opR1 r.1).only [.shepherd, .drover] [.v]) →
    s.dev.descriptor c.val (s.dev.core c.val).level ((s.dev.core c.val).reg f.rs1).toNat = .ok b → x = ParDesc.ofBytes b →
    (x.invalid r.2.2 (s.dev.iuKib * 1024) = true → Gives (r.2.1 c f) s (s.dev.setCore c.val (Core.wrote (s.dev.core c.val) f 2)))
    ∧ (x.invalid r.2.2 (s.dev.iuKib * 1024) = false → 8 ≤ (s.dev.core c.val).pars.length + (s.dev.core c.val).parDone.length →
        Gives (r.2.1 c f) s (s.dev.setCore c.val (Core.wrote (s.dev.core c.val) f 1)))
    ∧ (x.invalid r.2.2 (s.dev.iuKib * 1024) = false → (s.dev.core c.val).pars.length + (s.dev.core c.val).parDone.length < 8 →
        Gives (r.2.1 c f) s (s.dev.setCore c.val (Core.wrote { s.dev.core c.val with
          pars := (s.dev.core c.val).pars ++ [{ op := r.2.2, desc := x }] } f 0))))
  ∧ (∀ (c : CoreId) (f : Fields) (s : State), Ready s.dev c f ({ opR1 0x84 with rs1 := false }.only [.shepherd, .drover] [.v]) →
    ((s.dev.core c.val).parDone = [] → Gives (.pcol c f) s (s.dev.setCore c.val (Core.wrote (s.dev.core c.val) f 0)))
    ∧ (∀ r rest, (s.dev.core c.val).parDone = r :: rest → Gives (.pcol c f) s (s.dev.setCore c.val
        (Core.wrote { s.dev.core c.val with parDone := rest } f (BitVec.ofNat 64 (r.tag + 2 ^ 16 * r.status + 2 ^ 63))))))
  ∧ (∀ (c : CoreId) (n : Fin 8) (bad : List (BitVec 38)) (s : State) (q : ParOpQ), (s.dev.core c.val).pars[n.val]? = some q →
    (q.op = .pzero → inStaging q.desc.dst q.desc.len = true → Does (.parityOperationComplete c n bad) s fun d =>
      (∀ i < q.desc.len, d.byte (q.desc.dst + i) = 0)
      ∧ (∀ a, a < q.desc.dst ∨ q.desc.dst + q.desc.len ≤ a → d.byte a = s.dev.byte a) ∧ ParityEnded s c n.val q 0 d)
    ∧ (q.op = .pacc → q.desc.mode = 1 → inStaging q.desc.src q.desc.len = true → inStaging q.desc.dst q.desc.len = true →
        s.dev.marks = [] → Does (.parityOperationComplete c n bad) s fun d =>
      (∀ i < q.desc.len, d.byte (q.desc.dst + i) = s.dev.byte (q.desc.dst + i) ^^^ s.dev.byte (q.desc.src + i))
      ∧ (∀ a, a < q.desc.dst ∨ q.desc.dst + q.desc.len ≤ a → d.byte a = s.dev.byte a) ∧ ParityEnded s c n.val q 0 d)
    ∧ (∀ v i r k, q.op = .prec → inStaging q.desc.dst q.desc.len = true → s.dev.locOf q.desc = some (v, i, r, k) → i < 30 →
        (∃ j < s.dev.iuParts, s.dev.rebuildBy q.desc.permits (bad.map BitVec.toNat) v r i (k + j) = none) →
        Does (.parityOperationComplete c n bad) s fun d => d.mem = s.dev.mem ∧ ParityEnded s c n.val q 2 d)
    ∧ (∀ v i r k w, q.op = .prec → inStaging q.desc.dst q.desc.len = true → s.dev.locOf q.desc = some (v, i, r, k) → i < 30 →
        s.dev.iuParts = 1 → s.dev.rebuildBy q.desc.permits (bad.map BitVec.toNat) v r i k = some w →
        Does (.parityOperationComplete c n bad) s fun d =>
          d.bytes q.desc.dst w.1.length = w.1 ∧ (ParityEnded s c n.val q 0 d ∨ ParityEnded s c n.val q 3 d))
    ∧ (∀ v i r k, q.op = .pver → q.desc.mode = 1 → s.dev.locOf q.desc = some (v, i, r, k) →
        ((∀ j < 48, ∃ w, (s.dev.levelWords (bad.map BitVec.toNat) v r j).find? (fun e => e.1 == .p) = some (.p, w)
            ∧ s.dev.recompute (bad.map BitVec.toNat) v r j .p = some w) →
          Does (.parityOperationComplete c n bad) s fun d => d.mem = s.dev.mem ∧ ParityEnded s c n.val q 0 d)
        ∧ ((∃ j < 48, ∃ w u, (s.dev.levelWords (bad.map BitVec.toNat) v r j).find? (fun e => e.1 == .p) = some (.p, w)
            ∧ s.dev.recompute (bad.map BitVec.toNat) v r j .p = some u ∧ w ≠ u) →
          Does (.parityOperationComplete c n bad) s fun d => d.mem = s.dev.mem ∧ ParityEnded s c n.val q 1 d)))

/-- Where MEAS executes at V with a valid descriptor and room in the ring, the request joins the ring and rd takes a ticket from 1 to
65,535; with an invalid descriptor or a full ring rd takes 0 and nothing is posted. At F with a free digest slot and both ranges accessible,
rd takes 0 and RESULT holds the digest of SRC. MEAS_ANSWER takes the oldest request and sends its core a message with the ticket, 0x01 in
[31:24] and the status: 1 when SRC cannot be read at V, else 0 or 2 as the runtime entry is recorded or not. (R103) -/
def Obligations.MeasureRequests : Prop :=
  (∀ (c : CoreId) (f : Fields) (s : State) (b : Bytes) (x : MeasDesc), Ready s.dev c f ((opR1 0xA0).only allKinds [.f, .v]) →
    s.dev.descriptor c.val (s.dev.core c.val).level ((s.dev.core c.val).reg f.rs1).toNat = .ok b → x = MeasDesc.ofBytes b →
    ((s.dev.core c.val).level = .v → x.invalid true = false → s.dev.fold.meas.length < Config.measRing → ∃ t, 1 ≤ t ∧ t ≤ 65535 ∧
      Gives (.meas c f) s { s.dev.setCore c.val (Core.wrote (s.dev.core c.val) f (BitVec.ofNat 64 t)) with
        fold := { s.dev.fold with measTicket := t, meas := s.dev.fold.meas ++ [{ core := c.val, ticket := t, desc := x }] } })
    ∧ ((s.dev.core c.val).level = .v → (x.invalid true = true ∨ Config.measRing ≤ s.dev.fold.meas.length) →
      Gives (.meas c f) s (s.dev.setCore c.val (Core.wrote (s.dev.core c.val) f 0)))
    ∧ ((s.dev.core c.val).level = .f → x.invalid false = false →
      s.dev.dig.firstIdx DigSlot.init (fun e => e.st == .free) 64 ≠ none → s.dev.rangeTrap c.val .f x.src x.len .load = none →
      s.dev.rangeTrap c.val .f x.result 48 .store = none → inStaging x.result 48 = true → Does (.meas c f) s fun d =>
        d.core c.val = Core.wrote (s.dev.core c.val) f 0
        ∧ (∀ i < 48, d.byte (x.result + i) = (sha384 (s.dev.rangeBytes c.val .f x.src x.len)).getD i (d.byte (x.result + i)))))
  ∧ (∀ (fails : TallyFails) (s : State) (q : MeasReq) (rest : List MeasReq), s.dev.fold.meas = q :: rest → s.dev.fold.inReset = false →
    s.dev.fold.halted = false → (s.dev.core q.core).msgs.length < 16 → Does (.measAnswer fails) s fun d =>
      d.fold.meas = rest ∧ ∃ st, (st = 0 ∨ st = 1 ∨ st = 2)
        ∧ (st = 1 ↔ (Dev.rangeTrap { s.dev with fold := { s.dev.fold with meas := rest } } q.core .v q.desc.src q.desc.len .load).isSome = true)
        ∧ (d.core q.core).msgs = (s.dev.core q.core).msgs ++
            [{ sender := 0, payload := BitVec.ofNat 32 (q.ticket + st * 2 ^ 16 + 2 ^ 24) }])

/-- A core at level V or F takes a trap of its own instruction. -/
def Sys2Proof.Safety.Traps (i : Instr) (s : State) (c : CoreId) (t : Trap) : Prop :=
  Gives i s (s.dev.setCore c.val ((s.dev.core c.val).enterTrap c.val t (s.dev.core c.val).pc))
/-- Above level O, where CGET executes on an ID that names a field, rd takes the value the context's newest open transaction has staged,
else the committed value; CVER the version, 0 for a read-only field; no committed value changes. An operand that names no field raises the
configuration-access trap with detail 2 outside a trap. CSET of a field that is not read-only, within its limits, with a transaction of the
context open that holds fewer than 256 fields, stages rs2 into that transaction and changes no committed value; a read-only field traps with
detail 3, a value outside the limits with detail 4, and no open transaction with transaction state. (R97, R98) -/
def Obligations.ConfigurationAccess : Prop :=
  (∀ (c : CoreId) (f : Fields) (s : State) (i : FieldInfo) (id : Nat), Ready s.dev c f (opR1 0x90) → (s.dev.core c.val).level ≠ .o →
    ((s.dev.core c.val).reg f.rs1).toNat = id → id < 2 ^ 32 → s.dev.field id = some i → Does (.cget c f) s fun d =>
      d.core c.val = Core.wrote (s.dev.core c.val) f (((s.dev.openTxn c.val).bind fun t => t.staged.get? id).getD (BitVec.ofNat 64 (s.dev.committed id)))
      ∧ d = { s.dev with cores := d.cores, cfg := { s.dev.cfg with txns := d.cfg.txns } }
      ∧ d.cfg.txns.map (fun t => (t.handle, t.staged)) = s.dev.cfg.txns.map (fun t => (t.handle, t.staged)))
  ∧ (∀ (c : CoreId) (f : Fields) (s : State) (i : FieldInfo) (id : Nat), Ready s.dev c f (opR1 0x92) → (s.dev.core c.val).level ≠ .o →
    ((s.dev.core c.val).reg f.rs1).toNat = id → id < 2 ^ 32 → s.dev.field id = some i → Does (.cver c f) s fun d =>
      d.core c.val = Core.wrote (s.dev.core c.val) f (BitVec.ofNat 64 (if i.cls = .ro then 0 else s.dev.cfg.versions.get 0 id))
      ∧ d = { s.dev with cores := d.cores, cfg := { s.dev.cfg with txns := d.cfg.txns } })
  ∧ (∀ (c : CoreId) (f : Fields) (s : State), Ready s.dev c f (opR1 0x90) → (s.dev.core c.val).level ≠ .o → (s.dev.core c.val).inTrap = false →
    (2 ^ 32 ≤ ((s.dev.core c.val).reg f.rs1).toNat ∨ s.dev.field ((s.dev.core c.val).reg f.rs1).toNat = none) →
    Traps (.cget c f) s c (.fault 5 2 (BitVec.ofNat 64 (((s.dev.core c.val).reg f.rs1).toNat % 2 ^ 32))))
  ∧ (∀ (c : CoreId) (f : Fields) (s : State) (i : FieldInfo) (id : Nat) (st : Tab Word), Ready s.dev c f { opR 0x91 with rd := false } →
    (s.dev.core c.val).level ≠ .o → ((s.dev.core c.val).reg f.rs1).toNat = id → id < 2 ^ 32 → s.dev.field id = some i →
    st = ((s.dev.openTxn c.val).map (fun t => t.staged)).getD [] →
    (∀ t, s.dev.openTxn c.val = some t → i.cls ≠ .ro → s.dev.outOfLimits st i id ((s.dev.core c.val).reg f.rs2).toNat = false →
      t.staged.length < 256 → Does (.cset c f) s fun d =>
        (∀ u ∈ d.cfg.txns, u.handle = t.handle → u.staged.get? id = some ((s.dev.core c.val).reg f.rs2))
        ∧ d.cfg.txns.map (fun u => u.handle) = s.dev.cfg.txns.map (fun u => u.handle)
        ∧ d.core c.val = Core.after (s.dev.core c.val) ((s.dev.core c.val).pc + 8)
        ∧ d = { s.dev with cores := d.cores, cfg := { s.dev.cfg with txns := d.cfg.txns } })
    ∧ ((s.dev.core c.val).inTrap = false →
        (i.cls = .ro → Traps (.cset c f) s c (.fault 5 3 (BitVec.ofNat 64 id)))
        ∧ (i.cls ≠ .ro → s.dev.outOfLimits st i id ((s.dev.core c.val).reg f.rs2).toNat = true →
            Traps (.cset c f) s c (.fault 5 4 (BitVec.ofNat 64 id)))
        ∧ (i.cls ≠ .ro → s.dev.outOfLimits st i id ((s.dev.core c.val).reg f.rs2).toNat = false → s.dev.openTxn c.val = none →
            Traps (.cset c f) s c (.fault 6 1 (instrWord 0x91 f)))))

/-- The commit of a transaction may pass with no drain and no record: nothing in progress shares a block, no Crook is needed, no field
changed since it began, no staged field is quiescent or persistent, and its staged table is in its form. -/
def Sys2Proof.Safety.CommitsAtOnce (d : Dev) (t : Txn) : Prop :=
  t.staged.wf = true ∧ d.mustWait t = false ∧ d.needsCrook t.staged.keys = false
    ∧ (∀ id ∈ t.staged.keys ++ t.reads, d.version id ≤ t.start)
    ∧ (∀ id ∈ t.staged.keys, d.isQs id = false ∧ d.isPs id = false)
/-- A staged table has been committed under the next counter. -/
def Sys2Proof.Safety.Committed (s : State) (t : Txn) (d : Dev) : Prop :=
  d.cfg.counter = s.dev.cfg.counter + 1
  ∧ ∀ id v, t.staged.get? id = some v → d.cfg.committed.get? id = some v ∧ d.cfg.versions.get? id = some (s.dev.cfg.counter + 1)
/-- Where TXB executes with fewer than 8 transactions open, a transaction with the drain budget of rs1 (10,000 for 0, at most 1,000,000)
opens under a handle from 1 to 65,535, which rd takes and TXH becomes; with 8 open rd takes 0 and nothing is opened. TXA of the context's
TXH discards it with nothing committed. TXC of TXH whose commit meets a field version later than its start ends it with outcome 1 and no
committed value changed; one that meets nothing in progress, needs no Crook, has no conflict, no persistent field and no quiescent block to
drain commits: the counter rises by one, every staged value is committed, and its version is the new counter. TXA and TXC of another handle
raise the transaction-state trap outside a trap. (R99, R100) -/
def Obligations.Transactions : Prop :=
  (∀ (c : CoreId) (f : Fields) (s : State), Ready s.dev c f ((opR1 0x98).only [.shepherd] [.v, .o]) →
    ((s.dev.cfg.txns.filter (fun t => t.phase == .opened)).length < 8 → ∃ h, 1 ≤ h ∧ h ≤ 65535 ∧ Does (.txb c f) s fun d =>
      d.core c.val = Core.wrote (s.dev.core c.val) f (BitVec.ofNat 64 h) ∧ d.cfg.txh (s.dev.ctxOf c.val) = h
      ∧ (∃ t : Txn, d.cfg.txns = s.dev.cfg.txns ++ [t] ∧ t.handle = h ∧ t.staged = [] ∧ t.start = s.dev.cfg.counter
          ∧ t.budgetUs = (if ((s.dev.core c.val).reg f.rs1).toNat = 0 then 10000 else min ((s.dev.core c.val).reg f.rs1).toNat 1000000))
      ∧ d.cfg.committed = s.dev.cfg.committed ∧ d.mem = s.dev.mem)
    ∧ (8 ≤ (s.dev.cfg.txns.filter (fun t => t.phase == .opened)).length →
        Gives (.txb c f) s (s.dev.setCore c.val (Core.wrote (s.dev.core c.val) f 0))))
  ∧ (∀ (c : CoreId) (f : Fields) (s : State) (t : Txn), Ready s.dev c f ({ opR 0x9A with rd := false, rs2 := false }.only [.shepherd] [.v, .o]) →
    s.dev.openTxn c.val = some t → ((s.dev.core c.val).reg f.rs1).toNat = t.handle → Does (.txa c f) s fun d =>
      d.cfg.txns = s.dev.cfg.txns.filter (fun u => u.handle != t.handle)
      ∧ d.core c.val = Core.after (s.dev.core c.val) ((s.dev.core c.val).pc + 8)
      ∧ d = { s.dev with cores := d.cores, cfg := { s.dev.cfg with txns := d.cfg.txns } })
  ∧ (∀ (c : CoreId) (f : Fields) (s : State) (t : Txn), Ready s.dev c f ((opR1 0x99).only [.shepherd] [.v, .o]) →
    s.dev.openTxn c.val = some t → ((s.dev.core c.val).reg f.rs1).toNat = t.handle → s.dev.txn t.handle = some t → f.rd ≠ 0 →
    (s.dev.mustWait { t with phase := .waiting, order := s.dev.cfg.orders, began := s.dev.now } = false →
      s.dev.needsCrook t.staged.keys = false → (∃ id ∈ t.staged.keys ++ t.reads, t.start < s.dev.version id) →
      Does (.txc c f) s fun d => (d.core c.val).reg f.rd = 1 ∧ (d.core c.val).run = .running
        ∧ (d.core c.val).pc = (s.dev.core c.val).pc + 8 ∧ d.cfg.committed = s.dev.cfg.committed ∧ d.cfg.versions = s.dev.cfg.versions)
    ∧ (CommitsAtOnce s.dev { t with phase := .waiting, order := s.dev.cfg.orders, began := s.dev.now } →
      Does (.txc c f) s (Committed s t)))
  ∧ (∀ (c : CoreId) (f : Fields) (s : State), (s.dev.core c.val).inTrap = false → (s.dev.core c.val).level ≠ .o →
    s.dev.ownHandle c.val ((s.dev.core c.val).reg f.rs1) = none →
    (Ready s.dev c f ((opR1 0x99).only [.shepherd] [.v, .o]) → Traps (.txc c f) s c (.fault 6 2 (instrWord 0x99 f)))
    ∧ (Ready s.dev c f ({ opR 0x9A with rd := false, rs2 := false }.only [.shepherd] [.v, .o]) → Traps (.txa c f) s c (.fault 6 2 (instrWord 0x9A f))))

/-- For a transaction on its way to commit: COMMIT_WAIT_END of a waiting one that commits at once commits it; DRAIN_COMPLETE of the last
block it drains, its block at a safe point and a persistent field staged, takes it to its persistent record with nothing committed yet;
DRAIN_BUDGET_EXPIRED of a waiting one ends it with outcome 2 counted and nothing committed; PERSISTENT_RECORD_COMMITTED with a record that
does not read back ends it with nothing committed; BLOCK_SAFE_POINT of a block that is up applies what is due for it (for a block whose
fields act on nothing but their readers, the applied values are the due ones); COMMIT_COMPLETE of one with no block left ends it with
outcome 0 at the core that waits in TXC. (R115, R116, R117, R118) -/
def Obligations.CommitSteps : Prop :=
  (∀ (h : BitVec 16) (s : State) (t : Txn), s.dev.txn h.toNat = some t → t.phase = .waiting → CommitsAtOnce s.dev t →
    Does (.commitWaitEnd h) s (Committed s t))
  ∧ (∀ (b : BitVec 12) (s : State) (t : Txn), s.dev.cfg.txns.find? (fun t => match t.phase with
      | .draining l => l.contains b.toNat
      | _ => false) = some t → s.dev.txn t.handle = some t → t.phase = .draining [b.toNat] → s.dev.blockDrained b.toNat = true →
    (∃ e ∈ t.staged, s.dev.isPs e.1 = true) → Does (.drainComplete b) s fun d =>
      d.txn t.handle = some { t with phase := .persisting } ∧ d.cfg.committed = s.dev.cfg.committed ∧ d.cfg.counter = s.dev.cfg.counter
      ∧ d.mem = s.dev.mem)
  ∧ (∀ (h : BitVec 16) (s : State) (t : Txn), s.dev.txn h.toNat = some t → t.phase = .waiting → Does (.drainBudgetExpired h) s fun d =>
      d.txn h.toNat = none ∧ d.cfg.committed = s.dev.cfg.committed ∧ d.cfg.drains = min 0xFFFF (s.dev.cfg.drains + 1)
      ∧ ∀ (c : CoreId) rd, (s.dev.core c.val).run = .inTxc rd h.toNat → (d.core c.val).run = .running ∧ (rd ≠ 0 → (d.core c.val).reg rd = 2))
  ∧ (∀ (h : BitVec 16) (fails : TallyFails) (s : State) (t : Txn), s.dev.txn h.toNat = some t → t.phase = .persisting → s.dev.pwr.pf = .idle →
    Does (.persistentRecordCommitted h false fails) s fun d => d.txn h.toNat = none ∧ d.cfg.committed = s.dev.cfg.committed
      ∧ ∀ (c : CoreId) rd, (s.dev.core c.val).run = .inTxc rd h.toNat → (d.core c.val).run = .running ∧ (rd ≠ 0 → (d.core c.val).reg rd = 4))
  ∧ (∀ (b : BitVec 12) (s : State) (t : Tab Word) (h : Nat), s.dev.cfg.due.filter (fun e => e.1 == b.toNat) = [(b.toNat, t, h)] →
    s.dev.blockUp b.toNat = true → s.dev.nsBusy b.toNat = false → t.wf = true →
    (∀ id ∈ t.keys, cfgBlock id < 0x100 ∧ cfgBlock id ≠ 0x014 ∧ cfgBlock id ≠ 0x00A ∧ cfgBlock id ≠ 0x00B) →
    Does (.blockSafePoint b) s fun d => (∀ e ∈ d.cfg.due, e.1 ≠ b.toNat) ∧ ∀ id v, t.get? id = some v → d.cfg.applied.get? id = some v)
  ∧ (∀ (h : BitVec 16) (s : State) (t : Txn), s.dev.txn h.toNat = some t → t.phase = .applying [] → Does (.commitComplete h) s fun d =>
      d.txn h.toNat = none ∧ d.cfg.committed = s.dev.cfg.committed
      ∧ ∀ (c : CoreId) rd, (s.dev.core c.val).run = .inTxc rd h.toNat → d.core c.val =
          { (s.dev.core c.val).setReg rd 0 with pc := (s.dev.core c.val).pc + 8, instret := (s.dev.core c.val).instret + 1, run := .running })

def Sys2Proof.Safety.crookReady (d : Dev) (p : Pen) (x : PenSt) (action : Nat) : Prop :=
  d.pen p.val = some x ∧ x.isAdmin = true ∧ x.opcode = 0xC4 ∧ x.stage = .ready ∧ x.dw 10 = action ∧ x.dw 11 ≤ 600
/-- For a Crook command ready in a pen with its reserved bits zero: Query changes no Crook state; Acquire by a controller while the Crook is
free or its own gives it the Crook until the lease (30 s for 0) from now has passed; Renew by the holder does the same; Release by the
holder frees it; each ends with Successful Completion. Renew or Release by another controller ends with an error and leaves the Crook;
Acquire while another holds it leaves it too, where that one's lease does not end in this 1 ms tick (a whole ms of the model's time, log
entry 43), and where it does, the expiry is counted first and the Crook is given. The lease's expiry frees the Crook and counts it. (R124,
R125, R126) -/
def Obligations.CrookCommands : Prop :=
  (∀ (p : Pen) (s : State) (x : PenSt), crookReady s.dev p x 0 → ∃ dw, Does (.crookQuery p) s fun d =>
    EndedWith p.val x 0 dw d ∧ d.crook = s.dev.crook
    ∧ dw % 2 ^ 16 = (match s.dev.crook.holder with
      | some h => (h + 1) % 2 ^ 16
      | none => 0xFFFF))
  ∧ (∀ (p : Pen) (s : State) (x : PenSt), crookReady s.dev p x 1 → (s.dev.crook.holder = none ∨ s.dev.crook.holder = some x.ctrl) →
    ∃ dw, Does (.crookAcquire p) s fun d => EndedWith p.val x 0 dw d ∧ d.crook = { s.dev.crook with
      holder := some x.ctrl, leaseEnd := s.dev.now + (if x.dw 11 = 0 then 30 else x.dw 11) * 1000000000 })
  ∧ (∀ (p : Pen) (s : State) (x : PenSt) (k : Nat), crookReady s.dev p x 1 → s.dev.crook.holder = some k → k ≠ x.ctrl →
    s.dev.now / 1000000 < s.dev.crook.leaseEnd / 1000000 →
    ∃ dw, Does (.crookAcquire p) s fun d => EndedWith p.val x 0 dw d ∧ d.crook = s.dev.crook)
  ∧ (∀ (p : Pen) (s : State) (x : PenSt) (k : Nat), crookReady s.dev p x 1 → s.dev.crook.holder = some k → k ≠ x.ctrl →
    s.dev.crook.leaseEnd / 1000000 ≤ s.dev.now / 1000000 → ∃ dw, Does (.crookAcquire p) s fun d => EndedWith p.val x 0 dw d
      ∧ d.crook.holder = some x.ctrl ∧ d.crook.leaseEnd = s.dev.now + (if x.dw 11 = 0 then 30 else x.dw 11) * 1000000000
      ∧ d.crook.expired = min 0xFFFF (s.dev.crook.expired + 1))
  ∧ (∀ (p : Pen) (s : State) (x : PenSt), crookReady s.dev p x 2 → s.dev.crook.holder = some x.ctrl →
    ∃ dw, Does (.crookRenew p) s fun d => EndedWith p.val x 0 dw d ∧ d.crook = { s.dev.crook with
      holder := some x.ctrl, leaseEnd := s.dev.now + (if x.dw 11 = 0 then 30 else x.dw 11) * 1000000000 })
  ∧ (∀ (p : Pen) (s : State) (x : PenSt), crookReady s.dev p x 3 → s.dev.crook.holder = some x.ctrl →
    ∃ dw, Does (.crookRelease p) s fun d => EndedWith p.val x 0 dw d ∧ d.crook = { s.dev.crook with holder := none, leaseEnd := 0 })
  ∧ (∀ (p : Pen) (s : State) (x : PenSt), crookReady s.dev p x 2 → s.dev.crook.holder ≠ some x.ctrl →
    ∃ st, st ≠ 0 ∧ Does (.crookRenew p) s fun d => EndedWith p.val x st 0 d ∧ d.crook = s.dev.crook)
  ∧ (∀ (p : Pen) (s : State) (x : PenSt), crookReady s.dev p x 3 → s.dev.crook.holder ≠ some x.ctrl →
    ∃ st, st ≠ 0 ∧ Does (.crookRelease p) s fun d => EndedWith p.val x st 0 d ∧ d.crook = s.dev.crook)
  ∧ (∀ (s : State) (k : Nat), s.dev.crook.holder = some k → Does .crookLeaseExpiry s fun d =>
    d.crook.holder = none ∧ d.crook.expired = min 0xFFFF (s.dev.crook.expired + 1) ∧ d.crook.forced = min 0xFFFF s.dev.crook.forced)

/-- Where Run Module is ready in a pen and the function's movers run: reserved or out-of-range fields end it with Invalid Field; a module
refused with a code below 0x0A ends it with Successful Completion and the code in its dwords; an accepted one waits for a core. MODULE_START
of the oldest waiting module on a free Shepherd core, with its load entry and its counter's entry recorded, enters it: level O, pc at its
entry offset from 0xFFFF_FFF8_0000, g2 the argument length, g3 and MODINST its instance number, g31 the exit stub, TIMERCMP all ones. (R58,
R119, R120) -/
def Obligations.RunModule : Prop :=
  (∀ (p : Pen) (data : Bytes) (fails : TallyFails) (s : State) (x : PenSt), s.dev.pen p.val = some x → s.dev.adminReady p.val 0xC1 = true →
    s.dev.moversHalted x.ctrl = false →
    (runModuleBad x.dw = true → Does (.runModule p data fails) s (EndedWith p.val x 0x002 0))
    ∧ (runModuleBad x.dw = false → ∀ code, s.dev.checkModule (padTo (x.dw 10) data) (x.dw 10) (x.dw 11) true = code →
        (code ≠ 0 → code < 0x0A → Does (.runModule p data fails) s (EndedWith p.val x 0 (2 ^ 32 * (code + 2 * 256))))
        ∧ (code = 0 → Does (.runModule p data fails) s fun d => d.nvme.modQueue = s.dev.nvme.modQueue ++ [p.val]
            ∧ ∃ y, d.pen p.val = some y ∧ y.stage = .external ∧ y.data = padTo (x.dw 10 + x.dw 11) data)))
  ∧ (∀ (c : CoreId) (fl fc : TallyFails) (s : State) (p : Nat) (rest : List Nat) (x : PenSt) (r q : Dev × Bool) (d0 : Dev) (b : Bytes) (inst : Nat),
    s.dev.nvme.modQueue = p :: rest → s.dev.pen p = some x → s.dev.coreFree c.val = true → b = x.data.take (x.dw 10) →
    inst = s.dev.nvme.lastInstance + 1 → d0 = { s.dev with nvme := { s.dev.nvme with modQueue := rest } } →
    r = d0.appendEntry (moduleEntry 1 0 x.ctrl inst b) fl → r.2 = true →
    q = Dev.raiseCounter { r.1 with nvme := { r.1.nvme with lastInstance := inst } } (ModHeader.ofBytes b).componentId
      (ModHeader.ofBytes b).secver (x.ctrl + 1) fc → q.2 = true →
    Does (.moduleStart c fl fc) s fun d => (d.core c.val).level = .o ∧ (d.core c.val).run = .running
      ∧ (d.core c.val).pc = BitVec.ofNat 64 (0xFFFFFFF80000 + (ModHeader.ofBytes b).entry)
      ∧ (d.core c.val).reg 2 = BitVec.ofNat 64 (x.data.drop (x.dw 10)).length ∧ (d.core c.val).reg 3 = BitVec.ofNat 64 inst
      ∧ (d.core c.val).modinst = BitVec.ofNat 64 inst ∧ (d.core c.val).reg 31 = Config.exitStub
      ∧ (d.core c.val).timercmp = BitVec.allOnes 64
      ∧ ∃ m, (d.core c.val).modRun = some m ∧ m.pen = p ∧ m.ctrl = x.ctrl ∧ m.usedNs = 0)

/-- With the clocks started and the device outside Standby, UCIE_MODULE_TRAINING of a module that is down with an attempt left brings it up,
or counts a failed attempt; after the third failed one the module stays down and its link's DEGRADED bit is set. A module that is up or out
of attempts is unchanged. UCIE_MODULE_FAIL takes a module that is up down, sets its link's DEGRADED bit and lets it train again. (R16) -/
def Obligations.DieLinkModules : Prop :=
  (∀ (m : Fin 12) (s : State), (s.dev.ucie m.val).up = false → (s.dev.ucie m.val).attempts < 3 → s.dev.clk.started = true →
    s.dev.pwr.standby = false →
    Gives (.ucieModuleTraining m true) s (s.dev.setUcie m.val { s.dev.ucie m.val with up := true })
    ∧ ((s.dev.ucie m.val).attempts < 2 → Gives (.ucieModuleTraining m false) s
        (s.dev.setUcie m.val { s.dev.ucie m.val with attempts := (s.dev.ucie m.val).attempts + 1 }))
    ∧ ((s.dev.ucie m.val).attempts = 2 → Does (.ucieModuleTraining m false) s fun d =>
        (d.ucie m.val).up = false ∧ (d.ucie m.val).attempts = 3 ∧ bitOf d.hub.degraded (moduleLink m.val) = true
        ∧ ∀ j, j ≠ m.val → d.ucie j = s.dev.ucie j))
  ∧ (∀ (m : Fin 12) (ok : Bool) (s : State), ((s.dev.ucie m.val).up = true ∨ 3 ≤ (s.dev.ucie m.val).attempts) →
    Gives (.ucieModuleTraining m ok) s s.dev)
  ∧ (∀ (m : Fin 12) (s : State), (s.dev.ucie m.val).up = true → Does (.ucieModuleFail m) s fun d =>
    (d.ucie m.val).up = false ∧ (d.ucie m.val).attempts = 0 ∧ bitOf d.hub.degraded (moduleLink m.val) = true
    ∧ d.mem = s.dev.mem ∧ d.cores = s.dev.cores)

/-- No command of controller k but those that end without a completion is in a pen. -/
def Sys2Proof.Safety.CommandsEnded (k : Nat) (d : Dev) : Prop := ∀ q x, d.pen q = some x → x.ctrl = k → x.stage = .orphan
/-- CONTROLLER_ENABLE of an online controller that is not enabled, with its function up and CC.EN set in the value written, enables it with
the admin queues AQA gives, and no other controller changes. CONTROLLER_RESET, FUNCTION_LEVEL_RESET and the assertion of a link's PERST_N
leave the controller disabled with no queue, without the Crook, and with no command of its own in a pen but those that end without a
completion; the function-level reset clears Bus Master Enable and D3hot too. SHUTDOWN_NOTIFICATION sets SHST to 2 when no command of the
controller other than its event requests holds a pen, and to 1 otherwise. BUS_MASTER_ENABLE_CHANGE, D3HOT_ENTRY and D3HOT_EXIT set the
function's state. MALFORMED_TLP changes no NVMe state. (R133, R141, R146, R157, R519) -/
def Obligations.ControllerStates : Prop :=
  (∀ (k : Ctrl) (cc aqa : W32) (asq acq : Word) (s : State), (s.dev.ctrl k.val).en = false → (s.dev.ctrl k.val).online = true →
    s.dev.functionUp k.val = true → cc.getLsbD 0 = true → Does (.controllerEnable k cc aqa asq acq) s fun d =>
      (d.ctrl k.val).en = true ∧ (d.ctrl k.val).cc = cc.toNat
      ∧ (∃ q, (d.ctrl k.val).sqs = [(0, q)] ∧ q.size = (aqa.extractLsb' 0 12).toNat + 1 ∧ q.base = asq.toNat ∧ q.head = 0 ∧ q.tail = 0)
      ∧ (∃ q, (d.ctrl k.val).cqs = [(0, q)] ∧ q.size = (aqa.extractLsb' 16 12).toNat + 1 ∧ q.base = acq.toNat)
      ∧ (∀ j, j ≠ k.val → d.ctrl j = s.dev.ctrl j) ∧ d = { s.dev with nvme := d.nvme, pwr := d.pwr })
  ∧ (∀ (k : Ctrl) (s : State), (s.dev.ctrl k.val).en = true → s.dev.functionUp k.val = true → Does (.controllerReset k) s fun d =>
      (d.ctrl k.val).en = false ∧ (d.ctrl k.val).sqs = [] ∧ (d.ctrl k.val).cqs = [] ∧ CommandsEnded k.val d ∧ d.crook.holder ≠ some k.val)
  ∧ (∀ (k : Ctrl) (s : State), (s.dev.link (s.dev.linkOf k.val)).width ≠ 0 → s.dev.pwr.standby = false → Does (.functionLevelReset k) s fun d =>
      (d.ctrl k.val).en = false ∧ (d.ctrl k.val).bme = false ∧ (d.ctrl k.val).d3hot = false ∧ CommandsEnded k.val d
      ∧ d.crook.holder ≠ some k.val)
  ∧ (∀ (k : Ctrl) (shn : BitVec 2) (s : State), (s.dev.ctrl k.val).en = true → s.dev.functionUp k.val = true → shn ≠ 0 →
      Does (.shutdownNotification k shn) s fun d =>
        ((∀ e ∈ s.dev.nvme.pens, e.2.ctrl = k.val → e.1 ∈ (s.dev.ctrl k.val).aers) → (d.ctrl k.val).shst = 2)
        ∧ ((∃ e ∈ s.dev.nvme.pens, e.2.ctrl = k.val ∧ e.1 ∉ (s.dev.ctrl k.val).aers) → (d.ctrl k.val).shst = 1)
        ∧ (d.ctrl k.val).en = true ∧ (∀ j, j ≠ k.val → d.ctrl j = s.dev.ctrl j) ∧ d = { s.dev with nvme := d.nvme })
  ∧ (∀ (k : Ctrl) (on : Bool) (s : State), (s.dev.link (s.dev.linkOf k.val)).width ≠ 0 →
      Does (.busMasterEnableChange k on) s fun d => (d.ctrl k.val).bme = on)
  ∧ (∀ (k : Ctrl) (s : State), s.dev.functionUp k.val = true → Does (.d3hotEntry k) s fun d =>
      d.ctrl k.val = { s.dev.ctrl k.val with d3hot := true } ∧ (∀ j, j ≠ k.val → d.ctrl j = s.dev.ctrl j)
      ∧ d = { s.dev with nvme := d.nvme, pwr := d.pwr })
  ∧ (∀ (k : Ctrl) (s : State), (s.dev.ctrl k.val).d3hot = true → (s.dev.link (s.dev.linkOf k.val)).width ≠ 0 →
      Does (.d3hotExit k) s fun d => (d.ctrl k.val).d3hot = false)
  ∧ (∀ (k : Ctrl) (outside : Bool) (s : State), Does (.malformedTlp k outside) s fun d => d = { s.dev with outputs := d.outputs }
      ∧ (outside = true → (s.dev.link (s.dev.linkOf k.val)).width ≠ 0 → d.outputs = .pcieUnsupported k.val :: s.dev.outputs))

/-- LINK_TRAINED of a link out of PERST_N, with PWROK high, power good and the device outside Standby, with at most 16 completion time-outs
in its last second, at a rate code 1 to 4 and a width it supports gives the link that rate and width, Flit Mode from code 3 up, and DEGRADED
below 64 GT/s or its full width; nothing else changes. LINK_DOWN leaves the link with no width and its functions with no command in a pen
but those that end without a completion. PERST_N asserted outside Standby leaves the link in reset and its controllers disabled; deasserted,
only PERST_N changes. (R127) -/
def Obligations.PcieLinks : Prop :=
  (∀ (l : Fin 4) (rate : BitVec 3) (width : BitVec 5) (s : State), s.dev.isLink l.val = true → (s.dev.link l.val).perst = false →
    (s.dev.link l.val).recentTo.length ≤ 16 → s.dev.pwr.standby = false → s.dev.pwr.pf = .idle → s.dev.pins.pwrok = true → 1 ≤ rate.toNat → rate.toNat ≤ 4 →
    width.toNat ∈ [1, 2, 4, 8, 16] → width.toNat ≤ (if bitOf s.dev.pins.bifur (l.val / 2) then 8 else 16) →
    ∃ x, Gives (.linkTrained l rate width) s (s.dev.setLink l.val x) ∧ x.rate = rate.toNat ∧ x.width = width.toNat
      ∧ x.flit = decide (3 ≤ rate.toNat) ∧ x.l12 = false ∧ x.perst = false
      ∧ (x.degraded = true ↔ (s.dev.link l.val).degraded = true ∨ rate.toNat < 4
          ∨ width.toNat < (if bitOf s.dev.pins.bifur (l.val / 2) then 8 else 16)))
  ∧ (∀ (l : Fin 4) (s : State), (s.dev.link l.val).width ≠ 0 → Does (.linkDown l) s fun d =>
    (d.link l.val).width = 0 ∧ ∀ k < 128, s.dev.linkOf k = l.val → CommandsEnded k d)
  ∧ (∀ (l : Fin 4) (s : State), s.dev.isLink l.val = true → s.dev.pwr.standby = false → Does (.perstN l true) s fun d =>
    d.link l.val = { LinkSt.init with perst := true }
    ∧ ∀ k < 128, s.dev.linkOf k = l.val → (d.ctrl k).en = false ∧ CommandsEnded k d ∧ d.crook.holder ≠ some k)
  ∧ (∀ (l : Fin 4) (s : State), s.dev.isLink l.val = true →
    Gives (.perstN l false) s (s.dev.setLink l.val { s.dev.link l.val with perst := false }))

/-- A submission doorbell of an enabled controller within the queue and ahead of its tail moves the tail and nothing else; a completion
doorbell within the entries posted moves the head; one of a queue that does not exist changes no queue pointer. COMMAND_FETCH, where the
front end may fetch and a pen is free, takes the entry at the head under the next fetch number: the head moves on, and the pen holds the
command or its failed check has posted; with no pen free the controller's fetch pauses, which PEN.PAUSES counts once, and nothing else
changes. DATA_POINTER_WALK_END of a command that waits for its walk marks it ended when every PRP entry is aligned, ends the command with
PRP Offset Invalid when the first is not dword aligned, and an admin command's SGL walk with Invalid Field. (R142, R143, R144, R145, R148)
-/
def Obligations.CommandQueues : Prop :=
  (∀ (k : Ctrl) (q : BitVec 16) (v : W32) (s : State) (x : SqSt), (s.dev.ctrl k.val).en = true → s.dev.evt.fatal = false →
    (s.dev.ctrl k.val).sqs.get? q.toNat = some x → v.toNat < x.size →
    (x.tail + x.size - x.head) % x.size ≤ (v.toNat + x.size - x.head) % x.size →
    Gives (.doorbellWrite k q false v) s (s.dev.setCtrl k.val
      { s.dev.ctrl k.val with sqs := (s.dev.ctrl k.val).sqs.set q.toNat { x with tail := v.toNat } }))
  ∧ (∀ (k : Ctrl) (q : BitVec 16) (v : W32) (s : State) (x : CqSt), (s.dev.ctrl k.val).en = true → s.dev.evt.fatal = false →
    (s.dev.ctrl k.val).cqs.get? q.toNat = some x → v.toNat < x.size →
    (v.toNat + x.size - x.head) % x.size ≤ (x.tail + x.size - x.head) % x.size →
    Does (.doorbellWrite k q true v) s fun d => ∃ y, (d.ctrl k.val).cqs.get? q.toNat = some y ∧ y.head = v.toNat)
  ∧ (∀ (k : Ctrl) (q : BitVec 16) (v : W32) (s : State), (s.dev.ctrl k.val).en = true → s.dev.evt.fatal = false →
    (s.dev.ctrl k.val).sqs.get? q.toNat = none → (s.dev.ctrl k.val).aers = [] → Does (.doorbellWrite k q false v) s fun d =>
      (d.ctrl k.val).sqs = (s.dev.ctrl k.val).sqs ∧ (d.ctrl k.val).cqs = (s.dev.ctrl k.val).cqs ∧ (0, 0, 1) ∈ (d.ctrl k.val).aes)
  ∧ (∀ (k : Ctrl) (q : BitVec 16) (cdw : List W32) (ranges : Bytes) (s : State), s.dev.mayFetch k.val q.toNat = true →
    (∀ p ap x, s.dev.takePen k.val (q.toNat == 0) = some (p, ap) → (s.dev.ctrl k.val).sqs.get? q.toNat = some x →
      Does (.commandFetch k q cdw ranges) s fun d => d.nvme.fetchNo = s.dev.nvme.fetchNo + 1
        ∧ (∃ y, (d.ctrl k.val).sqs.get? q.toNat = some y ∧ y.head = (if x.head + 1 < x.size then x.head + 1 else 0))
        ∧ ((∃ y, d.pen p = some y ∧ y.ctrl = k.val ∧ y.sq = q.toNat ∧ y.cdw = cdw.map BitVec.toNat ∧ y.fetch = s.dev.nvme.fetchNo
              ∧ y.adminPen = ap)
          ∨ (d.pen p = none ∧ ∃ st, st ≠ 0 ∧ Output.completion k.val q.toNat ((cdw.map BitVec.toNat).getD 0 0 / 65536) st 0 ∈ d.outputs)))
    ∧ (s.dev.takePen k.val (q.toNat == 0) = none → Gives (.commandFetch k q cdw ranges) s
        (if (s.dev.ctrl k.val).paused then s.dev
         else { s.dev with nvme := { s.dev.nvme with pauses := min 0xFFFFFFFF (s.dev.nvme.pauses + 1),
                                                      ctrls := s.dev.nvme.ctrls.set k.val { s.dev.ctrl k.val with paused := true } } })))
  ∧ (∀ (p : Pen) (es : List Word) (s : State) (x : PenSt), s.dev.pen p.val = some x → x.walk = 0 → x.due = none →
    (x.stage = .ready ∨ x.stage = .waiting) → s.dev.moversHalted x.ctrl = false →
    ((∀ e, es.head? = some e → e.toNat % 4 = 0) → (∀ e ∈ es.drop 1, e.toNat % (4096 * 2 ^ bitsOf (s.dev.ctrl x.ctrl).cc 10 7) = 0) →
      Gives (.dataPointerWalkEnd p (.prp es)) s (s.dev.setPen p.val { x with walk := 1 }))
    ∧ (∀ e, es.head? = some e → e.toNat % 4 ≠ 0 → Does (.dataPointerWalkEnd p (.prp es)) s (EndedWith p.val x 0x013 0))
    ∧ (x.isAdmin = true → ∀ segs md, Does (.dataPointerWalkEnd p (.sgl segs md)) s (EndedWith p.val x 0x002 0)))

/-- HURDLE_HELD of a Waiting hurdle with no entry left to wait for and its command's walk ended makes the entry Held; the command executes
when the checks of its namespace, reservation, locking and write protection pass, and else ends with the status of the first that fails; an
entry that still waits, or whose walk is in progress, changes nothing. HURDLE_LONG_WAIT marks a Waiting entry once and counts it. (R165,
R171, R425) -/
def Obligations.Hurdles : Prop :=
  (∀ (p : Pen) (s : State) (x : PenSt) (h : HurdleSt), s.dev.pen p.val = some x → s.dev.nvme.hurdles.get? p.val = some h →
    (h.state = 1 → h.waits = [] → x.walk ≠ 0 → x.due = none → x.stage ≠ .orphan →
      (s.dev.heldChecks x = 0 → Does (.hurdleHeld p) s fun d => d.pen p.val = some { x with stage := .executing }
        ∧ (∃ g, d.nvme.hurdles.get? p.val = some g ∧ g = { h with state := 2 }) ∧ d = { s.dev with nvme := d.nvme })
      ∧ (s.dev.heldChecks x ≠ 0 → Does (.hurdleHeld p) s (EndedWith p.val x (s.dev.heldChecks x) 0)))
    ∧ ((h.waits ≠ [] ∨ x.walk = 0) → Gives (.hurdleHeld p) s s.dev))
  ∧ (∀ (p : Pen) (s : State) (h : HurdleSt), s.dev.nvme.hurdles.get? p.val = some h → h.state = 1 → h.longPosted = false →
    Does (.hurdleLongWait p) s fun d => d.nvme.hurdles.get? p.val = some { h with longPosted := true }
      ∧ d.nvme.longWaits = min 0xFFFF (s.dev.nvme.longWaits + 1) ∧ d.nvme.pens = s.dev.nvme.pens ∧ d.mem = s.dev.mem)

/-- A command with data to place has completed, or waits for placement or for dropped records. -/
def Sys2Proof.Safety.PlacedOrWaits (p : Pen) (x : PenSt) (d : Dev) : Prop :=
  EndedWith p.val x 0 0 d ∨ ∃ y, d.pen p.val = some y ∧ (y.stage = .placeWait ∨ y.stage = .tombWait)
/-- WRITE and COMPARE of a Held command begin its data transfer and change nothing else. HOST_DATA_ARRIVAL of a write whose protection
checks fail ends it with the status of the first that fails; with checks passed it ends with Unrecovered Read Error when a part-written IU's
current copy cannot be read, and else the command has completed with Successful Completion or waits for placement. PLACEMENT_WAIT_END and
TOMBSTONE_WAIT_END of a command that waits complete it once nothing is left to place; with one IU left, blocks free above the floor and the
IU placed, the command completes and the map and media are as placing left them; below the floor it waits on. WRITE_ZEROES completes, waits
or ends the same way; FLUSH completes; DATASET_MANAGEMENT without the deallocate attribute or with no whole IU completes. (R28, R151, R153,
R277) -/
def Obligations.WriteCommands : Prop :=
  (∀ (p : Pen) (s : State) (x : PenSt),
    (s.dev.held p.val 1 = some x → Gives (.write p) s (s.dev.setPen p.val { x with stage := .external }))
    ∧ (s.dev.held p.val 5 = some x → Gives (.compare p) s (s.dev.setPen p.val { x with stage := .external })))
  ∧ (∀ (p : Pen) (data md : Bytes) (bad : List (BitVec 38)) (s : State) (x : PenSt) (n : NsSt) (secs : List (Bytes × Bytes)),
    s.dev.pen p.val = some x → x.stage = .external → x.isAdmin = false → x.opcode = 1 → s.dev.moversHalted x.ctrl = false →
    s.dev.postingStopped = false → n = s.dev.nspace x.nsid →
    secs = (List.range x.count).map (fun i => sectorOf n (x.dw 12) (piReqOf n x.dw) (padTo (x.count * xferSize n (x.dw 12)) data) md i) →
    (piStatus (piReqOf n x.dw) secs ≠ 0 →
      Does (.hostDataArrival p data md bad) s (EndedWith p.val x (piStatus (piReqOf n x.dw) secs) 0))
    ∧ (piStatus (piReqOf n x.dw) secs = 0 → (∀ e ∈ s.dev.buildIus (bad.map BitVec.toNat) x secs, e.2 ≠ none) →
      Does (.hostDataArrival p data md bad) s (PlacedOrWaits p x)))
  ∧ (∀ (p : Pen) (s : State) (x : PenSt), s.dev.pen p.val = some x → x.stage = .placeWait →
    ((∀ j ∈ x.ius, j.state = 2) → Does (.placementWaitEnd p) s (EndedWith p.val x 0 0))
    ∧ (∀ j, x.ius = [j] → j.state = 0 → s.dev.freePm (s.dev.streamGroup (s.dev.streamOf x)) < s.dev.cfgv 0x012 0x12 →
        Does (.placementWaitEnd p) s fun d => d.pen p.val = some x ∧ d.mapc = s.dev.mapc ∧ d.media = s.dev.media)
    ∧ (∀ j r, x.ius = [j] → j.state = 0 → s.dev.cfgv 0x012 0x12 ≤ s.dev.freePm (s.dev.streamGroup (s.dev.streamOf x)) →
        r = s.dev.placeIu { nsid := x.nsid, liu := j.liu, wsn := 0, data := j.data, hmeta := j.hmeta, marked := false, raddle := false,
                            stream := s.dev.streamOf x, use := .host, pen := some p.val, onlyIf := none } → r.2 = true →
        Does (.placementWaitEnd p) s fun d => EndedWith p.val x 0 0 d ∧ d.mapc = r.1.mapc ∧ d.media = r.1.media ∧ d.mem = r.1.mem))
  ∧ (∀ (p : Pen) (s : State) (x : PenSt), s.dev.pen p.val = some x → x.stage = .tombWait →
    (s.dev.tombFull = false → (∀ j ∈ x.ius, j.state = 2) → Does (.tombstoneWaitEnd p) s (EndedWith p.val x 0 0))
    ∧ (s.dev.tombFull = true → Gives (.tombstoneWaitEnd p) s s.dev))
  ∧ (∀ (p : Pen) (s : State) (x : PenSt), s.dev.held p.val 0 = some x → Does (.flush p) s fun d => EndedWith p.val x 0 0 d ∧ d.mem = s.dev.mem)
  ∧ (∀ (p : Pen) (bad : List (BitVec 38)) (s : State) (x : PenSt) (n : NsSt), s.dev.held p.val 8 = some x → n = s.dev.nspace x.nsid →
    (∀ e ∈ s.dev.buildIus (bad.map BitVec.toNat) x ((List.range x.count).map (fun i => (zeros n.lbaSize,
      if (piReqOf n x.dw).pract && (piReqOf n x.dw).kind != 0 then (piReqOf n x.dw).insert i (zeros n.lbaSize) else zeros n.metaSize))), e.2 ≠ none) →
    Does (.writeZeroes p bad) s (PlacedOrWaits p x))
  ∧ (∀ (p : Pen) (s : State) (x : PenSt), s.dev.pen p.val = some x → x.isAdmin = false → x.opcode = 9 → x.due = none →
    (x.deallocates = false → x.stage = .ready → x.walk = 1 → Does (.datasetManagement p) s (EndedWith p.val x 0 0))
    ∧ (x.deallocates = true → x.stage = .executing → Does (.datasetManagement p) s (PlacedOrWaits p x))
    ∧ (x.deallocates = true → x.stage = .executing →
        (∀ r ∈ x.ranges, (s.dev.wholeIus (s.dev.nspace x.nsid) r.1 r.2).2 = 0) →
        Does (.datasetManagement p) s (EndedWith p.val x 0 0)))

/-- READ and VERIFY of a Held command with no IU under repair and every entry found leave the command with one IU job for each IU it
touches. READ_DISPATCH of the only IU of a read: an entry that is not mapped completes the command with zeros sent to the host; a marked or
bad entry completes it with Unrecovered Read Error; an entry on a readable die, not staged, becomes a die read with a ticket.
RECONSTRUCTION_REQUEST of an IU whose die read ended without it asks for it once. RECONSTRUCTION_COMPLETE of a request nobody waits for,
whose IU can be read, ends the request. HOST_READ_FAILURE retries a transfer while retries are left, and then ends the command with Data
Transfer Error. (R30, R31, R156, R217) -/
def Obligations.ReadCommands : Prop :=
  (∀ r ∈ [(2, fun p => Instr.read p), (0x0C, fun p => Instr.verify p)], ∀ (p : Pen) (s : State) (x : PenSt) (l e : Nat) (d1 : Dev),
    s.dev.held p.val r.1 = some x → s.dev.readRange x = (l, l) → s.dev.underRepair (s.dev.iuBase x.nsid + l) = false →
    s.dev.mapLookup (s.dev.iuBase x.nsid + l) = (d1, some e) → Does (r.2 p) s fun d =>
      ∃ y j, d.pen p.val = some y ∧ y = { x with stage := .media, ius := [j] } ∧ j.liu = l ∧ j.diu = s.dev.iuBase x.nsid + l ∧ j.entry = e ∧ j.state = 0
        ∧ (j.epoch.isSome = true ↔ entType e = 1) ∧ d.mem = d1.mem)
  ∧ (∀ r ∈ [(2, fun p => Instr.read p), (0x0C, fun p => Instr.verify p)], ∀ (p : Pen) (s : State) (x : PenSt),
    s.dev.held p.val r.1 = some x → (∃ i, (s.dev.readRange x).1 ≤ i ∧ i ≤ (s.dev.readRange x).2 ∧ s.dev.underRepair (s.dev.iuBase x.nsid + i) = true) →
    Gives (r.2 p) s s.dev)
  ∧ (∀ (p : Pen) (iu : BitVec 13) (s : State) (x : PenSt) (j : IuJob), s.dev.pen p.val = some x → x.stage = .media → x.ius = [j] → iu = 0 →
    j.state = 0 → x.due = none → s.dev.moversHalted x.ctrl = false → s.dev.postingStopped = false →
    (entType j.entry = 0 → x.opcode = 2 → j.epoch = none → 0 < (s.dev.nspace x.nsid).lbaSize → Does (.readDispatch p iu) s fun d =>
      EndedWith p.val x 0 0 d ∧ ∃ b, Output.hostData x.ctrl x.cid 0 b ∈ d.outputs ∧ ∀ v ∈ b.take (s.dev.nspace x.nsid).lbaSize, v = 0)
    ∧ (2 ≤ entType j.entry → j.epoch = none → Does (.readDispatch p iu) s (EndedWith p.val x 0x281 0))
    ∧ (entType j.entry = 1 → s.dev.ownerOf (entKey j.entry / 2 ^ 26) (s.dev.unslot (entKey j.entry)).1 = none →
        s.dev.readable (entKey j.entry / 2 ^ 26) = true → Does (.readDispatch p iu) s fun d =>
          ∃ y t, d.pen p.val = some y ∧ y.ius = [{ j with state := 1, ticket := some t }] ∧ y.stage = .media))
  ∧ (∀ (p : Pen) (iu : BitVec 13) (s : State) (x : PenSt) (j : IuJob), s.dev.pen p.val = some x → x.ius[iu.toNat]? = some j → j.state = 1 →
    j.ticket = none → entType j.entry = 1 → (entKey j.entry, some (p.val, iu.toNat)) ∉ s.dev.drove.recon →
    Gives (.reconstructionRequest p iu) s
      { s.dev with drove := { s.dev.drove with recon := s.dev.drove.recon ++ [(entKey j.entry, some (p.val, iu.toNat))] } })
  ∧ (∀ (bad : List (BitVec 38)) (s : State) (key : Nat) (rest : List (Nat × Option (Nat × Nat))) (c : Bytes × Bytes × Bytes),
    s.dev.drove.recon = (key, none) :: rest → s.dev.readIu (key :: bad.map BitVec.toNat) key = some c →
    Does (.reconstructionComplete bad) s fun d => d.drove.recon = rest ∧ d.drove.reconEvt = true ∧ d.nvme = s.dev.nvme ∧ d.mem = s.dev.mem)
  ∧ (∀ (p : Pen) (timeout : Bool) (s : State) (x : PenSt), s.dev.pen p.val = some x → x.due = none → x.stage = .external → x.isAdmin = false →
    s.dev.moversHalted x.ctrl = false →
    (x.retries < s.dev.cfgv 6 3 → Does (.hostReadFailure p timeout) s fun d => d.pen p.val = some { x with retries := x.retries + 1 })
    ∧ (s.dev.cfgv 6 3 ≤ x.retries → Does (.hostReadFailure p timeout) s (EndedWith p.val x 0x004 0)))

/-- An admin command of an opcode stands ready in a pen. -/
def Sys2Proof.Safety.AdminAt (d : Dev) (p : Pen) (x : PenSt) (op : Nat) : Prop := d.pen p.val = some x ∧ d.adminReady p.val op = true
/-- The front end may post a completion of a pen's command now: nothing stops it and its completion queue has room. -/
def Sys2Proof.Safety.CanPost (d : Dev) (x : PenSt) : Prop :=
  d.postingStopped = false ∧ d.moversHalted x.ctrl = false
    ∧ (let q := (d.ctrl x.ctrl).cqs.get CqSt.init ((d.ctrl x.ctrl).cqOf x.sq)
       (if q.tail + 1 < q.size then q.tail + 1 else 0) ≠ q.head)
/-- The fields of a create that both kinds of queue share are in order: an identifier from 1 within the grant, a size, contiguous, page-aligned. -/
def Sys2Proof.Safety.QueueFields (c : CtrlSt) (x : PenSt) (qid most : Nat) : Prop :=
  bitsOf (x.dw 10) 15 0 = qid ∧ 1 ≤ qid ∧ qid ≤ most ∧ bitsOf (x.dw 10) 31 16 ≠ 0 ∧ bitOf (x.dw 11) 0 = true ∧ x.dw 6 % c.pageSize = 0
/-- For an admin command ready in a pen: CREATE of a queue with a free identifier within the grant, a size, a contiguous aligned base and,
for a completion queue, a vector of the controller, and for a submission queue an existing completion queue, completes with Success and the
queue stands with the fields asked for; DELETE of a completion queue that no submission queue uses removes it, and ends with Invalid Queue
Deletion where one does; DELETE of a submission queue with no command in a pen removes it and completes. ABORT that finds nothing waiting
ends with dword 0 bit 0 set; one that finds a waiting command frees its hurdle, ends it with Command Abort Requested and completes with 0.
An event request takes the oldest kept event, else is outstanding, and the seventeenth ends with its limit status. The coalescing time of a
queue with a held interrupt sends it. (R137, R141, R174, R175) -/
def Obligations.QueueCommands : Prop :=
  (∀ (p : Pen) (s : State) (x : PenSt) (c : CtrlSt) (qid : Nat), AdminAt s.dev p x 0x05 → c = s.dev.ctrl x.ctrl → QueueFields c x qid c.grant.2 →
    c.cqs.get? qid = none → bitsOf (x.dw 11) 31 16 < s.dev.vectors x.ctrl → Does (.createIoCompletionQueue p) s fun d =>
      EndedWith p.val x 0 0 d ∧ ∃ q, (d.ctrl x.ctrl).cqs.get? qid = some q ∧ q.size = bitsOf (x.dw 10) 31 16 + 1
        ∧ q.iv = bitsOf (x.dw 11) 31 16 ∧ q.ien = bitOf (x.dw 11) 1 ∧ q.base = x.dw 6 + x.dw 7 * 2 ^ 32)
  ∧ (∀ (p : Pen) (s : State) (x : PenSt) (c : CtrlSt) (qid cq : Nat), AdminAt s.dev p x 0x01 → c = s.dev.ctrl x.ctrl → QueueFields c x qid c.grant.1 →
    c.sqs.get? qid = none → cq = bitsOf (x.dw 11) 31 16 → 1 ≤ cq → cq ≤ c.grant.2 → c.cqs.get? cq ≠ none → Does (.createIoSubmissionQueue p) s fun d =>
      EndedWith p.val x 0 0 d ∧ (d.ctrl x.ctrl).sqs.get? qid = some
        { size := bitsOf (x.dw 10) 31 16 + 1, cq := cq, prio := bitsOf (x.dw 11) 2 1, head := 0, tail := 0,
          base := x.dw 6 + x.dw 7 * 2 ^ 32, deleting := none })
  ∧ (∀ (p : Pen) (s : State) (x : PenSt) (c : CtrlSt) (qid : Nat), AdminAt s.dev p x 0x04 → c = s.dev.ctrl x.ctrl → bitsOf (x.dw 10) 15 0 = qid →
    1 ≤ qid → c.cqs.get? qid ≠ none →
    ((∀ e ∈ c.sqs, e.1 = 0 ∨ e.2.cq ≠ qid) → Does (.deleteIoCompletionQueue p) s fun d =>
      EndedWith p.val x 0 0 d ∧ (d.ctrl x.ctrl).cqs.get? qid = none)
    ∧ ((∃ e ∈ c.sqs, e.1 ≠ 0 ∧ e.2.cq = qid) → Does (.deleteIoCompletionQueue p) s (EndedWith p.val x 0x10C 0)))
  ∧ (∀ (p : Pen) (s : State) (x : PenSt) (qid : Nat) (q : SqSt), AdminAt s.dev p x 0x00 → bitsOf (x.dw 10) 15 0 = qid → 1 ≤ qid →
    (s.dev.ctrl x.ctrl).sqs.get? qid = some q → q.deleting = none → (∀ e ∈ s.dev.nvme.pens, e.2.ctrl ≠ x.ctrl ∨ e.2.sq ≠ qid) →
    Does (.deleteIoSubmissionQueue p) s fun d => EndedWith p.val x 0 0 d ∧ (d.ctrl x.ctrl).sqs.get? qid = none)
  ∧ (∀ (p : Pen) (s : State) (x : PenSt) (named : Nat × PenSt → Bool), AdminAt s.dev p x 0x08 →
    named = (fun e => e.2.ctrl == x.ctrl && e.2.sq == bitsOf (x.dw 10) 15 0 && e.2.cid == bitsOf (x.dw 10) 31 16 && s.dev.isWaiting e.1 e.2) →
    (s.dev.nvme.pens.find? named = none → Does (.abort p) s (EndedWith p.val x 0 1))
    ∧ (∀ e, s.dev.nvme.pens.find? named = some e → e.1 ≠ p.val → s.dev.pen e.1 = some e.2 → e.2.stage = .waiting → CanPost s.dev e.2 →
        Does (.abort p) s fun d => EndedWith p.val x 0 0 d ∧ EndedWith e.1 e.2 0x007 0 d ∧ d.nvme.hurdles.get? e.1 = none))
  ∧ (∀ (p : Pen) (s : State) (x : PenSt) (c : CtrlSt), AdminAt s.dev p x 0x0C → c = s.dev.ctrl x.ctrl →
    (∀ t i g rest, c.aes = (t, i, g) :: rest → Does (.asynchronousEventRequest p) s fun d =>
      EndedWith p.val x 0 (t + i * 256 + g * 65536) d ∧ (d.ctrl x.ctrl).aes = rest)
    ∧ (c.aes = [] → c.aers.length < 16 → Gives (.asynchronousEventRequest p) s
        ((s.dev.setCtrl x.ctrl { c with aers := c.aers ++ [p.val] }).setPen p.val { x with stage := .external }))
    ∧ (c.aes = [] → 16 ≤ c.aers.length → Does (.asynchronousEventRequest p) s (EndedWith p.val x 0x105 0)))
  ∧ (∀ (k : Ctrl) (q : BitVec 16) (s : State) (c : CqSt), (s.dev.ctrl k.val).cqs.get? q.toNat = some c → c.heldIrq ≠ 0 →
    Does (.interruptCoalescingTime k q) s fun d => Output.interrupt k.val c.iv ∈ d.outputs ∧ d.now = max s.dev.now c.heldUntil
      ∧ (d.ctrl k.val).cqs.get? q.toNat = some { c with heldIrq := 0, heldUntil := 0 } ∧ d.mem = s.dev.mem)

/-- For a Set Features ready in a pen with its movers running: with the Save bit it ends with Feature Identifier Not Saveable; an
Arbitration, Error Recovery, Write Atomicity or Asynchronous Event Configuration value that the feature admits becomes the controller's
feature and the command completes. Get Features with SEL 0 completes with the value in dword 0. Number of Queues grants the least of
request, controller maximum and pool, takes it from the pool and reports both counts less one; with a grant standing it ends with Command
Sequence Error. Power Management with a state up to 4 whose request does not change the device's wanted state completes at once with the
state requested. (R139, R141, R177, R460) -/
def Obligations.Features : Prop :=
  (∀ (p : Pen) (data : Bytes) (s : State) (x : PenSt) (fid v : Nat), AdminAt s.dev p x 0x09 → s.dev.moversHalted x.ctrl = false →
    bitsOf (x.dw 10) 7 0 = fid → x.dw 11 = v →
    (bitOf (x.dw 10) 31 = true → fid ≠ 2 → fid ≠ 7 → Does (.setFeatures p data) s (EndedWith p.val x 0x10D 0))
    ∧ (bitOf (x.dw 10) 31 = false → fid ∈ [0x01, 0x05, 0x0A, 0x0B] → (fid = 0x01 → v % 8 ≤ 6) → (fid = 0x05 → bitOf v 16 = false) →
        Does (.setFeatures p data) s fun d => EndedWith p.val x 0 0 d ∧ (d.ctrl x.ctrl).features.get? fid = some v))
  ∧ (∀ (p : Pen) (s : State) (x : PenSt) (fid : Nat), AdminAt s.dev p x 0x0A → s.dev.moversHalted x.ctrl = false →
    bitsOf (x.dw 10) 7 0 = fid → bitsOf (x.dw 10) 10 8 = 0 →
    (fid ∈ [0x01, 0x05, 0x08, 0x0A, 0x0B, 0x10, 0x11] →
        Does (.getFeatures p) s (EndedWith p.val x 0 ((s.dev.ctrl x.ctrl).features.get 0 fid)))
    ∧ (fid = 0x02 → Does (.getFeatures p) s (EndedWith p.val x 0 (s.dev.ctrl x.ctrl).reqPs))
    ∧ (fid = 0x03 → Does (.getFeatures p) s (EndedWith p.val x 0x002 0)))
  ∧ (∀ (p : Pen) (s : State) (x : PenSt) (g : Nat × Nat), AdminAt s.dev p x 0x09 → bitsOf (x.dw 10) 7 0 = 0x07 → bitOf (x.dw 10) 31 = false →
    ((s.dev.ctrl x.ctrl).granted ≠ none → Does (.setFeaturesNumberOfQueues p) s (EndedWith p.val x 0x00C 0))
    ∧ ((s.dev.ctrl x.ctrl).granted = none → x.dw 11 % 65536 ≠ 65535 → x.dw 11 / 65536 ≠ 65535 →
        g = (min (x.dw 11 % 65536 + 1) (min (s.dev.cfgv (0x600 + x.ctrl) 3) s.dev.nvme.poolSq),
             min (x.dw 11 / 65536 + 1) (min (s.dev.cfgv (0x600 + x.ctrl) 3) s.dev.nvme.poolCq)) → g.1 ≠ 0 → g.2 ≠ 0 →
        Does (.setFeaturesNumberOfQueues p) s fun d => EndedWith p.val x 0 (g.1 - 1 + 65536 * (g.2 - 1)) d ∧ (d.ctrl x.ctrl).granted = some g
          ∧ d.nvme.poolSq + g.1 = s.dev.nvme.poolSq ∧ d.nvme.poolCq + g.2 = s.dev.nvme.poolCq))
  ∧ (∀ (p : Pen) (s : State) (x : PenSt) (d1 : Dev), AdminAt s.dev p x 0x09 → bitsOf (x.dw 10) 7 0 = 0x02 →
    (bitOf (x.dw 10) 31 = true → Does (.setFeaturesPowerManagement p) s (EndedWith p.val x 0x10D 0))
    ∧ (bitOf (x.dw 10) 31 = false → x.dw 11 % 32 ≤ 4 →
        d1 = s.dev.modCtrl x.ctrl (fun c => { c with reqPs := x.dw 11 % 32, opPs := if x.dw 11 % 32 < 2 then x.dw 11 % 32 else c.opPs }) →
        d1.wantedState = s.dev.wantedState → Does (.setFeaturesPowerManagement p) s fun d =>
          EndedWith p.val x 0 0 d ∧ (d.ctrl x.ctrl).reqPs = x.dw 11 % 32))

/-- For a Get Log Page ready in a pen with its movers running, whose page identifier is its command's: where the page exists for its
selector, the length is within 2 MiB and, for an NVMe page, the offset is in it and a multiple of 4, the host is sent the page's bytes from
the offset and the command completes; with Retain Asynchronous Event clear no event of that page is kept any more, with it set the kept
events stay. A selector without a page, or a length beyond 2 MiB, ends it with Invalid Field. Identify sends the data of its CNS and
completes, or ends with its status; the active namespace list (CNS 0x02) is the attached namespaces above the NSID. (R137, R138, R140, R409,
R515) -/
def Obligations.LogsAndIdentify : Prop :=
  (∀ r ∈ [((fun p => Instr.getLogRunModuleResult p), fun l : Nat => l == 0xC0), ((fun p => Instr.getLogTally p), fun l => l == 0xC1),
          ((fun p => Instr.getLogEventRecords p), fun l => l == 0xC2), ((fun p => Instr.getLogPage p), fun l => ! [0xC0, 0xC1, 0xC2].contains l)],
    ∀ (p : Pen) (s : State) (x : PenSt) (lid : Nat), AdminAt s.dev p x 0x02 → s.dev.moversHalted x.ctrl = false → x.dw 10 % 256 = lid → r.2 lid = true →
    (lid = 0x02 → x.nsid = 0) →
    (∀ b, s.dev.anyLog x.ctrl lid (logSel x.dw) = some b → logLen x.dw ≤ 0x200000 →
      (lid < 0xC0 → logOff x.dw ≤ b.length ∧ logOff x.dw % 4 = 0) → Does (r.1 p) s fun d =>
        EndedWith p.val x 0 0 d ∧ Output.hostData x.ctrl x.cid 0 (s.dev.cutPage lid (logOff x.dw) (logLen x.dw) b) ∈ d.outputs
        ∧ (bitOf (x.dw 10) 15 = true → (d.ctrl x.ctrl).aes = (s.dev.ctrl x.ctrl).aes)
        ∧ (bitOf (x.dw 10) 15 = false → ∀ e ∈ (d.ctrl x.ctrl).aes, e.2.2 ≠ lid))
    ∧ (s.dev.anyLog x.ctrl lid (logSel x.dw) = none ∨ 0x200000 < logLen x.dw → Does (r.1 p) s (EndedWith p.val x 0x002 0)))
  ∧ (∀ (p : Pen) (s : State) (x : PenSt), AdminAt s.dev p x 0x06 → s.dev.moversHalted x.ctrl = false →
    (∀ b, s.dev.identify x.ctrl x.nsid (x.dw 10) (x.dw 11) = .ok b → Does (.identify p) s fun d =>
      EndedWith p.val x 0 0 d ∧ Output.hostData x.ctrl x.cid 0 b ∈ d.outputs)
    ∧ (∀ st, s.dev.identify x.ctrl x.nsid (x.dw 10) (x.dw 11) = .error st → Does (.identify p) s (EndedWith p.val x st 0))
    ∧ (bitsOf (x.dw 10) 7 0 = 0x02 → x.nsid < 0xFFFFFFFE → Does (.identify p) s fun d => Output.hostData x.ctrl x.cid 0
        (nsList (s.dev.namespaces.filter (fun n => s.dev.attached n x.ctrl)) x.nsid) ∈ d.outputs))

/-- For an admin command ready in a pen, its movers running, of a physical function that holds the Crook: a create that passes its checks
and whose commit succeeds completes with the lowest free NSID, and that namespace exists with the size, format and DIU range asked for; a
delete of one namespace attached to no controller and used by no command completes and it does not exist; an attach of controllers that are
not attached, whose block applies at once, completes with them attached; bringing a virtual function online completes and it is online; a
Held Format of one namespace with no key change places its record, completes and gives it the format; a Held Sanitize that gives every
namespace a new key records it, and completes once no retired generation is left. Without the Crook create, delete and Format end with
Operation Denied. (R125, R134, R136, R152, R214, R215, R417) -/
def Obligations.NamespaceCommands : Prop :=
  (∀ (p : Pen) (data : Bytes) (fails : TallyFails) (s : State) (x : PenSt) (ns : NsSt) (n cnt base : Nat) (r : Dev × Nat) (d2 : Dev),
    AdminAt s.dev p x 0x0D → s.dev.moversHalted x.ctrl = false → s.dev.isPf x.ctrl = true → x.dw 10 % 16 = 0 → bitsOf (x.dw 11) 31 24 = 0 →
    ns = newNamespace data → s.dev.createBad ns = 0 → s.dev.freeNsid = some n → cnt = iuCountOf ns.nsze ns.lbaSize s.dev.iuKib →
    base = lowestFit (s.dev.namespaces.map s.dev.iuSpan) cnt → s.dev.capacityOk (s.dev.iuUsed + cnt) = true → base + cnt ≤ s.dev.mapLimit →
    (s.dev.holdsCrook x.ctrl = false → Does (.namespaceManagement p data fails) s (EndedWith p.val x 0x015 0))
    ∧ (s.dev.holdsCrook x.ctrl = true → s.dev.newGeneration n ≠ none → (∀ e ∈ s.dev.cfg.due, e.1 ≠ 0x1FF + n) →
        r = s.dev.ownCommit (some x.ctrl) (attachFields n 0 0) fails → r.2 = 0 →
        ((r.1.setNspace n { ns with key := (r.1.nspace n).key }).setSpan n base cnt).newGeneration n = some d2 →
        Does (.namespaceManagement p data fails) s fun d => EndedWith p.val x 0 n d ∧ (d.nspace n).exists_ = true
          ∧ (d.nspace n).nsze = leAt data 0 8 ∧ (d.nspace n).lbaf = ns.lbaf ∧ d.iuBase n = base ∧ d.iuCount n = cnt))
  ∧ (∀ (p : Pen) (data : Bytes) (fails : TallyFails) (s : State) (x : PenSt) (n : Nat) (d1 : Dev),
    AdminAt s.dev p x 0x0D → s.dev.moversHalted x.ctrl = false → s.dev.isPf x.ctrl = true → x.dw 10 % 16 = 1 → x.nsid = n → 1 ≤ n → n ≤ 1024 →
    (s.dev.nspace n).exists_ = true →
    (s.dev.holdsCrook x.ctrl = false → Does (.namespaceManagement p data fails) s (EndedWith p.val x 0x015 0))
    ∧ (s.dev.holdsCrook x.ctrl = true → s.dev.attachSet n = 0 → s.dev.nsInUse [n] = false → (∀ e ∈ s.dev.cfg.due, e.1 - 0x1FF ≠ n) →
        s.dev.nsDelete n = some d1 → Does (.namespaceManagement p data fails) s fun d =>
          EndedWith p.val x 0 0 d ∧ (d.nspace n).exists_ = false ∧ d.iuCount n = 0))
  ∧ (∀ (p : Pen) (data : Bytes) (fails : TallyFails) (s : State) (x : PenSt) (n k m : Nat) (r : Dev × Nat),
    AdminAt s.dev p x 0x15 → s.dev.moversHalted x.ctrl = false → s.dev.isPf x.ctrl = true → x.dw 10 % 16 = 0 → x.nsid = n → 1 ≤ n → n ≤ 1024 →
    (s.dev.nspace n).exists_ = true → listed data = some [k] →
    (s.dev.attached n k = true → Does (.namespaceAttachment p data fails) s (EndedWith p.val x 0x118 0))
    ∧ (s.dev.attached n k = false → m = setBits (s.dev.attachSet n) k k 1 → s.dev.cfg.due = [] → s.dev.nsBusy (0x1FF + n) = false →
        (s.dev.ctrl k).en = false → r = s.dev.ownCommitAs (0x20000 + p.val) (some x.ctrl) (attachFields n (m % 2 ^ 64) (m / 2 ^ 64)) fails → r.2 = 0 →
        r.1.cfg.due = [] → Does (.namespaceAttachment p data fails) s fun d => EndedWith p.val x 0 0 d ∧ d.attachSet n = m))
  ∧ (∀ (p : Pen) (s : State) (x : PenSt) (k : Nat), AdminAt s.dev p x 0x1C → s.dev.isPf x.ctrl = true → x.dw 10 % 16 = 9 →
    bitsOf (x.dw 10) 31 16 = k + 1 → (s.dev.secondaries x.ctrl).contains k = true → Does (.virtualizationManagement p) s fun d =>
      EndedWith p.val x 0 0 d ∧ (d.ctrl k).online = true)
  ∧ (∀ (p : Pen) (bad : List (DieId × BitVec 12)) (s : State) (x : PenSt) (n : Nat) (d1 : Dev), s.dev.heldAdmin p.val 0x80 = some x →
    (s.dev.holdsCrook x.ctrl = false → Does (.formatNvm p bad) s (EndedWith p.val x 0x015 0))
    ∧ (s.dev.holdsCrook x.ctrl = true → x.nsid = n → n ≤ 1024 → (s.dev.nspace n).exists_ = true → bitsOf (x.dw 10) 11 9 = 0 →
        bitsOf (x.dw 10) 13 12 = 0 → formatBad (bitsOf (x.dw 10) 3 0) (bitsOf (x.dw 10) 7 5) s.dev.iuKib = 0 →
        (s.dev.reformatAll [n] (x.dw 10) false).capacityOk (s.dev.reformatAll [n] (x.dw 10) false).iuUsed = true →
        s.dev.nsRecord n = some d1 → Does (.formatNvm p bad) s fun d =>
          EndedWith p.val x 0 0 d ∧ (d.nspace n).lbaf = bitsOf (x.dw 10) 3 0 ∧ (d.nspace n).pi = bitsOf (x.dw 10) 7 5))
  ∧ (∀ (p : Pen) (s : State) (x : PenSt) (d1 : Dev) (gens : List (Nat × Nat)), s.dev.heldAdmin p.val 0x84 = some x →
    (x.dw 10 % 8 = 1 → Does (.sanitize p) s (EndedWith p.val x 0 0))
    ∧ (x.dw 10 % 8 = 4 → s.dev.changeKeys s.dev.namespaces = some (d1, gens) → Does (.sanitize p) s fun d =>
        d.nvme.sanitizeStatus = 1 ∧ (gens = [] → EndedWith p.val x 0 0 d)
        ∧ (gens ≠ [] → d.nvme.keyWaits.get? p.val = some gens ∧ ∃ y, d.pen p.val = some y ∧ y.stage = .external ∧ y.due = none)))
  ∧ (∀ (p : Pen) (data : Bytes) (fails : TallyFails) (s : State) (x : PenSt), AdminAt s.dev p x 0x81 → s.dev.moversHalted x.ctrl = false →
    (s.dev.secp p.val = 0 → Does (.securitySend p data fails) s (EndedWith p.val x 0x002 0))
    ∧ (s.dev.secp p.val = 0xE8 → leAt data 1 1 = 0x95 → Does (.securitySend p data fails) s fun d =>
        EndedWith p.val x 0 0 d ∧ d.spdm.replies.get? x.ctrl = some (spdmError errUnsupported)))
  ∧ (∀ (p : Pen) (s : State) (x : PenSt), AdminAt s.dev p x 0x82 → s.dev.moversHalted x.ctrl = false → x.dw 11 ≤ 0x200000 →
    (∀ b, s.dev.secp p.val = 0 → secInfo (s.dev.spsp p.val) = some b → Does (.securityReceive p) s fun d =>
      EndedWith p.val x 0 0 d ∧ Output.hostData x.ctrl x.cid 0 (b.take (x.dw 11)) ∈ d.outputs)
    ∧ (∀ b, s.dev.secp p.val = 0xE8 → s.dev.spdm.replies.get? x.ctrl = some b → Does (.securityReceive p) s fun d =>
      EndedWith p.val x 0 0 d ∧ Output.hostData x.ctrl x.cid 0 (b.take (x.dw 11)) ∈ d.outputs ∧ d.spdm.replies.get? x.ctrl = none)
    ∧ (s.dev.secp p.val = 0xE8 → s.dev.spdm.replies.get? x.ctrl = none → Does (.securityReceive p) s (EndedWith p.val x 0x00C 0)))

/-- For a Held reservation command: a register by a host that is not registered adds it with its new key and raises the generation; an
unregister with the right key by a registrant that does not hold the reservation removes it; an acquire with the right key of a namespace
that is not reserved gives the registrant the reservation and its type, and one by a registrant against another's reservation ends with
Reservation Conflict; a release with the right key and type by the holder of an exclusive type frees it; each of the three from an
unregistered host ends with Reservation Conflict. The report, with the extended bit, sends the status structure and completes. Data layouts
and statuses are NVMe's (the model's own presumption, assumption log 30). (R137, R171) -/
def Obligations.ReservationCommands : Prop :=
  (∀ (p : Pen) (b : Bytes) (s : State) (x : PenSt) (r : ResvSt) (me : Option Registrant), s.dev.resvCmd p.val 0x0D = some (x, r, me) →
    (me = none → x.dw 10 % 8 = 0 → Does (.reservationRegister p b) s fun d => EndedWith p.val x 0 0 d
      ∧ (d.nspace x.nsid).resv.regs = r.regs ++ [{ ctrl := x.ctrl, hostId := s.dev.hostId x.ctrl, key := leAt b 8 8 }]
      ∧ (d.nspace x.nsid).resv.gen = r.gen + 1 ∧ (d.nspace x.nsid).resv.holder = r.holder)
    ∧ (∀ m, me = some m → x.dw 10 % 8 = 1 → m.key = leAt b 0 8 → r.holds m = false → Does (.reservationRegister p b) s fun d =>
        EndedWith p.val x 0 0 d ∧ (d.nspace x.nsid).resv.regs = r.regs.filter (fun y => y != m) ∧ (d.nspace x.nsid).resv.gen = r.gen + 1)
    ∧ (∀ m, me = some m → x.dw 10 % 8 = 2 → bitOf (x.dw 10) 3 = false → m.key ≠ leAt b 0 8 →
        Does (.reservationRegister p b) s fun d => EndedWith p.val x 0x083 0 d ∧ (d.nspace x.nsid).resv = r))
  ∧ (∀ (p : Pen) (b : Bytes) (s : State) (x : PenSt) (r : ResvSt) (me : Option Registrant), s.dev.resvCmd p.val 0x11 = some (x, r, me) →
    (me = none → Does (.reservationAcquire p b) s fun d => EndedWith p.val x 0x083 0 d ∧ (d.nspace x.nsid).resv = r)
    ∧ (∀ m, me = some m → m.key = leAt b 0 8 → bitOf (x.dw 10) 3 = false → x.dw 10 % 8 = 0 →
        (r.rtype = 0 → Does (.reservationAcquire p b) s fun d => EndedWith p.val x 0 0 d
          ∧ (d.nspace x.nsid).resv = { r with holder := some m.ctrl, rtype := bitsOf (x.dw 10) 15 8 })
        ∧ (r.rtype ≠ 0 → r.holds m = false → Does (.reservationAcquire p b) s fun d =>
            EndedWith p.val x 0x083 0 d ∧ (d.nspace x.nsid).resv = r)))
  ∧ (∀ (p : Pen) (b : Bytes) (s : State) (x : PenSt) (r : ResvSt) (me : Option Registrant), s.dev.resvCmd p.val 0x15 = some (x, r, me) →
    (me = none → Does (.reservationRelease p b) s fun d => EndedWith p.val x 0x083 0 d ∧ (d.nspace x.nsid).resv = r)
    ∧ (∀ m, me = some m → m.key = leAt b 0 8 → bitOf (x.dw 10) 3 = false → x.dw 10 % 8 = 0 → r.holds m = true → r.rtype = bitsOf (x.dw 10) 15 8 →
        r.rtype < 3 → Does (.reservationRelease p b) s fun d => EndedWith p.val x 0 0 d ∧ (d.nspace x.nsid).resv = { r with holder := none, rtype := 0 }))
  ∧ (∀ (p : Pen) (s : State) (x : PenSt), s.dev.pen p.val = some x → x.isAdmin = false → x.opcode = 0x0E → x.stage = .ready → x.walk = 1 → x.due = none →
    (bitOf (x.dw 11) 0 = true → Does (.reservationReport p) s fun d => EndedWith p.val x 0 0 d
      ∧ Output.hostData x.ctrl x.cid 0 ((s.dev.resvReportBytes x.nsid).take (4 * (x.dw 10 + 1))) ∈ d.outputs)
    ∧ (bitOf (x.dw 11) 0 = false → Does (.reservationReport p) s (EndedWith p.val x 0x024 0)))

/-- A Security Send of a lifecycle request of a type stands ready in the pen of a physical function. -/
def Sys2Proof.Safety.RequestAt (d : Dev) (p : Pen) (x : PenSt) (type : Nat) (b : Bytes) : Prop :=
  d.pen p.val = some x ∧ d.adminReady p.val 0x81 = true ∧ d.secp p.val = 0xF0 ∧ d.spsp p.val = 2 ∧ d.isPf x.ctrl = true
    ∧ leAt b 6 1 = type ∧ b.length = x.dw 11 ∧ d.eraseWaits b = false
/-- The rows of lifecycle requests, with their types. -/
def Sys2Proof.Safety.lifecycleRows : List (Nat × (LcSource → Bytes → Bool → TallyFails → Instr)) :=
  [(1, Instr.enrol), (2, Instr.transfer), (3, Instr.release), (4, Instr.setPolicy), (5, Instr.decommission), (6, Instr.openDebug),
   (7, Instr.closeDebug), (8, Instr.installEndorsement)]
/-- For a lifecycle request ready in the pen of a physical function that holds the Crook, its length as CDW11 says and no crypto erase of it
still to wait for, each of the eight types completes the command with Success. Where the checks refuse it, the status is kept, the ownership
counter stands, and the nonce is consumed unless the status is 0x02 or 0x03. Accepted with a good store write, enrol and release raise the
counter by one, transfer and set policy by two, with result 0x00 or 0x0B; installing an endorsement keeps it under the counter; opening
debug sets the scope asked for where its entry is appended, else leaves it with result 0x0A; closing debug clears the scope; decommission,
where its entry is appended, erases owner, endorsement and key slots and makes a Fold-initiated reset due. Without the Crook each ends with
Operation Denied and no effect on the Fold. (R366, R370, R371, R372, R373, R376, R381, R394) -/
def Obligations.LifecycleRequests : Prop :=
  (∀ row ∈ lifecycleRows, ∀ (p : Pen) (b : Bytes) (storeOk : Bool) (fails : TallyFails) (s : State) (x : PenSt), RequestAt s.dev p x row.1 b →
    (s.dev.holdsCrook x.ctrl = false → Does (row.2 (.pen p) b storeOk fails) s fun d => EndedWith p.val x 0x015 0 d ∧ d.fold = s.dev.fold)
    ∧ (∀ st r, s.dev.holdsCrook x.ctrl = true → s.dev.lcCheck b = (st, r) → st ≠ 0 → Does (row.2 (.pen p) b storeOk fails) s fun d =>
        EndedWith p.val x 0 0 d ∧ d.fold.reqStatus = st ∧ d.fold.ownerCtr = s.dev.fold.ownerCtr ∧ d.keys = s.dev.keys
        ∧ d.fold.nonce = (if st = 2 ∨ st = 3 then s.dev.fold.nonce else none)))
  ∧ (∀ row ∈ [(1, Instr.enrol, 1), (2, Instr.transfer, 2), (3, Instr.release, 1), (4, Instr.setPolicy, 2)],
    ∀ (p : Pen) (b : Bytes) (fails : TallyFails) (s : State) (x : PenSt) (r : LcReq), RequestAt s.dev p x row.1 b →
      s.dev.holdsCrook x.ctrl = true → s.dev.lcCheck b = (0, some r) → Does (row.2.1 (.pen p) b true fails) s fun d =>
        EndedWith p.val x 0 0 d ∧ d.fold.ownerCtr = s.dev.fold.ownerCtr + row.2.2 ∧ (d.fold.reqStatus = 0 ∨ d.fold.reqStatus = 0x0B)
        ∧ d.fold.reqType = row.1 ∧ d.fold.nonce = none)
  ∧ (∀ (p : Pen) (b : Bytes) (fails : TallyFails) (s : State) (x : PenSt) (r : LcReq), s.dev.holdsCrook x.ctrl = true →
    s.dev.lcCheck b = (0, some r) →
    (RequestAt s.dev p x 8 b → Does (.installEndorsement (.pen p) b true fails) s fun d => EndedWith p.val x 0 0 d
      ∧ d.fold.endorse = some (s.dev.fold.ownerCtr, r.payload) ∧ d.fold.reqStatus = 0)
    ∧ (RequestAt s.dev p x 6 b → Does (.openDebug (.pen p) b true fails) s fun d => EndedWith p.val x 0 0 d
      ∧ ((d.fold.reqStatus = 0 ∧ d.fold.scope = leAt r.payload 0 4 ∧ d.fold.tapOpen = leAt r.payload 0 4)
         ∨ (d.fold.reqStatus = 0x0A ∧ d.fold.scope = s.dev.fold.scope ∧ d.fold.tapOpen = s.dev.fold.tapOpen)))
    ∧ (RequestAt s.dev p x 7 b → Does (.closeDebug (.pen p) b true fails) s fun d => EndedWith p.val x 0 0 d ∧ d.fold.scope = 0 ∧ d.fold.tapOpen = 0)
    ∧ (RequestAt s.dev p x 5 b → Does (.decommission (.pen p) b true fails) s fun d => EndedWith p.val x 0 0 d
      ∧ ((d.fold.reqStatus = 0 ∧ d.fold.otp.decom = 0xFF ∧ d.fold.ownerA = none ∧ d.fold.ownerB = none ∧ d.fold.endorse = none
            ∧ d.keys.slots = [] ∧ d.evt.seqn = .foldDue false)
         ∨ (d.fold.reqStatus = 0x0A ∧ d.fold.otp = s.dev.fold.otp ∧ d.keys = s.dev.keys))))

/-- A challenge ready in a pen of a physical function with the DRBG giving output draws a nonce that is current from now, sends it first in
its data and completes. A Security Receive of the result, the identity chain, the HSS certificate or the owner endorsement sends the stored
bytes and completes. 300 s after its challenge the nonce is gone. Provisioning of a Blank device burns VP and stores the chain and the
certificate, and of any other changes nothing. A TAP access passes while its scope is open, and else records the locked-JTAG tamper. A TCG
start of an anonymous session while none is open opens it for the controller with status 0, and its end closes it. (R363, R368, R369, R374,
R376, R381, R424) -/
def Obligations.LifecycleReads : Prop :=
  (∀ (p : Pen) (s : State) (x : PenSt), s.dev.pen p.val = some x → s.dev.adminReady p.val 0x82 = true → s.dev.secp p.val = 0xF0 →
    s.dev.isPf x.ctrl = true →
    (s.dev.spsp p.val = 1 → s.dev.drbgOk = true → Does (.lifecycleChallenge (.pen p)) s fun d => EndedWith p.val x 0 0 d
      ∧ d.fold.nonce = some (s.dev.drawn 32, s.dev.now)
      ∧ ∃ rest, Output.hostData x.ctrl x.cid 0 ((s.dev.drawn 32 ++ rest).take (x.dw 11)) ∈ d.outputs)
    ∧ (∀ row ∈ [(3, Instr.lifecycleResult (.pen p), s.dev.fold.lcResult), (4, Instr.eotinIdentityChain p, s.dev.fold.idChain),
          (5, Instr.eotinHssCertificate p, s.dev.fold.hssCert), (6, Instr.ownerEndorsementChain p, s.dev.fold.endorsement)],
        s.dev.spsp p.val = row.1 → Does row.2.1 s fun d => EndedWith p.val x 0 0 d ∧ d.fold = s.dev.fold
          ∧ Output.hostData x.ctrl x.cid 0 (row.2.2.take (x.dw 11)) ∈ d.outputs))
  ∧ (∀ (s : State) (v : Bytes) (t : Nat), s.dev.fold.nonce = some (v, t) → Does .nonceExpiry s fun d =>
    d.fold = { s.dev.fold with nonce := none } ∧ d.now = max s.dev.now (t + 300000000000))
  ∧ (∀ (serial keys helper chain cert : Bytes) (image : List (Nat × Bytes)) (s : State),
    (s.dev.fold.lc = 0 → Does (.provisioning serial keys helper chain cert image) s fun d =>
      d.fold.otp.vp = 0xFF ∧ d.fold.otp.decom = 0 ∧ d.fold.otp.serial = padTo 16 serial ∧ d.fold.idChain = chain ∧ d.fold.hssCert = cert)
    ∧ (s.dev.fold.lc ≠ 0 → Gives (.provisioning serial keys helper chain cert image) s s.dev))
  ∧ (∀ (tap : Fin 4) (b : Bytes) (fails : TallyFails) (s : State),
    (bitOf s.dev.fold.tapOpen tap.val = true → Gives (.tapAccess tap b fails) s { s.dev with outputs := .jtag b :: s.dev.outputs })
    ∧ (bitOf s.dev.fold.tapOpen tap.val = false → Does (.tapAccess tap b fails) s fun d =>
        bitOf d.fold.tamper 7 = true ∧ d.outputs = s.dev.outputs))
  ∧ (∀ (p : Pen) (s : State) (x : PenSt), s.dev.pen p.val = some x → s.dev.adminReady p.val 0x81 = true →
    (s.dev.secp p.val = 1 ∨ s.dev.secp p.val = 2) →
    (∀ (sp : Fin 2) (pin : Bytes), s.dev.tcg.session = none → Does (.tcgMethod p (.startSession sp 0 pin)) s fun d => EndedWith p.val x 0 0 d
      ∧ d.tcg.session = some (x.ctrl, sp.val, []) ∧ d.tcg.replies.get? x.ctrl = some 0)
    ∧ (∀ sp l, s.dev.tcg.session = some (x.ctrl, sp, l) → Does (.tcgMethod p .endSession) s fun d => EndedWith p.val x 0 0 d
      ∧ d.tcg.session = none ∧ d.tcg.replies.get? x.ctrl = some 0)
    ∧ (∀ (n : BitVec 11) (rl wl : Bool) (l : List Nat), s.dev.tcg.session = some (x.ctrl, 1, l) → l ≠ [] → s.dev.tcg.active = true →
        s.dev.nsOk n.toNat = true → Does (.tcgMethod p (.setLock n rl wl)) s fun d => EndedWith p.val x 0 0 d
          ∧ d.tcg.ranges.get? n.toNat = some { s.dev.tcg.ranges.get LockRange.init n.toNat with rl := rl, wl := wl }))

/-- With the key store not busy: a clear of a Loaded slot other than 0 makes it Clearing and busy, of slot 0 changes only CMD's slot, and
zeroize empties every slot and cache. A Clearing slot whose in-use count is 0 becomes Empty and leaves every cache. An engine that asks for
a Loaded media slot it has not cached, the Fold out of reset, gets it and counts a miss; a KEK slot is never served. An unwrap descriptor of
an operation starts it when none runs; its end reports its status, leaves the slots on any status but 0, and loads the descriptor's slot on
status 0. A retired generation that no block holds is released. The Fold DRBG reseeds, stops on a health failure, recovers within 100 ms,
and past it a tamper reset is due; a channel die's DRBG reseeds from it, halts on a failed known-answer test, and starves after 60 s without
a seed. (R382, R383, R384, R386, R387, R388, R413, R414, R418, R420) -/
def Obligations.KeyStoreCommands : Prop :=
  (∀ (slot : Fin 16384) (s : State), s.dev.keys.busy = false →
    (slot.val ≠ 0 → (s.dev.slot slot.val).st = .loaded → Does (.keyClear slot) s fun d => (d.slot slot.val).st = .clearing
      ∧ (d.slot slot.val).inUse = (s.dev.slot slot.val).inUse ∧ d.keys.busy = true ∧ d.keys.cmdSlot = slot.val ∧ d.keys.caches = s.dev.keys.caches)
    ∧ (slot.val = 0 → Gives (.keyClear slot) s { s.dev with keys := { s.dev.keys with cmdSlot := 0 } }))
  ∧ (∀ (s : State), s.dev.keys.busy = false → s.dev.keys.cmdSlot < 16384 → Does .zeroize s fun d => d.keys.slots = [] ∧ d.keys.caches = [])
  ∧ (∀ (slot : Fin 16384) (s : State), (s.dev.slot slot.val).st = .clearing → (s.dev.slot slot.val).inUse = 0 →
    Does (.slotInUseZero slot) s fun d => (d.slot slot.val).st = .empty ∧ (∀ e ∈ d.keys.caches, slot.val ∉ e.2))
  ∧ (∀ (ch : Chan) (eng : Fin 8) (slot : Fin 16384) (s : State), (s.dev.keys.caches.get [] (ch.val * 8 + eng.val)).contains slot.val = false →
    (kekSlot slot.val = true → Gives (.keyBusRequest ch eng slot) s s.dev)
    ∧ (kekSlot slot.val = false → s.dev.fold.inReset = false → (s.dev.slot slot.val).st = .loaded → Does (.keyBusRequest ch eng slot) s fun d =>
        slot.val ∈ d.keys.caches.get [] (ch.val * 8 + eng.val) ∧ d.keys.slots = s.dev.keys.slots
        ∧ d.aes.misses.get 0 ch.val = min 0xFFFF (s.dev.aes.misses.get 0 ch.val + 1)))
  ∧ (∀ row ∈ [(1, fun o => Instr.unwrapGenerate o), (2, fun o => Instr.unwrapLoad o), (3, fun o => Instr.unwrapInject o),
        (4, fun o => Instr.unwrapLoadKek o)], ∀ (off : BitVec 24) (s : State), s.dev.keys.uop = none → (s.dev.unwrapDesc off.toNat).op = row.1 →
    Does (row.2 off) s fun d => d.keys.uaddr = off.toNat ∧ d.keys.slots = s.dev.keys.slots
      ∧ ∃ o, d.keys.uop = some o ∧ o.op = row.1 ∧ o.slot = (s.dev.unwrapDesc off.toNat).slot)
  ∧ (∀ (s : State) (o : UnwrapOp), s.dev.keys.uop = some o → Does .unwrapComplete s fun d => d.keys.uop = none ∧ d.keys.done = true
    ∧ (o.bad = true → d.keys.ustatus = 7) ∧ (d.keys.ustatus ≠ 0 → d.keys.slots = s.dev.keys.slots ∧ d.mem = s.dev.mem)
    ∧ (d.keys.ustatus = 0 → (d.slot o.slot).st = .loaded ∧ (d.slot o.slot).inUse = 0))
  ∧ (∀ (n : BitVec 11) (j : Fin 4) (s : State) (g : KeyGen), (s.dev.keyBind n.toNat).gens.get? j.val = some g → g.gstate = 2 →
    s.dev.genBlocks n.toNat j.val = 0 → s.dev.keys.busy = false → Does (.generationRelease n j) s fun d =>
      (d.keyBind n.toNat).gens.get? j.val = none ∧ (g.slot ≠ 0 → (s.dev.slot g.slot).st = .loaded → (d.slot g.slot).st = .clearing))
  ∧ (∀ (s : State), s.dev.fold.failedAt = none → Does .drbgReseed s fun d => d.fold.healthy = true ∧ d.fold.reseedAt = s.dev.now
    ∧ d.fold.reseeds = min 0xFFFF (s.dev.fold.reseeds + 1))
  ∧ (∀ (rct : Bool) (s : State), Does (.healthTestFail rct) s fun d => d.fold.healthy = false ∧ d.fold.failedAt ≠ none
    ∧ (rct = true → d.fold.rctFail = true) ∧ (rct = false → d.fold.aptFail = true))
  ∧ (∀ (s : State) (t : Nat), s.dev.fold.failedAt = some t →
    (s.dev.now ≤ t + 100000000 → Does .healthTestRecovery s fun d => d.fold.failedAt = none ∧ d.fold.healthy = true)
    ∧ Does .entropyRecoveryTimeout s fun d => bitOf d.fold.tamper 5 = true ∧ d.evt.seqn = .foldDue true)
  ∧ (∀ (k : Fin 4) (ok : Bool) (s : State), (s.dev.aesDie k.val).halted = false →
    ((s.dev.aesDie k.val).rngOk = true ∨ ok = true → s.dev.fold.inReset = false → s.dev.drbgOk = true → Does (.dieDrbgReseed k ok) s fun d =>
      (d.aesDie k.val).rngOk = true ∧ (d.aesDie k.val).starved = false ∧ (d.aesDie k.val).reseedAt = s.dev.now)
    ∧ ((s.dev.aesDie k.val).rngOk = false → ok = false → Does (.dieDrbgReseed k ok) s fun d => (d.aesDie k.val).halted = true))
  ∧ (∀ (k : Fin 4) (s : State), (s.dev.aesDie k.val).rngOk = true → (s.dev.aesDie k.val).late = true → Does (.dieDrbgStarved k) s fun d =>
    (d.aesDie k.val).starved = true)

/-- A core owns a digest slot in a state. -/
def Sys2Proof.Safety.OwnsDigest (d : Dev) (c : CoreId) (i : Fin 64) (st : DigState) : Prop := (d.dslot i.val).st = st ∧ (d.dslot i.val).owner = coreIdOf c.val
/-- An allocation gives the lowest Free slot to the reading core, Held, or reads BUSY. For the owner of a slot: START with valid controls
opens a Held slot with an empty message; a data word is appended to an Open slot's message; the last word with at most 8 bytes ends it, with
more it is an error; a finishing slot becomes Done with the digest of its message; a result word is read from a Done slot and a read too
early is an error; a compare of a Done slot says whether the expected bytes are the result; release frees it. Another core's write changes
no slot. A public-key descriptor starts on its idle engine; when the engine ends, the result register says how, and a malformed descriptor
gives 0x03. (R426, R427, R428, R429, R430, R431) -/
def Obligations.DigestEngines : Prop :=
  (∀ (c : CoreId) (s : State),
    (∀ i, s.dev.dig.firstIdx DigSlot.init (fun x => x.st == .free) 64 = some i → Does (.digAlloc c) s fun d =>
      (d.dslot i).st = .held ∧ (d.dslot i).owner = coreIdOf c.val ∧ Output.regRead c.val 0x20040000 i ∈ d.outputs)
    ∧ (s.dev.dig.firstIdx DigSlot.init (fun x => x.st == .free) 64 = none → Does (.digAlloc c) s fun d =>
        d.dig = s.dev.dig ∧ Output.regRead c.val 0x20040000 (2 ^ 31) ∈ d.outputs))
  ∧ (∀ (c : CoreId) (i : Fin 64) (ctl : BitVec 20) (s : State) (y : DigSlot), OwnsDigest s.dev c i .held →
    y = { s.dev.dslot i.val with alg := bitsOf ctl.toNat 3 0, hmac := bitOf ctl.toNat 4, keyLen := bitsOf ctl.toNat 12 5, outLen := bitsOf ctl.toNat 19 13 } →
    (y.ctlOk = true → Does (.digStart c i ctl) s fun d => (d.dslot i.val).st = .opened ∧ (d.dslot i.val).msg = [] ∧ (d.dslot i.val).alg = y.alg
      ∧ (d.dslot i.val).owner = y.owner)
    ∧ (y.ctlOk = false → Does (.digStart c i ctl) s fun d => (d.dslot i.val).st = .error ∧ (d.dslot i.val).errCtl = true))
  ∧ (∀ (c : CoreId) (i : Fin 64) (lo hi : W32) (s : State), OwnsDigest s.dev c i .opened → Does (.digDataPush c i lo hi) s fun d =>
    (d.dslot i.val).msg = (s.dev.dslot i.val).msg ++ leBytes 4 lo.toNat ++ leBytes 4 hi.toNat ∧ (d.dslot i.val).st = .opened
    ∧ (d.dslot i.val).words = (s.dev.dslot i.val).words + 1)
  ∧ (∀ (c : CoreId) (i : Fin 64) (n : BitVec 4) (lo hi : W32) (s : State), OwnsDigest s.dev c i .opened →
    (n.toNat ≤ 8 → Does (.digLast c i n lo hi) s fun d => (d.dslot i.val).st = .finishing
      ∧ (d.dslot i.val).msg = (s.dev.dslot i.val).msg ++ (leBytes 4 lo.toNat ++ leBytes 4 hi.toNat).take n.toNat)
    ∧ (8 < n.toNat → Does (.digLast c i n lo hi) s fun d => (d.dslot i.val).st = .error ∧ (d.dslot i.val).errCount = true))
  ∧ (∀ (i : Fin 64) (s : State), (s.dev.dslot i.val).st = .finishing → Does (.digFinish i) s fun d =>
    (d.dslot i.val).st = .done ∧ (d.dslot i.val).result = (s.dev.dslot i.val).compute)
  ∧ (∀ (c : CoreId) (i : Fin 64) (n : Fin 16) (s : State),
    ((s.dev.dslot i.val).st = .done → Does (.digResultRead c i n) s fun d => d.dslot i.val = s.dev.dslot i.val
      ∧ Output.regRead c.val (0x20040000 + digOff i.val (0x40 + 4 * n.val)) (leAt (s.dev.dslot i.val).result (4 * n.val) 4) ∈ d.outputs)
    ∧ ((s.dev.dslot i.val).st = .opened → Does (.digResultRead c i n) s fun d => (d.dslot i.val).st = .error ∧ (d.dslot i.val).errEarly = true))
  ∧ (∀ (c : CoreId) (i : Fin 64) (fails : TallyFails) (s : State) (eq : Bool), OwnsDigest s.dev c i .done →
    eq = ((s.dev.dslot i.val).expected.take (digLen (s.dev.dslot i.val).alg (s.dev.dslot i.val).outLen) == (s.dev.dslot i.val).result) →
    Does (.digCompare c i fails) s fun d => (d.dslot i.val).matched = eq ∧ (d.dslot i.val).matchN = !eq ∧ (eq = false → bitOf d.fold.tamper 4 = true))
  ∧ (∀ (c : CoreId) (i : Fin 64) (st : DigState) (s : State), OwnsDigest s.dev c i st → st ≠ .free →
    Does (.digRelease c i) s fun d => (d.dslot i.val).st = .free)
  ∧ (∀ (c : CoreId) (i : Fin 64) (lo hi : W32) (s : State), (s.dev.dslot i.val).owner ≠ coreIdOf c.val → Does (.digDataPush c i lo hi) s fun d =>
    d.dig = s.dev.dig)
  ∧ (∀ row ∈ [(1, true, fun o => Instr.ecdsaVerify o), (2, true, fun o => Instr.ecdsaSign o), (6, true, fun o => Instr.ecdsaPublicKey o),
        (3, false, fun o => Instr.hssVerify o), (4, false, fun o => Instr.lmotsSign o), (5, false, fun o => Instr.lmsLeaf o)],
    ∀ (off : BitVec 24) (s : State), (s.dev.pkaDesc off.toNat).op = row.1 → off.toNat % 64 = 0 → off.toNat + 64 ≤ 0x80000 →
      (if row.2.1 then s.dev.pka.ec else s.dev.pka.hbs) = none → Does (row.2.2 off) s fun d => d.pka.desc = off.toNat
        ∧ (if row.2.1 then d.pka.ec else d.pka.hbs) = some (s.dev.pkaDesc off.toNat) ∧ d.mem = s.dev.mem)
  ∧ (∀ (ec : Bool) (s : State) (o : PkaOp), (if ec then s.dev.pka.ec else s.dev.pka.hbs) = some o → Does (.pkaComplete ec) s fun d =>
    (if ec then d.pka.ec else d.pka.hbs) = none ∧ d.pka.done = true ∧ d.pka.op = o.op ∧ d.pka.result = (s.dev.pkaRun o).2
    ∧ (o.bad = true → d.pka.result = 3 ∧ d.mem = s.dev.mem))

/-- A runtime entry appended by a Fold that can append, with a leaf left and no failed read-back, takes the next ring slot: the head is
there, RSEQ rises by one and the next slot follows modulo 4,096; where the Fold cannot append, APPFAIL counts one and RSEQ stands. A bottom
tree that is due is built. BOOT_SEQUENCE of a Decommissioned or Blank device, at stage 1 with the clocks running, nothing else in progress
and sound state fields, ends valid at stage 2 with no core started. CORE_RELEASE at stage 7 of a boot that has not halted, with DRAM filled
and the die links trained, goes to stage 8 and starts every Shepherd and Drover core that has a slot. CONTROLLER_READY from stage 8, with
the rebuild ended, sets RDY of every enabled controller and stage 10. (R112, R133, R390, R396, R397, R398, R407, R516) -/
def Obligations.TallyAndBoot : Prop :=
  (∀ (e : Entry) (s : State) (leaf : Nat) (l : LmsSt),
    (s.dev.canAppend = true → s.dev.fold.lms.take = some (leaf, l) → Does (.tallyAppend e 0) s fun d =>
      d.fold.tally.head = s.dev.fold.tally.nextSlot ∧ d.fold.tally.rseq = s.dev.fold.tally.rseq + 1
      ∧ d.fold.tally.nextSlot = (s.dev.fold.tally.nextSlot + 1) % 4096 ∧ d.fold.lms = l
      ∧ ∃ r, d.fold.tally.recs.get? s.dev.fold.tally.nextSlot = some r ∧ r.rseq = s.dev.fold.tally.rseq + 1 ∧ r.rkind = 2 ∧ r.good = true)
    ∧ (s.dev.canAppend = false → ∀ fails, Does (.tallyAppend e fails) s fun d => d.fold.tally.rseq = s.dev.fold.tally.rseq
        ∧ d.fold.tally.appFail = min 0xFF (s.dev.fold.tally.appFail + 1) ∧ d.fold.tally.recs = s.dev.fold.tally.recs))
  ∧ (∀ (s : State), s.dev.fold.lms.builtTo = s.dev.fold.lms.cur / 32768 → 16384 ≤ s.dev.fold.lms.cur % 32768 → Does .bottomTreeBuild s fun d =>
    d.fold.lms = { s.dev.fold.lms with builtTo := s.dev.fold.lms.builtTo + 1 } ∧ d.mem = s.dev.mem)
  ∧ (∀ (fails : TallyFails) (s : State), s.dev.fold.stage = 1 → s.dev.fold.halted = false → s.dev.clk.started = true → s.dev.pwr.pf = .idle →
    s.dev.evt.seqn = .none → fieldWeak s.dev.fold.otp.vp = false → fieldWeak s.dev.fold.otp.decom = false →
    (s.dev.fold.lc = 0 ∨ s.dev.fold.lc = 3) → Does (.bootSequence fails) s fun d =>
      d.fold.lcValid = true ∧ d.fold.stage = 2 ∧ d.fold.inReset = false ∧ d.cores = s.dev.cores ∧ d.fold.tally = s.dev.fold.tally)
  ∧ (∀ (s : State), s.dev.fold.stage = 7 → s.dev.fold.halted = false → s.dev.integ.dram = true → s.dev.modulesTrained = true →
    s.dev.pwr.pf = .idle → s.dev.evt.seqn = .none → Does .coreRelease s fun d => d.fold.stage = 8
      ∧ (∀ u, u < 8 → s.dev.runSlot 2 u ≠ none → (d.core (1 + u)).run = .running ∧ (d.core (1 + u)).inTrap = false)
      ∧ (∀ u, u < 32 → s.dev.runSlot 3 u ≠ none → (d.core (9 + u)).run = .running ∧ (d.core (9 + u)).inTrap = false)
      ∧ d.core 0 = s.dev.core 0)
  ∧ (∀ (fails : TallyFails) (s : State), 8 ≤ s.dev.fold.stage → s.dev.mapc.rbPhase = 0 → s.dev.evt.fatal = false → s.dev.pwr.pf = .idle →
    (∃ e ∈ s.dev.nvme.ctrls, e.2.en = true ∧ e.2.rdy = false) → Does (.controllerReady fails) s fun d => d.fold.stage = 10 ∧ d.fold.readyDone = true
      ∧ ∀ e ∈ s.dev.nvme.ctrls, e.2.en = true → s.dev.nvme.ctrls.wf = true → (d.ctrl e.1).rdy = true ∧ (d.ctrl e.1).en = true)

/-- A download ready in a pen in whole granules within 8 MiB, first or by its owner, puts its bytes at their offset and completes. A commit
of either replace action with a slot beyond 2 ends with Invalid Firmware Slot; one of a well-shaped package of the buffer's owner, every
module passing, every target free, its slot writes done and, to activate, the Crook held, completes with Success. Activation at the next
reset by the holder of the Crook, of a slot with a passing component, completes. Live activation of it, once the rebuild has ended, takes
the cores that do not run the slot, the pen waiting; with none it completes. A step of a Shepherd core that runs no module appends its entry
and starts the core, or, the append failing, ends the command with Internal Error. (R396, R449, R450, R451, R452) -/
def Obligations.FirmwareUpdate : Prop :=
  (∀ (p : Pen) (data : Bytes) (s : State) (x : PenSt) (n off : Nat), s.dev.pen p.val = some x → s.dev.adminReady p.val 0x11 = true →
    n = (x.dw 10 + 1) * 4 → off = x.dw 11 * 4 → n % 4096 = 0 → off % 4096 = 0 → off + n ≤ 0x800000 →
    (off = 0 ∨ s.dev.ilu.dlOwner = some x.ctrl) → memWf s.dev.mem = true → Does (.firmwareImageDownload p data) s fun d =>
      EndedWith p.val x 0 0 d ∧ d.ilu.dlOwner = some x.ctrl ∧ d.bytes (s.dev.dlBase + off) n = padTo n data
      ∧ (∀ a, a < s.dev.dlBase + off ∨ s.dev.dlBase + off + n ≤ a → d.byte a = s.dev.byte a))
  ∧ (∀ row ∈ [(0, false, fun p h f => Instr.firmwareCommitReplace p h f), (1, true, fun p h f => Instr.firmwareCommitReplaceActivate p h f)],
    ∀ (p : Pen) (how : StoreEnd) (fails : TallyFails) (s : State) (x : PenSt), s.dev.pen p.val = some x → s.dev.fwReady p.val row.1 = true →
      (2 < x.dw 10 % 8 → Does (row.2.2 p how fails) s (EndedWith p.val x 0x106 0))
      ∧ (∀ ms ts r, x.dw 10 % 8 ≤ 2 → (row.2.1 = true → s.dev.holdsCrook x.ctrl = true) → s.dev.ilu.dlOwner = some x.ctrl →
          packageOf 12 (s.dev.bytes s.dev.dlBase s.dev.ilu.dlLen) = some ms → packageShape ms = true → s.dev.packageFail ms = none →
          s.dev.targets (x.dw 10 % 8) ms = some ts → (∀ t ∈ ts, t.1 ≠ 4 ∨ t.2.1 ≠ 8) →
          r = ts.foldl (fun (acc : Dev × Bool) t => if acc.2 then acc.1.writeSlot t.1 t.2.1 t.2.2 (x.ctrl + 1) .done fails else acc) (s.dev, true) →
          (r.2 = true → Does (row.2.2 p .done fails) s fun d => EndedWith p.val x 0 0 d ∧ d.fold.tally.rseq = r.1.fold.tally.rseq)
          ∧ (r.2 = false → Does (row.2.2 p .done fails) s (EndedWith p.val x 0x006 0))))
  ∧ (∀ (p : Pen) (s : State) (x : PenSt), s.dev.pen p.val = some x → s.dev.fwReady p.val 2 = true →
    (∀ st dw, s.dev.fwActRefused p.val = some (st, dw) → Does (.firmwareCommitActivateReset p) s (EndedWith p.val x st dw))
    ∧ (s.dev.fwActRefused p.val = none → Does (.firmwareCommitActivateReset p) s fun d => EndedWith p.val x 0 0 d ∧ d.fold = s.dev.fold))
  ∧ (∀ (p : Pen) (s : State) (x : PenSt) (slot : Nat) (cs : List Nat), s.dev.pen p.val = some x → s.dev.fwReady p.val 3 = true → 9 ≤ s.dev.fold.stage →
    s.dev.mapc.rbPhase = 0 → s.dev.fwActRefused p.val = none → slot = x.dw 10 % 8 - 1 →
    cs = (s.dev.passingKinds slot).flatMap (fun k => ((kindUnits k).filter (fun u => s.dev.fold.slotNow k u != some slot)).map (unitCore k)) →
    (cs = [] → Does (.firmwareCommitActivateLive p) s (EndedWith p.val x 0 0))
    ∧ (cs ≠ [] → Does (.firmwareCommitActivateLive p) s fun d => d.ilu.act = some { pen := p.val, slot := slot, cores := cs, step := 0 }
        ∧ d.pen p.val = some { x with stage := .external }))
  ∧ (∀ (fails : TallyFails) (s : State) (a : ActSt) (c : Nat) (t : List Nat) (x : PenSt) (r : Dev × Bool), s.dev.pwr.pf = .idle → s.dev.ilu.act = some a →
    a.cores = c :: t → 1 ≤ c → c ≤ 8 → (s.dev.core c).modRun = none → s.dev.pen a.pen = some x → x.stage = .external →
    r = (s.dev.abandonTxns (fun y => y.core == c)).appendEntry
      ((s.dev.abandonTxns (fun y => y.core == c)).actEntry a 2 (c - 1) 0 []) fails →
    (r.2 = true → Does (.coreActivation fails) s fun d => (d.core c).run = .running ∧ (d.core c).inTrap = false
      ∧ (t ≠ [] → d.ilu.act = some { a with cores := t, step := 0 }) ∧ (t = [] → d.ilu.act = none ∧ EndedWith a.pen x 0 0 d))
    ∧ (r.2 = false → Does (.coreActivation fails) s fun d => EndedWith a.pen x 0x006 0 d ∧ d.ilu.act = none ∧ d.core c = s.dev.core c))

/-- Nothing holds, runs or waits in the store controller. -/
def Sys2Proof.Safety.StoreFree (d : Dev) : Prop :=
  d.ilu.prog = none ∧ d.ilu.rstHold = false ∧ d.ilu.pfHold = false ∧ (∀ q, (d.ilu.port q).wait = none)
/-- A port is unlocked by a core and takes a command: its checks pass, and its sector neither refuses it nor awaits a re-erase. -/
def Sys2Proof.Safety.StoreTakes (d : Dev) (p : Fin 3) (c : Fin 41) (m : IluCmd) : Prop :=
  d.iluTakes p.val c.val = true ∧ (d.ilu.port p.val).seq = .unlocked ∧ d.iluRefuse p.val m = 0 ∧ d.ilu.sectRefuse m = 0 ∧ d.ilu.awaitsReerase m = false
/-- A key write the port takes unlocks it in its two steps and any other breaks the sequence, status 0x05 and counted. With a port unlocked
by the core, a command that passes its checks, nothing waiting, holding or running, and its sector neither refused nor due a re-erase: a
program or flag program becomes the running program and an erase the running erase. With no hold, the port's own running erase takes a
suspend request; a suspended one, with its resume, runs again. The end of a program frees the array; the good end of an erase, nothing
waiting, leaves its sector erased. An explicit suspend that is due suspends the erase. A wear move that is due with the array free moves the
gap by one position, and a queued re-erase that ends well leaves its sector erased. (R434, R435, R437, R438, R440, R441, R443, R444) -/
def Obligations.StoreController : Prop :=
  (∀ (p : Fin 3) (c : Fin 41) (v : W32) (s : State), s.dev.iluTakes p.val c.val = true →
    ((s.dev.ilu.port p.val).seq = .idle → v = 0xAA55 → Does (.iluKeyWrite p c v) s fun d =>
      d.ilu.port p.val = { s.dev.ilu.port p.val with seq := .key1, owner := c.val })
    ∧ ((s.dev.ilu.port p.val).seq = .key1 → v = 0x55AA → Does (.iluKeyWrite p c v) s fun d =>
        d.ilu.port p.val = { s.dev.ilu.port p.val with seq := .unlocked })
    ∧ ((s.dev.ilu.port p.val).seq ≠ .key1 → v ≠ 0xAA55 → Does (.iluKeyWrite p c v) s fun d => (d.ilu.port p.val).seq = .idle
        ∧ (d.ilu.port p.val).status = 5 ∧ (d.ilu.port p.val).seqErr = min 0xFF ((s.dev.ilu.port p.val).seqErr + 1)))
  ∧ (∀ (p : Fin 3) (c : Fin 41) (units : BitVec 8) (addr : BitVec 27) (data : W32) (s : State) (m : IluCmd), StoreFree s.dev → s.dev.ilu.erase = none →
    (m = { code := 1, units := units.toNat, addr := addr.toNat, data := data.toNat } → StoreTakes s.dev p c m → Does (.iluProgram p c units addr data) s
      fun d => d.ilu.prog = some { port := p.val, cmd := m, done := 0 } ∧ d.ilu.nor = s.dev.ilu.nor ∧ d.mem = s.dev.mem)
    ∧ (m = { code := 5, units := 0, addr := addr.toNat, data := data.toNat } → StoreTakes s.dev p c m → Does (.iluFlagProgram p c addr data) s
      fun d => d.ilu.prog = some { port := p.val, cmd := m, done := 0 } ∧ d.ilu.nor = s.dev.ilu.nor ∧ d.mem = s.dev.mem)
    ∧ (m = { code := 2, units := 0, addr := addr.toNat, data := data.toNat } → StoreTakes s.dev p c m → Does (.iluErase p c addr data) s
      fun d => d.ilu.prog = none ∧ d.ilu.nor = s.dev.ilu.nor ∧ d.ilu.erase = some
        { port := p.val, sector := s.dev.ilu.phys (addr.toNat / 65536), since := s.dev.run, suspended := false, explicit := false }))
  ∧ (∀ (p : Fin 3) (c : Fin 41) (addr : BitVec 27) (s : State) (e : IluErase), s.dev.iluTakes p.val c.val = true →
    (s.dev.ilu.port p.val).seq = .unlocked → s.dev.ilu.erase = some e → e.port = p.val →
    (e.suspended = false → s.dev.ilu.rstHold = false → s.dev.ilu.pfHold = false → Does (.iluSuspend p c addr 0xB0) s
      fun d => d.ilu.erase = some { e with explicit := true } ∧ d.ilu.suspPending = true
      ∧ d.ilu.prog = s.dev.ilu.prog)
    ∧ (e.suspended = true → StoreFree s.dev → Does (.iluResume p c addr 0x30) s fun d =>
        d.ilu.erase = some { e with explicit := false, suspended := false, since := s.dev.run } ∧ (d.ilu.port p.val).status = 0))
  ∧ (∀ (ok : Bool) (s : State) (r : IluProg), s.dev.ilu.prog = some r → r.port < 3 → (∀ q, (s.dev.ilu.port q).wait = none) →
    Does (.iluCommandComplete ok) s fun d => d.ilu.prog = none ∧ (d.ilu.port r.port).status = 0)
  ∧ (∀ (s : State) (e : IluErase), s.dev.ilu.erase = some e → e.suspended = false → e.port < 3 → StoreFree s.dev →
    Does (.iluCommandComplete true) s fun d => d.ilu.erase = none ∧ (d.ilu.port e.port).status = 0 ∧ (d.ilu.sect e.sector).st = 0
      ∧ (∀ u, u < 128 → d.ilu.nor.get? (e.sector * 128 + u) = none))
  ∧ (∀ (s : State) (e : IluErase), s.dev.ilu.erase = some e → e.suspended = false → e.explicit = true → s.dev.ilu.suspPending = true →
    Does .iluAutoSuspend s fun d => d.ilu.erase = some { e with suspended := true })
  ∧ (∀ (s : State), s.dev.ilu.moveDue = true → s.dev.ilu.erase = none → StoreFree s.dev → Does .wearWindowMove s fun d =>
    d.ilu.gap = (if 0 < s.dev.ilu.gap then s.dev.ilu.gap - 1 else 1175)
    ∧ d.ilu.start = (if 0 < s.dev.ilu.gap then s.dev.ilu.start else (s.dev.ilu.start + 1) % 1175) ∧ d.ilu.moveDue = false ∧ d.ilu.sinceMove = 0)
  ∧ (∀ (s : State) (q : Nat) (t : List Nat), s.dev.ilu.reerase = q :: t → s.dev.ilu.erase = none → StoreFree s.dev → Does (.sectorReerase true) s fun d =>
    d.ilu.reerase = t ∧ (d.ilu.sect q).st = 0 ∧ ∀ u, u < 128 → d.ilu.nor.get? (q * 128 + u) = none)

/-- The history ring of 64 takes a record: the oldest is overwritten when the ring is full, and LOST counts one. -/
def Sys2Proof.Safety.RingTook (b a : SrcSt) (r : EvRec) : Prop :=
  (b.hist.length < 64 → a.hist = b.hist ++ [r] ∧ a.lost = b.lost) ∧ (64 ≤ b.hist.length → a.hist = b.hist.drop 1 ++ [r] ∧ a.lost = b.lost + 1)
/-- A posted class 0 or 1 record takes the source's next SEQ and goes straight to its history ring, of 64 records, where a full ring loses
its oldest and LOST counts one; the FIFO is unchanged. A posted class 2 or 3 record with fewer than 8 in the FIFO enters the FIFO's end, and
the ring is unchanged. DONE from the handling core, while HANDLING, moves the FIFO's head to the history ring by the same rule, clears
HANDLING and leaves every other source. (R509) -/
def Obligations.EventRecords : Prop :=
  (∀ (d : Dev) (src obj arg cond cls : Nat),
    (cls < 2 → ∃ r, r.seq = (d.src src).next ∧ r.cls = cls ∧ r.cond = cond ∧ r.obj = obj ∧ r.arg = arg
      ∧ RingTook (d.src src) ((d.post src obj arg cond cls).src src) r
      ∧ ((d.post src obj arg cond cls).src src).fifo = (d.src src).fifo ∧ ((d.post src obj arg cond cls).src src).next = (d.src src).next + 1)
    ∧ (2 ≤ cls → cls ≤ 3 → (d.src src).fifo.length < 8 → src ≠ 0 → ∃ r, r.seq = (d.src src).next ∧ r.cls = cls ∧ r.cond = cond ∧ r.obj = obj
      ∧ r.arg = arg ∧ ((d.post src obj arg cond cls).src src).fifo = (d.src src).fifo ++ [r]
      ∧ ((d.post src obj arg cond cls).src src).hist = (d.src src).hist ∧ ((d.post src obj arg cond cls).src src).next = (d.src src).next + 1))
  ∧ (∀ (core : CoreId) (src : BitVec 9) (s : State) (r : EvRec) (t : List EvRec), handlerOf src.toNat = some core.val →
    (s.dev.src src.toNat).fifo = r :: t → (s.dev.src src.toNat).handling = true → Does (.done core src) s fun d =>
      (d.src src.toNat).fifo = t ∧ (d.src src.toNat).handling = false ∧ RingTook (s.dev.src src.toNat) (d.src src.toNat) r
      ∧ (∀ q, q ≠ src.toNat → d.src q = s.dev.src q) ∧ d.cores = s.dev.cores ∧ d.mem = s.dev.mem)

/-- TAKE by the handling core copies the FIFO's head to HEAD and sets HANDLING; from another core, on an empty FIFO or while HANDLING it
does nothing. A record of class 2 or 3 posted to a full FIFO is dropped: SEQ is consumed, OVERFLOW counts one and the FIFO stands; of class
3, but for the Fold's double trap, it enters device fatal with cause 0x1 while HANDLING and 0x6 otherwise. DECLARE by a core that handles a
source enters device fatal with cause 0x4 (that SOURCE then reads 0 is the model's choice, log 21), and from any other core does nothing. A
class 3 record that waits 1,000 ms untaken enters it with cause 0x3. In device fatal the front end posts and fetches nothing and the drove
engine stops. (R510, R511, R512, R513, R514) -/
def Obligations.EventHandling : Prop :=
  (∀ (core : CoreId) (src : BitVec 9) (s : State),
    (∀ r t, handlerOf src.toNat = some core.val → (s.dev.src src.toNat).fifo = r :: t → (s.dev.src src.toNat).handling = false →
      Gives (.take core src) s (s.dev.setSrc src.toNat { s.dev.src src.toNat with head := some r, handling := true }))
    ∧ ((handlerOf src.toNat ≠ some core.val ∨ (s.dev.src src.toNat).fifo = [] ∨ (s.dev.src src.toNat).handling = true) →
      Gives (.take core src) s s.dev))
  ∧ (∀ (d : Dev) (src obj arg cond cls : Nat), 2 ≤ cls → cls ≤ 3 → src ≠ 0 → 8 ≤ (d.src src).fifo.length →
    ((d.post src obj arg cond cls).src src).fifo = (d.src src).fifo
    ∧ ((d.post src obj arg cond cls).src src).next = (d.src src).next + 1
    ∧ ((d.post src obj arg cond cls).src src).overflow = min ((d.src src).overflow + 1) 0xFFFF
    ∧ (cls = 3 → ¬ (src = 1 ∧ cond = 8) → d.evt.fatal = false → (d.post src obj arg cond cls).evt.fatal = true
      ∧ (d.post src obj arg cond cls).evt.fatalCause = (if (d.src src).handling then 1 else 6)
      ∧ (d.post src obj arg cond cls).evt.fatalSource = src))
  ∧ (∀ (core : CoreId) (s : State),
    ((∃ q ∈ sources, handlerOf q = some core.val) → s.dev.evt.fatal = false → Does (.declare core) s fun d => d.evt.fatal = true ∧ d.evt.fatalCause = 4
      ∧ d.nvme.fetchStopped = true ∧ d.drove.stopped = true ∧ d.postingStopped = true ∧ d.mem = s.dev.mem ∧ d.cores = s.dev.cores)
    ∧ ((∀ q ∈ sources, handlerOf q ≠ some core.val) → Gives (.declare core) s s.dev))
  ∧ (∀ (src : BitVec 9) (s : State) (r : EvRec) (t : List EvRec), (s.dev.src src.toNat).fifo = r :: t → (s.dev.src src.toNat).handling = false →
    s.dev.evt.fatal = false →
    (r.cls = 3 → Does (.class3NotTaken src) s fun d => d.evt.fatal = true ∧ d.evt.fatalCause = 3 ∧ d.evt.fatalSource = src.toNat
      ∧ d.nvme.fetchStopped = true ∧ d.postingStopped = true ∧ (s.dev.clk.hold = false → r.postedAt + 1000000000 ≤ d.run))
    ∧ ((∀ x ∈ r :: t, x.cls ≠ 3) → Gives (.class3NotTaken src) s s.dev))

/-- A device-level reset of a kind took the device from b to a, with a boot reason. -/
def Sys2Proof.Safety.ResetTo (b a : Dev) (k : ResetKind) (reason : Nat) : Prop :=
  a.nvme.pens = [] ∧ a.nvme.ctrls = [] ∧ a.crook.holder = none ∧ a.evt.fatal = false ∧ a.evt.seqn = .none ∧ a.fold.bootReason = reason
  ∧ a.fold.stage = (if k = .powerOn then 0 else 1) ∧ a.mem = (if k = .warm then b.mem.filter (fun e => warmAddr e.1) else [])
  ∧ a.cfg = b.cfg.kept ∧ (∀ c, c < 41 → (a.core c).run = .inReset) ∧ a.pwr.pads = [] ∧ a.pwr.pf = .idle
  ∧ a.drove.fixed = (if k = .warm then b.drove.fixed else none)
/-- A write of 0xC011 pets an armed Collie and any other value does nothing. At three quarters of its period e12 of the Fold is asserted.
Its expiry stops fetching and placement, fixes the journal and holds reset for the store; the store's boundary, or 400 ms, makes the warm
reset due, and 400 ms cuts the store's operation. A write of the NVMe reset value to NSSR, no sequence running, makes a warm reset due with
reason 4; a Fold double trap makes a Fold-initiated reset due. WARM_RESET, FOLD_INITIATED_RESET, POWER_ON_RESET and the rise of PWROK leave
the device reset: no pen, controller or Crook holder, no fatal, every core in reset, memory emptied but what a warm reset keeps, the
persistent configuration kept, and the boot reason set (what else each part keeps is log 34). (R443, R511, R516, R517, R518, R519, R520,
R529) -/
def Obligations.CollieAndResets : Prop :=
  (∀ (v : BitVec 16) (s : State), s.dev.evt.collieArmed = true →
    (v = 0xC011 → Gives (.pet v) s { s.dev with evt := { s.dev.evt with colliePet := s.dev.run, collieNs := s.dev.colliePeriod, colliePre := false } })
    ∧ (v ≠ 0xC011 → Gives (.pet v) s s.dev))
  ∧ (∀ (s : State), s.dev.collieStill = false → Does .colliePreExpiry s fun d => d.evt.colliePre = true
      ∧ s.dev.evt.colliePet + s.dev.colliePeriod * 3 / 4 ≤ d.run ∧ d.mem = s.dev.mem)
  ∧ (∀ (s : State), s.dev.collieStill = false → s.dev.evt.seqn = .none → s.dev.pwr.pf = .idle → Does .collieExpiry s fun d =>
      d.evt.seqn = .collieHold (d.now + 400000000) d.now ∧ d.nvme.fetchStopped = true ∧ d.drove.stopped = true ∧ d.drove.fixed.isSome = true
      ∧ d.ilu.rstHold = true ∧ s.dev.evt.colliePet + s.dev.evt.collieNs ≤ d.run ∧ d.mem = s.dev.mem)
  ∧ (∀ (s : State) (t since : Nat), s.dev.evt.seqn = .collieHold t since →
    (s.dev.ilu.prog = none → (∀ e, s.dev.ilu.erase = some e → e.suspended = true) → Does .iluBoundaryReport s fun d =>
      d.evt.seqn = .warmDue 2 ∧ d.ilu = s.dev.ilu ∧ d.mem = s.dev.mem)
    ∧ (s.dev.ilu.prog ≠ none → Gives .iluBoundaryReport s s.dev)
    ∧ Does .resetHoldTimeout s fun d => d.evt.seqn = .warmDue 2 ∧ d.ilu.prog = none ∧ d.ilu.erase = none ∧ t ≤ d.now ∧ d.mem = s.dev.mem)
  ∧ (∀ (s : State) (r : Nat), s.dev.evt.seqn = .warmDue r → Does .warmReset s fun d => ResetTo s.dev d .warm r ∧ d.evt.rstLast = r
      ∧ d.evt.rstInplace = true ∧ d.now = s.dev.now + 1000)
  ∧ (∀ (v : W32) (s : State),
    (v = 0x4E564D65 → s.dev.evt.seqn = .none → s.dev.pwr.pf = .idle → s.dev.pwr.standby = false → s.dev.fold.stage ≠ 0 →
      Does (.nvmSubsystemReset v) s fun d => d.evt.seqn = .warmDue 4 ∧ d.nvme.fetchStopped = true ∧ d.mem = s.dev.mem
        ∧ (s.dev.journalHeld = true → d.drove.stopped = true ∧ d.drove.fixed.isSome = true))
    ∧ (v ≠ 0x4E564D65 → Gives (.nvmSubsystemReset v) s s.dev))
  ∧ (∀ (failA failB tamper : Bool) (s : State), s.dev.evt.seqn = .foldDue tamper → s.dev.pwr.pf = .idle → s.dev.pwr.standby = false →
      Does (.foldInitiatedReset failA failB) s fun d => ResetTo s.dev d .cold 3 ∧ d.evt.rstLast = 3
        ∧ d.fold.tamperResets = s.dev.fold.tamperResets + (if tamper then 1 else 0))
  ∧ (∀ (s : State), (s.dev.core 0).run = .halted → s.dev.evt.seqn = .none → s.dev.pwr.pf = .idle →
      Gives .foldDoubleTrap s { s.dev with evt := { s.dev.evt with seqn := .foldDue false, doubleTrapResets := s.dev.evt.doubleTrapResets + 1 } })
  ∧ (∀ (s : State), s.dev.pwr.pf = .waiting → s.dev.pins.pwrok = true → s.dev.pins.pwrfailLow = false → s.dev.pwr.tripHold = false →
      Does .powerOnReset s fun d => ResetTo s.dev d .powerOn 1 ∧ d.evt.rstLast = 1)
  ∧ (∀ (bf : BitVec 2) (dc : BitVec 3) (wa : BitVec 8) (ma : BitVec 2) (s : State), s.dev.pins.pwrok = false → s.dev.pwr.pf ≠ .dumping →
      Does (.pwrokRise bf dc wa ma) s fun d => ResetTo s.dev d .powerOn 1 ∧ d.pins.pwrok = true ∧ d.pins.bifur = bf.toNat
        ∧ d.pins.dramCfg = dc.toNat ∧ d.pins.walkAddr = wa.toNat ∧ d.pins.mgmtAddr = ma.toNat)

/-- PWRFAIL_N asserting on a running device outside Standby, no sequence before it, asserts e10, stops fetching and placement and leaves the
sequence running; in a clock hold it is latched, in Standby it only moves the pin. A failing rail acts like the pin and PWROK may fall with
it. The journal copies' status ends the sequence with every other paddock Off. The pin's rise releases a held boot after 1 ms. A tamper of
bit 0, 1, 5 or 6 sets its bit and makes the Fold-initiated reset due; bit 2 or 3 halts the boot ROM at its check. Three samples at 125
degrees trip: the device is held Off, THERMTRIP_N low at the sequence's end, until the sensors have been below 95 degrees for 1 s, when a
power-on reset follows. A wake pattern of a permitted port, an address match or STANDBY_EXIT ends Standby with a power-on reset; a pattern
or match in PS2 to PS4 records its wake. (R34, R35, R389, R466, R467, R478, R487, R529, R530) -/
def Obligations.PowerFailAndTampers : Prop :=
  (∀ (units : BitVec 8) (s : State), s.dev.pins.pwrfailLow = false → s.dev.pwr.pf = .idle →
    (s.dev.pwr.standby = true → Gives (.pwrfailAssert units) s { s.dev with pins := { s.dev.pins with pwrfailLow := true } })
    ∧ (s.dev.pwr.standby = false → s.dev.pins.pwrok = true → s.dev.clk.started = true → s.dev.clk.hold = true → Does (.pwrfailAssert units) s fun d =>
      d.pwr = { s.dev.pwr with pfLatched := true } ∧ d.pins.pwrfailLow = true ∧ d.nvme = s.dev.nvme)
    ∧ (s.dev.pwr.standby = false → s.dev.pins.pwrok = true → s.dev.clk.started = true → s.dev.clk.hold = false →
      (Does (.pwrfailAssert units) s fun d => d.pwr.pfEvt = true ∧ d.pwr.pf ≠ .idle ∧ d.drove.stopped = true ∧ d.nvme.fetchStopped = true
        ∧ d.postingStopped = true ∧ d.pins.pwrfailLow = true)
      ∧ ∀ falls, Does (.railFault falls units) s fun d => d.pwr.pfEvt = true ∧ d.pwr.pf ≠ .idle ∧ d.drove.stopped = true
        ∧ d.nvme.fetchStopped = true ∧ d.pins.pwrok = !falls))
  ∧ (∀ (failA failB : Bool) (s : State), s.dev.pwr.pf = .dumping → Does (.journalCopiesProgrammed failA failB) s fun d => d.pwr.pf = .waiting
      ∧ (∀ p, 1 ≤ p → p ≤ 229 → d.pad p = 2) ∧ d.drove.fixed = none ∧ (∀ img, s.dev.drove.fixed = some img → d.drove.dumpSeq = img.seq)
      ∧ (s.dev.pwr.tripHold = true → d.pins.thermtripLow = true))
  ∧ (∀ (s : State), s.dev.pins.pwrfailLow = true → Does .pwrfailDeassert s fun d => d.pins = { s.dev.pins with pwrfailLow := false }
      ∧ d.pwr = s.dev.pwr ∧ (s.dev.clk.started = true → s.dev.fold.stage = 0 → s.dev.pwr.pf = .idle → d.fold.stage = 1 ∧ d.now = s.dev.now + 1000000)
      ∧ (s.dev.fold.stage ≠ 0 → d.fold = s.dev.fold ∧ d.now = s.dev.now))
  ∧ (∀ (b : Fin 8) (fails : TallyFails) (s : State), s.dev.pins.pwrok = true → s.dev.pwr.standby = false → s.dev.clk.hold = false →
    (b.val ∈ [0, 1, 5, 6] → Does (.tamperEvent b fails) s fun d => d.evt.seqn = .foldDue true ∧ bitOf d.fold.tamper b.val = true ∧ d.mem = s.dev.mem)
    ∧ (b.val ∈ [2, 3] → s.dev.fold.stage = 1 → s.dev.fold.halted = false → Does (.tamperEvent b fails) s fun d => d.fold.halted = true
      ∧ bitOf d.fold.tamper b.val = true ∧ d.fold.code = b.val ∧ d.evt.collieArmed = false ∧ d.cores = s.dev.cores)
    ∧ (b.val ∈ [4, 7] → Does (.tamperEvent b fails) s fun d => d.evt.seqn = s.dev.evt.seqn ∧ bitOf d.fold.tamper b.val = true))
  ∧ (∀ (units : BitVec 8) (s : State), s.dev.pwr.tripHold = false → s.dev.pwr.standby = false →
    ((∃ x ∈ s.dev.thm.valid, 3 ≤ x.hot) → Does (.thermalTrip units) s fun d => d.thm.trip = true ∧ d.pwr.tripHold = true
      ∧ (s.dev.pwr.pf = .waiting → d.pins.thermtripLow = true))
    ∧ ((∀ x ∈ s.dev.thm.valid, x.hot < 3) → Gives (.thermalTrip units) s s.dev))
  ∧ (∀ (s : State) (t : Nat), s.dev.thm.coolSince = some t → s.dev.pwr.tripHold = true → s.dev.pwr.pf = .waiting →
      Does .thermalTripCooldown s fun d => ResetTo s.dev d .powerOn 1 ∧ d.pwr.tripHold = false ∧ t + 1000000000 ≤ d.now)
  ∧ (∀ (s : State), (s.dev.pwr.standby = true → Does .standbyExit s fun d => ResetTo s.dev d .powerOn 1 ∧ d.pwr.standby = false)
      ∧ (s.dev.pwr.standby = false → Gives .standbyExit s s.dev))
  ∧ (∀ (port : Fin 2) (us : List (BitVec 12)) (s : State), wakePatternOk s.dev.pwr.standby (us.map BitVec.toNat) = true → bitOf (s.dev.cfgv 0x00A 3) port.val = true →
    (s.dev.pwr.standby = true → Does (.wakePattern port us) s fun d => ResetTo s.dev d .powerOn 1 ∧ d.pwr.standby = false)
    ∧ (s.dev.pwr.standby = false → 2 ≤ s.dev.pwr.current → Does (.wakePattern port us) s fun d => d.pwr.wakeCause = 4 ∧ d.pwr.wakePort = port.val
      ∧ d.pwr.wakes = min 0xFFFF (s.dev.pwr.wakes + 1)))
  ∧ (∀ (i3c : Bool) (s : State), (s.dev.pwr.standby = true → i3c = false → Does (.managementWake i3c) s fun d => ResetTo s.dev d .powerOn 1)
    ∧ (s.dev.pwr.standby = false → 2 ≤ s.dev.pwr.current → s.dev.pwr.mgmtUp = false → Does (.managementWake i3c) s fun d => d.pwr.mgmtUp = true
      ∧ d.pwr.wakeCause = (if i3c then 6 else 5) ∧ (∀ p ∈ [161, 201, 227, 229], d.padOn p = true)))

/-- A step of an entry that is not suspended, with no I/O command in a pen and no power-fail, carries out the next step of nine whose
condition holds: step 2 for a state below PS3, step 5 with no die operation or a target of PS1, the others at once, and the ninth ends the
entry in its target. With an I/O command in a pen it does nothing; ENTRY_SUSPEND then suspends the entry and the paddocks it has changed are
On; with none left ENTRY_RESUME starts the entry at step 1. POWER_STATE_EXIT ends at its target, e11 asserted and no command waiting on it.
An access wakes any paddock but a dead one. A controller's autonomous transition, its table and idle time allowing it, requests the table's
state. NOPPME work has its paddocks On for 100 ms at most. A link that is up enters L1.2; leaving it brings its port paddock On, and from
PS2 to PS4 records wake cause 3. (R177, R457, R460, R461, R462, R464, R465, R466) -/
def Obligations.PowerStates : Prop :=
  (∀ (s : State) (k : Nat), s.dev.pwr.entering = true → s.dev.pwr.suspended = false → s.dev.pwr.standby = false → s.dev.pwr.current < s.dev.pwr.target →
    s.dev.pwr.pf = .idle → k = s.dev.pwr.step + 1 →
    (s.dev.ioPens = true → Gives .powerStateEntry s s.dev)
    ∧ (s.dev.ioPens = false → (k ∈ [1, 3, 4, 6, 7, 8] ∨ (k = 2 ∧ s.dev.pwr.target < 3) ∨ (k = 5 ∧ (s.dev.pwr.target < 2 ∨ s.dev.anyDieOp = false))) →
      Does .powerStateEntry s fun d => d.pwr.step = k ∧ d.pwr.entering = true ∧ d.pwr.current = s.dev.pwr.current ∧ d.pwr.target = s.dev.pwr.target
        ∧ (k = 8 → d.pwr.pens = []))
    ∧ (s.dev.ioPens = false → k = 9 → Does .powerStateEntry s fun d => d.pwr.entering = false ∧ d.pwr.current = s.dev.pwr.target
        ∧ d.pwr.standby = decide (s.dev.pwr.target = 5)))
  ∧ (∀ (s : State), s.dev.pwr.entering = true → s.dev.pwr.suspended = false → s.dev.pwr.current < s.dev.pwr.target → s.dev.ioPens = true →
    Does .entrySuspend s fun d => d.pwr.suspended = true ∧ d.pwr.step = 0 ∧ d.pwr.suspends = min 0xFFFF (s.dev.pwr.suspends + 1)
      ∧ (∀ p, 1 ≤ p → p ≤ 229 → s.dev.pwr.pads.get 0 p ≠ s.dev.padTarget s.dev.pwr.current p → d.pwr.pads.get 0 p = 0))
  ∧ (∀ (s : State), s.dev.pwr.entering = true → s.dev.pwr.suspended = true → s.dev.ioPens = false →
    Gives .entryResume s { s.dev with pwr := { s.dev.pwr with suspended := false, step := 0 } })
  ∧ (∀ (s : State), s.dev.pwr.entering = true → s.dev.pwr.standby = false → s.dev.pwr.target ≤ s.dev.pwr.current → s.dev.pwr.pf = .idle →
    Does .powerStateExit s fun d => d.pwr.current = s.dev.pwr.target ∧ d.pwr.entering = false ∧ d.pwr.wakeEvt = true ∧ d.pwr.pens = [])
  ∧ (∀ (p : Paddock) (s : State), (s.dev.pwr.standby = false → s.dev.padDead p.val = false → Does (.paddockAccessWake p) s fun d =>
        d.padOn p.val = true ∧ d.mem = s.dev.mem ∧ (∀ q, q ≠ p.val → d.pad q = s.dev.pad q))
    ∧ ((s.dev.pwr.standby = true ∨ s.dev.padDead p.val = true) → Gives (.paddockAccessWake p) s s.dev))
  ∧ (∀ (k : Ctrl) (s : State), (s.dev.ctrl k.val).en = true → (s.dev.ctrl k.val).d3hot = false →
    bitOf ((s.dev.ctrl k.val).features.get 0 0x0C) 0 = true → (s.dev.apstEntry k.val).2 ≠ 0 → (s.dev.apstEntry k.val).1 ≤ 4 →
    (∀ e ∈ s.dev.nvme.pens, e.2.ctrl = k.val → e.2.isAdmin = true) → Does (.apstTransition k) s fun d =>
      (d.ctrl k.val).reqPs = (s.dev.apstEntry k.val).1 ∧ (s.dev.ctrl k.val).lastIo + (s.dev.apstEntry k.val).2 * 1000000 ≤ d.now)
  ∧ (∀ (s : State), s.dev.pwr.standby = false →
    (2 ≤ s.dev.pwr.current → s.dev.pwr.entering = false → s.dev.noppme = true → s.dev.pwr.noppUntil = none → Does (.noppmeWork true) s fun d =>
      d.pwr.noppUntil = some (s.dev.now + 100000000) ∧ (∀ p, 1 ≤ p → p ≤ 224 → s.dev.padDead p = false → d.padOn p = true))
    ∧ (∀ t, s.dev.pwr.noppUntil = some t → Does (.noppmeWork false) s fun d => d.pwr.noppUntil = none ∧ d.pwr.current = s.dev.pwr.current))
  ∧ (∀ (l : Fin 4) (s : State),
    ((s.dev.link l.val).width ≠ 0 → Does (.l12Entry l) s fun d => d.link l.val = { s.dev.link l.val with l12 := true })
    ∧ ((s.dev.link l.val).width = 0 → Gives (.l12Entry l) s s.dev)
    ∧ ((s.dev.link l.val).l12 = true → Does (.l12Exit l) s fun d => d.link l.val = { s.dev.link l.val with l12 := false }
        ∧ d.padOn (linkPad l.val) = true ∧ (2 ≤ s.dev.pwr.current → s.dev.pwr.standby = false → d.pwr.wakeCause = 3))
    ∧ ((s.dev.link l.val).l12 = false → Gives (.l12Exit l) s s.dev))

/-- Every switch during a clock hold ends with status 3 and changes nothing else; outside one a target that does not exist ends with status
4. ROOT_SELECT of the other PLL moves the root if that is ready, else ends with 1; PLL_REFERENCE sets the reference of the PLL that does not
drive the root, which then must lock, ends with 2 for the one that does and 1 for a source not ready; a source feeding the root cannot be
disabled. A PLL locks to a ready reference. After power-on the root is on PLL A with a crystal, else on FIO. A lost root reference moves the
root to the standby PLL when that is locked to a running FIO and otherwise holds the clocks; the standby PLL's lock to FIO ends the hold. A
failed FIO check sets FIOBAD and posts a record. A gate request, or the idle timer where AUTOGATE_US is not 0, takes a Running gateable
block to Draining; its acknowledgement gates it, or wakes it when it holds a transaction; 10 us without one return it to Running, count a
timeout and post a record. An ungate request or a transaction wakes a Gated block, a Draining block holds a transaction, and a Waking block
runs after 20 ns. (R469, R470, R471, R472, R473, R475, R476, R477, R479, R480) -/
def Obligations.Clocks : Prop :=
  (∀ (t r : BitVec 2) (s : State), s.dev.clk.hold = true → ∀ c ∈ [Instr.rootSelect t, Instr.pllReference t r, Instr.aonSelect t, Instr.sourceEnable t, Instr.sourceDisable t],
    Gives c s { s.dev with clk := { s.dev.clk with busy := false, status := 3 } })
  ∧ (∀ (t : BitVec 2) (s : State), s.dev.clk.hold = false →
    (2 ≤ t.toNat → ∀ c ∈ [Instr.rootSelect t, Instr.aonSelect t], Gives c s { s.dev with clk := { s.dev.clk with busy := false, status := 4 } })
    ∧ (t = 3 → ∀ c ∈ [Instr.sourceEnable t, Instr.sourceDisable t], Gives c s { s.dev with clk := { s.dev.clk with busy := false, status := 4 } })
    ∧ (t.toNat < 2 → t.toNat ≠ s.dev.clk.root → s.dev.clk.pllReady t.toNat = true → Gives (.rootSelect t) s
        { s.dev with clk := { s.dev.clk with root := t.toNat, onFio := s.dev.clk.pllRef t.toNat == 2, busy := false, status := 0 } })
    ∧ (t.toNat < 2 → t.toNat ≠ s.dev.clk.root → s.dev.clk.pllReady t.toNat = false → Gives (.rootSelect t) s
        { s.dev with clk := { s.dev.clk with busy := false, status := 1 } })
    ∧ (t.toNat < 2 → Gives (.aonSelect t) s { s.dev with clk := { s.dev.clk with aonSio := t == 1, busy := false, status := 0 } })
    ∧ (t ≠ 3 → Does (.sourceEnable t) s fun d => d.clk.status = 0 ∧ d.clk.root = s.dev.clk.root ∧ (t = 0 → d.clk.fioEn = true)
        ∧ (t = 1 → d.clk.x0En = true) ∧ (t = 2 → d.clk.x1En = true))
    ∧ (t ≠ 3 → s.dev.clk.rootRef ≠ srcRef t.toNat → Does (.sourceDisable t) s fun d => d.clk.status = 0 ∧ d.clk.srcReady (srcRef t.toNat) = false
        ∧ d.clk.root = s.dev.clk.root)
    ∧ (t ≠ 3 → s.dev.clk.rootRef = srcRef t.toNat → Gives (.sourceDisable t) s { s.dev with clk := { s.dev.clk with busy := false, status := 2 } }))
  ∧ (∀ (t r : BitVec 2) (s : State), s.dev.clk.hold = false → t.toNat < 2 → r ≠ 3 →
    (t.toNat = s.dev.clk.root → Gives (.pllReference t r) s { s.dev with clk := { s.dev.clk with busy := false, status := 2 } })
    ∧ (t.toNat ≠ s.dev.clk.root → s.dev.clk.srcReady r.toNat = false → Gives (.pllReference t r) s
        { s.dev with clk := { s.dev.clk with busy := false, status := 1 } })
    ∧ (t.toNat ≠ s.dev.clk.root → s.dev.clk.srcReady r.toNat = true → Does (.pllReference t r) s fun d => d.clk.pllRef t.toNat = r.toNat
        ∧ d.clk.pllReady t.toNat = false ∧ d.clk.status = 0 ∧ d.clk.root = s.dev.clk.root))
  ∧ (∀ (p : Fin 2) (s : State),
    (s.dev.clk.srcReady (s.dev.clk.pllRef p.val) = false → Gives (.pllLock p) s s.dev)
    ∧ (s.dev.clk.srcReady (s.dev.clk.pllRef p.val) = true → s.dev.clk.hold = false → Does (.pllLock p) s fun d => d.clk.pllReady p.val = true
        ∧ d.clk.root = s.dev.clk.root)
    ∧ (s.dev.clk.srcReady (s.dev.clk.pllRef p.val) = true → s.dev.clk.hold = true → p.val = s.dev.clk.standby → s.dev.clk.pllRef p.val = 2 →
        s.dev.pwr.pfLatched = false → Does (.pllLock p) s fun d => d.clk.hold = false ∧ d.clk.root = p.val ∧ d.clk.onFio = true ∧ d.clk.aonSio = false))
  ∧ (∀ (x0 x1 : Bool) (s : State), s.dev.pins.pwrok = true → s.dev.clk.started = false → Does (.clockPowerOnSequence x0 x1) s fun d =>
      d.clk.started = true ∧ d.clk.fioRdy = true ∧ d.clk.pllRef 1 = 2 ∧ d.clk.pllReady 1 = true ∧ d.clk.aonSio = false
      ∧ d.clk.root = (if x0 || x1 then 0 else 1) ∧ d.clk.onFio = !(x0 || x1) ∧ d.fold.stage = (if s.dev.pins.pwrfailLow then 0 else 1))
  ∧ (∀ (s : State), s.dev.clk.started = true → s.dev.clk.hold = false → Does .referenceLoss s fun d => d.clk.monLoss = true
      ∧ d.clk.trips = min 0xFF (s.dev.clk.trips + 1)
      ∧ (s.dev.clk.fioRdy = true → s.dev.clk.rootRef ≠ 2 → s.dev.clk.pllRef s.dev.clk.standby = 2 → s.dev.clk.pllReady s.dev.clk.standby = true →
          d.clk.hold = false ∧ d.clk.root = s.dev.clk.standby ∧ d.clk.onFio = true)
      ∧ (s.dev.clk.fioRdy = true → s.dev.clk.rootRef ≠ 2 → s.dev.clk.pllReady s.dev.clk.standby = false → d.clk.hold = true
          ∧ d.clk.pllRef s.dev.clk.standby = 2 ∧ d.clk.holdSince = s.dev.now)
      ∧ (s.dev.clk.rootRef = 2 → d.clk.hold = true ∧ d.clk.fioEn = true ∧ d.clk.aonSio = true ∧ d.clk.fioRdy = false))
  ∧ (∀ (s : State), (s.dev.clk.fioEn = true → Does .fioReady s fun d => d.clk.fioRdy = true ∧ d.clk.root = s.dev.clk.root
      ∧ (s.dev.clk.hold = true → d.clk.pllRef s.dev.clk.standby = 2 ∧ d.clk.pllReady s.dev.clk.standby = false))
    ∧ (s.dev.clk.fioEn = false → Gives .fioReady s s.dev))
  ∧ (∀ (bad : Bool) (s : State), ((bad && s.dev.clk.fioRdy) = true → Does (.fioCheck bad) s fun d => d.clk = { s.dev.clk with fioBad := true }
      ∧ (d.src 0x009).next = (s.dev.src 0x009).next + 1) ∧ ((bad && s.dev.clk.fioRdy) = false → Gives (.fioCheck bad) s s.dev))
  ∧ (∀ (x : Fin 2) (s : State), (x = 0 → s.dev.clk.x0En = true → Gives (.crystalReady x) s { s.dev with clk := { s.dev.clk with x0Rdy := true } })
    ∧ (x = 1 → s.dev.clk.x1En = true → Gives (.crystalReady x) s { s.dev with clk := { s.dev.clk with x1Rdy := true } }))
  ∧ (∀ (i : Fin 266) (s : State),
  ((s.dev.gate i.val).st = .running →
    (∀ c, c = Instr.gate (BitVec.ofNat 9 i.val) ∨ (c = Instr.autogateExpiry i ∧ s.dev.cfgv 0x00B 3 ≠ 0) → Does c s fun d =>
      d.gate i.val = { st := .draining, since := s.dev.now, held := 0 } ∧ (∀ j, j ≠ i.val → d.gate j = s.dev.gate j) ∧ d.clk.root = s.dev.clk.root)
    ∧ (s.dev.cfgv 0x00B 3 = 0 → Gives (.autogateExpiry i) s s.dev) ∧ Gives (.gatedTransaction i) s s.dev)
  ∧ ((s.dev.gate i.val).st = .draining →
    (Does (.gateAcknowledge i) s fun d => d.gate i.val = { s.dev.gate i.val with st := if (s.dev.gate i.val).held = 0 then .gated else .waking }
      ∧ (∀ j, j ≠ i.val → d.gate j = s.dev.gate j))
    ∧ (Does (.gateTimeout i) s fun d => d.gate i.val = GateSt.init ∧ d.clk.gateTo = min 0xFFFF (s.dev.clk.gateTo + 1)
      ∧ (s.dev.gate i.val).since + 10000 ≤ d.now ∧ (d.src 0x009).next = (s.dev.src 0x009).next + 1 ∧ (∀ j, j ≠ i.val → d.gate j = s.dev.gate j))
    ∧ (Does (.gatedTransaction i) s fun d => d.gate i.val = { s.dev.gate i.val with held := (s.dev.gate i.val).held + 1 }))
  ∧ ((s.dev.gate i.val).st = .gated →
    (Does (.ungate (BitVec.ofNat 9 i.val)) s fun d => d.gate i.val = { s.dev.gate i.val with st := .waking } ∧ (∀ j, j ≠ i.val → d.gate j = s.dev.gate j))
    ∧ (Does (.gatedTransaction i) s fun d => d.gate i.val = { s.dev.gate i.val with st := .waking, held := (s.dev.gate i.val).held + 1 }))
  ∧ ((s.dev.gate i.val).st = .waking → Does (.wakingEnd i) s fun d => d.gate i.val = GateSt.init ∧ d.now = s.dev.now + 20
      ∧ (∀ j, j ≠ i.val → d.gate j = s.dev.gate j)))

/-- A sample outside Standby, with the offset of the trims in force, joins the last 8 of its sensor, and the composite is the highest valid
filtered reading; the fourth sample in a row outside -55 to 150 degrees makes the sensor ignored; a waiting LOAD is applied first. A failed
self-check ignores the sensor, and a pass returns one that has had 1,000 good samples. A die reading at NAND_HOT_C limits its channel, until
every reading of the channel is 3 degrees below. An evaluation at or above threshold 3 gives level 3 and raises the alert on a rise; one
below every threshold, and by the hysteresis below the present level's, lowers the level by one; with every sensor ignored the level is 2 at
least. (R481, R482, R483, R484, R485, R486) -/
def Obligations.Temperatures : Prop :=
  (∀ (sn : Fin 7) (v : BitVec 16) (s : State) (w : Int), s.dev.pwr.standby = false →
    w = v.toInt + signed8 ((if s.dev.thm.loadDue then s.dev.thm.window else s.dev.thm.applied).get 0 (0x100 + sn.val)) →
    Does (.temperatureSample sn v) s fun d => d.thm.loadDue = false ∧ d.thm.composite = d.thm.compositeOf
      ∧ ((s.dev.sensor (sn.val + 1)).samples.length < 8 → (d.sensor (sn.val + 1)).samples = (s.dev.sensor (sn.val + 1)).samples ++ [w])
      ∧ ((s.dev.sensor (sn.val + 1)).samples.length = 8 → (d.sensor (sn.val + 1)).samples = (s.dev.sensor (sn.val + 1)).samples.drop 1 ++ [w])
      ∧ ((w < -440 ∨ 1200 < w) → 3 ≤ (s.dev.sensor (sn.val + 1)).bad → (d.sensor (sn.val + 1)).fault = true)
      ∧ (-440 ≤ w → w ≤ 1200 → (d.sensor (sn.val + 1)).fault = (s.dev.sensor (sn.val + 1)).fault)
      ∧ (∀ q, q ≠ sn.val + 1 → d.sensor q = s.dev.sensor q) ∧ d.thm.level = s.dev.thm.level)
  ∧ (∀ (sn : Fin 7) (ok : Bool) (s : State), Does (.sensorSelfCheck sn ok) s fun d =>
      (ok = false → (d.sensor (sn.val + 1)).fault = true ∧ (d.sensor (sn.val + 1)).good = 0)
      ∧ (ok = true → 1000 ≤ (s.dev.sensor (sn.val + 1)).good → (d.sensor (sn.val + 1)).fault = false)
      ∧ (ok = true → (s.dev.sensor (sn.val + 1)).good < 1000 → d.sensor (sn.val + 1) = s.dev.sensor (sn.val + 1))
      ∧ (∀ q, q ≠ sn.val + 1 → d.sensor q = s.dev.sensor q))
  ∧ (∀ (die : DieId) (v : BitVec 8) (s : State), Does (.nandTemperatureRead die v) s fun d => d.thm.nand = s.dev.thm.nand.set die.toNat v.toInt
      ∧ d.thm.composite = d.thm.compositeOf
      ∧ ((s.dev.cfgv 0x013 5 : Int) ≤ v.toInt → (d.chan (die.toNat / 32)).hotLimited = true)
      ∧ (v.toInt < (s.dev.cfgv 0x013 5 : Int) →
          (∀ e ∈ d.thm.nand, e.1 / 32 = die.toNat / 32 → e.2 ≤ (s.dev.cfgv 0x013 5 : Int) - 3) → (d.chan (die.toNat / 32)).hotLimited = false)
      ∧ (∀ c, c ≠ die.toNat / 32 → d.chan c = s.dev.chan c))
  ∧ (∀ (s : State), Gives .trimLoad s { s.dev with thm := { s.dev.thm with loadDue := true } })
  ∧ (∀ (s : State), s.dev.thm.level ≤ 3 → Does .thermalEvaluation s fun d => d.thm.composite = s.dev.thm.compositeOf
      ∧ (s.dev.threshold 3 ≤ s.dev.thm.compositeOf → d.thm.level = 3)
      ∧ (0 < s.dev.thm.level → (∀ n ∈ [1, 2, 3], s.dev.thm.compositeOf < s.dev.threshold n) → s.dev.thm.allIgnored = false →
          s.dev.thm.compositeOf < s.dev.threshold s.dev.thm.level - (s.dev.cfgv 0x013 4 : Int) * 8 → d.thm.level = s.dev.thm.level - 1)
      ∧ (s.dev.thm.level = 0 → (∀ n ∈ [1, 2, 3], s.dev.thm.compositeOf < s.dev.threshold n) → s.dev.thm.allIgnored = false → d.thm.level = 0)
      ∧ (s.dev.thm.allIgnored = true → 2 ≤ d.thm.level)
      ∧ (s.dev.thm.level < d.thm.level → d.thm.alert = true ∧ (d.src 0x00A).next = (s.dev.src 0x00A).next + 1))

/-- A joined station does not repeat a frame it sent, captures one addressed to it (two wait at most; a third is dropped and counted; in
Standby it ends Standby instead), forwards and captures a broadcast and repeats any other unchanged. Of a frame for the station downstream
sees ABORT in place of character 2, of its own in place of character 3. The transmitter, when it may, sends the oldest waiting frame. A ring
check sends a probe; 5 ms without it send the next of three, after the third the check fails with a record; a probe that comes back ends it
(the three one after another are the model's reading, log 38). The pass switch opens and closes with paddock 0's reset. An address
assignment selects I3C mode and RSTDAA leaves it; each change discards the path's packets. (R490, R491, R492, R493, R494, R495, R496, R497,
R499) -/
def Obligations.WalkRing : Prop :=
  (∀ (cs : List (BitVec 10)) (broken : Bool) (s : State), s.dev.walk.joined = true →
    (frameByte cs 1 = some s.dev.station →
      (s.dev.pwr.standby = false → s.dev.walk.rx.length < 2 → Does (.walkFrameReceive cs broken) s fun d => d.outputs = s.dev.outputs
        ∧ ∃ f, d.walk.rx = s.dev.walk.rx ++ [f] ∧ f.ok = frameOk cs broken)
      ∧ (s.dev.pwr.standby = false → 2 ≤ s.dev.walk.rx.length → Does (.walkFrameReceive cs broken) s fun d => d.outputs = s.dev.outputs
        ∧ d.walk.rx = s.dev.walk.rx ∧ d.walk.rxDrop = min 0xFF (s.dev.walk.rxDrop + 1))
      ∧ (s.dev.pwr.standby = true → Does (.walkFrameReceive cs broken) s fun d => ResetTo s.dev d .powerOn 1)
      ∧ (Does (.walkFrameRemove cs broken) s fun d => d.outputs = .walkFrame (cs.take 2 ++ [walkChar true 3]) :: s.dev.outputs
        ∧ (frameByte cs 2 = some s.dev.station → frameOk cs broken = true → frameByte cs 3 = some 0 → s.dev.walk.probeAt ≠ none →
            d.walk.probeAt = none ∧ d.walk.ringFail = false)))
    ∧ (frameByte cs 1 ≠ some s.dev.station → frameByte cs 2 = some s.dev.station →
      (Does (.walkFrameReceive cs broken) s fun d => d.outputs = s.dev.outputs ∧ d.walk.rx = s.dev.walk.rx)
      ∧ (Does (.walkFrameRemove cs broken) s fun d => d.outputs = .walkFrame (cs.take 3 ++ [walkChar true 3]) :: s.dev.outputs ∧ d.walk.rx = s.dev.walk.rx))
    ∧ (frameByte cs 1 ≠ some s.dev.station → frameByte cs 2 ≠ some s.dev.station →
      (frameByte cs 1 ≠ some 0xFF → Does (.walkFrameReceive cs broken) s fun d => d.outputs = .walkFrame cs :: s.dev.outputs ∧ d.walk.rx = s.dev.walk.rx)
      ∧ (frameByte cs 1 = some 0xFF → s.dev.pwr.standby = false → s.dev.walk.rx.length < 2 → Does (.walkFrameReceive cs broken) s fun d =>
        d.outputs = .walkFrame cs :: s.dev.outputs ∧ ∃ f, d.walk.rx = s.dev.walk.rx ++ [f] ∧ f.ok = frameOk cs broken)))
  ∧ (∀ (arriving : BitVec 7) (s : State),
    (∀ f t, s.dev.walk.tx = f :: t → s.dev.walkMayTx = true → Does (.walkTransmit arriving) s fun d => d.walk.tx = t
      ∧ d.outputs = .walkFrame (frameChars f) :: s.dev.outputs ∧ d.walk.insert = min arriving.toNat 75)
    ∧ ((s.dev.walk.tx = [] ∨ s.dev.walkMayTx = false) → Gives (.walkTransmit arriving) s s.dev))
  ∧ (∀ (s : State), s.dev.walkMayTx = true → s.dev.walk.probeAt = none → s.dev.walk.tx = [] → Does .ringCheckProbe s fun d => d.walk.probes = 1
      ∧ d.walk.probeAt = some d.now ∧ d.outputs = .walkFrame (frameChars (frameBytes s.dev.station s.dev.station [])) :: s.dev.outputs
      ∧ s.dev.walk.lastCheck + s.dev.cfgv 0x00D 2 * 1000000 ≤ d.now)
  ∧ (∀ (s : State) (t : Nat), s.dev.walk.probeAt = some t →
    (s.dev.walk.probes < 3 → s.dev.walkMayTx = true → Does .probeTimeout s fun d => d.walk.probes = s.dev.walk.probes + 1 ∧ d.walk.probeAt = some d.now
      ∧ t + 5000000 ≤ d.now ∧ d.outputs = .walkFrame (frameChars (frameBytes s.dev.station s.dev.station [])) :: s.dev.outputs)
    ∧ (3 ≤ s.dev.walk.probes → Does .probeTimeout s fun d => d.walk.ringFail = true ∧ d.walk.probeAt = none
      ∧ d.walk.probeFail = min 0xFF (s.dev.walk.probeFail + 1) ∧ t + 5000000 ≤ d.now ∧ (d.src 0x00B).next = (s.dev.src 0x00B).next + 1))
  ∧ (∀ (s : State),
    (s.dev.walk.joined = false → s.dev.pins.pwrok = true → Does (.passSwitchChange true) s fun d => d.walk.joined = true
      ∧ (s.dev.cfgv 0x00D 1 = 1 → s.dev.padOn 201 = true → d.walk.probeAt = some s.dev.now ∧ d.walk.probes = 1))
    ∧ (s.dev.pins.pwrok = false → Does (.passSwitchChange false) s fun d => d.walk.joined = false ∧ d.walk.probeAt = none ∧ d.walk.rx = s.dev.walk.rx)
    ∧ (s.dev.pins.pwrok = true → Gives (.passSwitchChange false) s s.dev))
  ∧ (∀ (a : BitVec 7) (s : State), (s.dev.pwr.standby = false → Gives (.i3cAddressAssignment a) s { s.dev with walk := { s.dev.walk with
        i3c := true, dynAddr := a.toNat, parts := s.dev.walk.parts.filter (fun x => x.path != .i3c) } })
    ∧ (s.dev.walk.i3c = true → Gives .rstdaa s { s.dev with walk := { s.dev.walk with
        i3c := false, dynAddr := 0, parts := s.dev.walk.parts.filter (fun x => x.path != .i3c) } })
    ∧ (s.dev.walk.i3c = false → Gives .rstdaa s s.dev))

/-- A message has been served with a response: it waits no more, and the response leaves on its path, over the Walk ring as frames for the
transmitter where that is enabled. -/
def Sys2Proof.Safety.Answered (b a : Dev) (m : MgmtMsg) (resp : Bytes) : Prop :=
  a.walk.msgs = b.walk.msgs.erase m ∧ a.walk.lastReq = m.key
  ∧ (m.path = .walk → b.cfgv 0x00D 1 ≠ 0 → a.walk.tx = b.walk.tx ++ (mctpSplit m.src a.walk.eidWalk m.tag 512 0
      (if m.mtype = 4 then resp else leBytes 1 m.mtype ++ resp)).map (frameBytes m.station b.station))
  ∧ (m.path = .i3c → Output.mctp .i3c m.src m.tag m.mtype resp ∈ a.outputs)
/-- The next message is an MCTP control request of a code, and somebody answers. -/
def Sys2Proof.Safety.NextControl (d : Dev) (m : MgmtMsg) (code : Nat) : Prop :=
  d.nextMsg = some m ∧ m.mtype = 0 ∧ d.mgmtLevel ≠ 0 ∧ bitOf (leAt m.body 0 1) 7 = true ∧ leAt m.body 1 1 = code
/-- The response to a control message: instance, code, completion code, data. -/
def Sys2Proof.Safety.controlResp (m : MgmtMsg) (code cc : Nat) (b : Bytes) : Bytes := leBytes 1 (leAt m.body 0 1 % 32) ++ leBytes 1 code ++ leBytes 1 cc ++ b
/-- The next message is an NVMe-MI request of an opcode. -/
def Sys2Proof.Safety.NextMi (d : Dev) (m : MgmtMsg) (op : Nat) : Prop :=
  d.nextMsg = some m ∧ m.mtype = 4 ∧ m.nmimt = 1 ∧ bitOf (leAt m.body 1 1) 7 = false ∧ leAt m.body 4 1 = op
/-- A good one-packet message on I3C, in a running management path with none waiting, waits to be served; one of an unknown type is counted;
a bad captured frame is counted and dropped. Once messages that no operation serves have been answered at the head, the next message, a
request of the row's code, is answered and leaves: control messages with completion code 0 and the row's data, SET_ENDPOINT_ID setting a
valid ID; NVMe-MI commands by V firmware with the operation's status and data, before it runs with Internal Error; Read Device State always;
a tunnelled command of another opcode with Invalid Opcode. STANDBY begins its entry where it is enabled and no controller is, else it is
denied. In SMBus mode the Basic Management Command is answered. In-band a Send ends with Invalid Opcode in its MI status, a Receive with its
operation's answer. (NVMe-MI's layouts are PRESUMED, log 50.) (R498, R499, R500, R501, R502, R503, R504) -/
def Obligations.ManagementMessages : Prop :=
  (∀ (b : Bytes) (s : State) (h : Nat) (m : MgmtMsg), s.dev.pwr.standby = false → s.dev.padOn 201 = true → 5 ≤ b.length → leAt b 0 1 % 16 = 1 →
    (leAt b 1 1 = 0 ∨ leAt b 1 1 = 0xFF ∨ leAt b 1 1 = s.dev.walk.eidI3c) → h = leAt b 3 1 → bitOf h 7 = true → bitOf h 6 = true →
    b.length ≤ 4228 → s.dev.walk.msgs = [] →
    (leAt b 4 1 % 128 ∉ [0, 4, 5] → Does (.mctpPacket (.i3c b)) s fun d => d.walk.msgs = [] ∧ d.walk.badType = min 0xFF (s.dev.walk.badType + 1))
    ∧ (leAt b 4 1 % 128 ∈ [0, 4, 5] → (leAt b 4 1 % 128 ≠ 0 → s.dev.walk.eidI3c ≠ 0) →
      m = { path := .i3c, station := 0, src := leAt b 2 1, tag := h % 16, mtype := leAt b 4 1 % 128,
            body := if leAt b 4 1 % 128 = 4 then b.drop 4 else b.drop 5 } →
      m.unserved = false → Does (.mctpPacket (.i3c b)) s fun d => d.walk.msgs = [m]))
  ∧ (∀ (s : State) (f : RxFrame) (t : List RxFrame), s.dev.pwr.standby = false → s.dev.padOn 201 = true → s.dev.walk.rx = f :: t → f.ok = false →
    s.dev.walk.msgs = [] → Does (.mctpPacket .walk) s fun d => d.walk.rx = t ∧ d.walk.rxBad = min 0xFF (s.dev.walk.rxBad + 1))
  ∧ (∀ (s : State) (m : MgmtMsg) (e : Nat), NextControl s.dev.sweep m 1 → e = leAt m.body 3 1 →
    (leAt m.body 2 1 % 4 < 2 → e ≠ 0 → e ≠ 0xFF → Does .setEndpointId s fun d => d.walk.eid m.path = e
      ∧ Answered s.dev.sweep d m (controlResp m 1 0 (zeros 1 ++ leBytes 1 e ++ zeros 1)))
    ∧ ((2 ≤ leAt m.body 2 1 % 4 ∨ e = 0 ∨ e = 0xFF) → Does .setEndpointId s fun d => Answered s.dev.sweep d m (controlResp m 1 2 [])))
  ∧ (∀ row ∈ [(2, Instr.getEndpointId, fun (d : Dev) (m : MgmtMsg) => leBytes 1 (d.walk.eid m.path) ++ zeros 2),
      (3, Instr.getEndpointUuid, fun (_ : Dev) (_ : MgmtMsg) => (List.range 16).map Config.mctpUuid),
      (4, Instr.getMctpVersionSupport, fun (_ : Dev) (m : MgmtMsg) => leBytes 1 1 ++ (List.range 4).map (Config.mctpVersion (leAt m.body 2 1))),
      (5, Instr.getMessageTypeSupport, fun (_ : Dev) (_ : MgmtMsg) => leBytes 1 2 ++ leBytes 1 4 ++ leBytes 1 5)],
    ∀ (s : State) (m : MgmtMsg), NextControl s.dev.sweep m row.1 → Does row.2.1 s fun d =>
      Answered s.dev.sweep d m (controlResp m row.1 0 (row.2.2 s.dev.sweep m)))
  ∧ (∀ row ∈ [(0x00, Instr.readNvmeMiDataStructure, fun (d : Dev) (m : MgmtMsg) => d.miStructure m.nmd0),
      (0x01, Instr.healthStatusPoll, fun (d : Dev) (_ : MgmtMsg) => d.miSubsystem),
      (0x02, Instr.healthStatusPoll, fun (d : Dev) (m : MgmtMsg) => d.miControllers m.nmd0),
      (0x03, Instr.configurationSet, fun (d : Dev) (m : MgmtMsg) => (d.miConfigSet m.nmd0 m.nmd1).2),
      (0x04, Instr.configurationGet, fun (d : Dev) (m : MgmtMsg) => d.miConfigGet m.nmd0),
      (0x05, Instr.vpdRead, fun (_ : Dev) (m : MgmtMsg) => miVpd m.nmd0 m.nmd1),
      (0xC0, Instr.standby, fun (d : Dev) (_ : MgmtMsg) => d.miStandby.2),
      (0xC1, Instr.readDeviceState, fun (d : Dev) (_ : MgmtMsg) => (miSuccess, 0, d.deviceState))],
    ∀ (s : State) (m : MgmtMsg) (r : MiAns), NextMi s.dev.sweep m row.1 →
      (s.dev.sweep.mgmtLevel = 3 → r = row.2.2 s.dev.sweep m → Does row.2.1 s fun d => Answered s.dev.sweep d m (miResponse m r.1 r.2.1 r.2.2))
      ∧ (row.1 ≠ 0xC1 → s.dev.sweep.mgmtLevel ∈ [1, 2] → Does row.2.1 s fun d => Answered s.dev.sweep d m (miResponse m miInternal 0 [])))
  ∧ (∀ (s : State) (m : MgmtMsg), NextMi s.dev.sweep m 0xC0 → s.dev.sweep.mgmtLevel = 3 → s.dev.sweep.cfgv 0x00A 3 ≠ 0 → s.dev.sweep.enabledCtrls = [] →
    Does .standby s fun d => d.pwr.entering = true ∧ d.pwr.target = 5)
  ∧ (∀ (s : State) (m : MgmtMsg) (op : Nat), s.dev.sweep.nextMsg = some m → m.mtype = 4 → m.nmimt = 2 → bitOf (leAt m.body 1 1) 7 = false →
    s.dev.sweep.lcTunnel m = false → op = leAt m.body 4 1 → s.dev.sweep.mgmtLevel = 3 →
    (op ∉ [0x02, 0x06, 0x0A] → Does .tunnelledAdmin s fun d => Answered s.dev.sweep d m (miResponse m miInvalidOpcode 0 []))
    ∧ (op ∈ [0x02, 0x06, 0x0A] → Does .tunnelledAdmin s fun d => ∃ st b, Answered s.dev.sweep d m (miResponse m st 0 b)))
  ∧ (∀ (code : BitVec 8) (s : State), s.dev.walk.i3c = false → s.dev.mgmtLevel ≠ 0 → (code = 0 ∨ code = 8) →
    Does (.basicManagementCommand code) s fun d => ∃ b, d.outputs = .smbus b :: s.dev.outputs)
  ∧ (∀ (p : Pen) (s : State) (x : PenSt), s.dev.pen p.val = some x →
    (s.dev.adminReady p.val 0x1D = true → Does (.nvmeMiSend p) s (EndedWith p.val x 0 miInvalidOpcode))
    ∧ (s.dev.adminReady p.val 0x1E = true → s.dev.moversHalted x.ctrl = false → (s.dev.core 1).run ≠ .inReset →
      Does (.nvmeMiReceive p) s (EndedWith p.val x 0 (miDw0 (s.dev.miInBand (x.dw 11 % 256) (x.dw 12) (x.dw 13))))))

/-- The rows of the SPDM responder by request code. -/
def Sys2Proof.Safety.SpdmRow (row : Nat × (Via → Bytes → Instr)) : Prop := row ∈
  ([(0x84, fun v m => .getVersion v m), (0xE1, fun v m => .getCapabilities v m), (0xE3, fun v m => .negotiateAlgorithms v m),
   (0x81, fun v m => .getDigests v m), (0x82, fun v m => .getCertificate v m), (0x83, fun v m => .challenge v m),
   (0xE0, fun v m => .getMeasurements v m), (0x86, fun v m => .chunkGet v m), (0x85, fun v m => .chunkSend v m)] : List (Nat × (Via → Bytes → Instr)))
/-- Over NVMe, a request of a row's code in an admin pen that is ready, protocol 0xE8, with Fold firmware running, completes and its answer
waits for the controller's Security Receive; on an out-of-band path the next message is answered and leaves, by a boot ROM that has halted
with an error. A Decommissioned device answers GET_VERSION and GET_CAPABILITIES; any other message it drops. GET_VERSION from any requester
begins a connection in its first phase, also for one whose connection was displaced, where any other request is answered with request
resynchronisation. GET_CAPABILITIES outside the first phase, NEGOTIATE_ALGORITHMS outside the second and the others outside the third are
answered as unexpected, their phase standing. (SPDM's codes and layouts are PRESUMED, log 37.) (R367, R368, R410, R503) -/
def Obligations.SpdmResponder : Prop :=
  (∀ row, SpdmRow row → ∀ (m : Bytes) (s : State), leAt m 1 1 = row.1 → (s.dev.sweep.fold.lc ≠ 3 ∨ row.1 = 0x84 ∨ row.1 = 0xE1) →
    (∀ (p : Pen) (x : PenSt) (r : Dev × Bytes), s.dev.sweep.pen p.val = some x → s.dev.sweep.adminReady p.val 0x81 = true → s.dev.sweep.secp p.val = 0xE8 →
      s.dev.sweep.fold.inReset = false → (s.dev.sweep.core 0).released = true → r = s.dev.sweep.spdmServe (512 + x.ctrl) m →
      Does (row.2 (.host p) m) s fun d => EndedWith p.val x 0 0 d ∧ d.spdm.replies.get? x.ctrl = some r.2 ∧ d.spdm.conns = r.1.spdm.conns)
    ∧ (∀ (e : BitVec 8) (x : MgmtMsg) (r : Dev × Bytes), s.dev.sweep.nextMsg = some x → x.mtype = 5 → x.path = .walk → x.src = e.toNat → x.body = m →
      r = s.dev.sweep.spdmServe e.toNat m →
      (2 ≤ s.dev.sweep.mgmtLevel → Does (row.2 (.walk e) m) s fun d => Answered s.dev.sweep d x r.2 ∧ d.spdm.conns = r.1.spdm.conns)
      ∧ (s.dev.sweep.mgmtLevel = 1 → Does (row.2 (.walk e) m) s fun d =>
          Answered s.dev.sweep d x (if s.dev.sweep.fold.lc = 3 then r.2 else spdmError errUnexpected)))
    ∧ (∀ (e : BitVec 8) (x : MgmtMsg) (r : Dev × Bytes), s.dev.sweep.nextMsg = some x → x.mtype = 5 → x.path = .i3c → x.src = e.toNat → x.body = m →
      r = s.dev.sweep.spdmServe (256 + e.toNat) m → 2 ≤ s.dev.sweep.mgmtLevel →
      Does (row.2 (.i3c e) m) s fun d => Answered s.dev.sweep d x r.2 ∧ d.spdm.conns = r.1.spdm.conns))
  ∧ (∀ row, SpdmRow row → ∀ (m : Bytes) (s : State) (e : BitVec 8) (x : MgmtMsg), leAt m 1 1 = row.1 → s.dev.sweep.fold.lc = 3 → row.1 ≠ 0x84 →
    row.1 ≠ 0xE1 → s.dev.sweep.nextMsg = some x → x.mtype = 5 → x.path = .walk → x.src = e.toNat → x.body = m → s.dev.sweep.mgmtLevel ≠ 0 →
    Gives (row.2 (.walk e) m) s (s.dev.sweep.mgmtDrop x))
  ∧ (∀ (d : Dev) (peer : Nat) (m : Bytes),
    (leAt m 1 1 = 0x84 → ((d.spdmServe peer m).1.spdm.conn peer).phase = 1 ∧ (d.spdmServe peer m).2 = spdmMsg 0x04 0 0 (leBytes 1 0 ++ leBytes 1 1 ++ leBytes 2 0x1300))
    ∧ (leAt m 1 1 ≠ 0x84 → d.spdm.displaced.contains peer = true → (d.spdmServe peer m).2 = spdmError errResynch)
    ∧ (d.spdm.displaced.contains peer = false →
      ((leAt m 1 1 = 0xE1 ∧ (d.spdm.conn peer).phase ≠ 1) ∨ (leAt m 1 1 = 0xE3 ∧ (d.spdm.conn peer).phase ≠ 2)
        ∨ (leAt m 1 1 ∈ [0x81, 0x82, 0x83, 0xE0] ∧ (d.spdm.conn peer).phase ≠ 3)) →
      (d.spdmServe peer m).2 = spdmError errUnexpected ∧ ((d.spdmServe peer m).1.spdm.conn peer).phase = (d.spdm.conn peer).phase))

/-- The die's operations are one operation and those behind it. -/
def Sys2Proof.Safety.FrontOp (d : Dev) (die : DieId) (o : DieOp) (rest : List DieOp) : Prop := d.dieOps die.toNat = o :: rest ∧ o.desc.die = die.toNat
/-- An operation that has ended with a status and retry steps. -/
def Sys2Proof.Safety.endedOp (o : DieOp) (st steps : Nat) : DieOp := { o with stage := .ended, status := st, steps := steps }
/-- An idle die starts its first queued operation when the channel may, but a program or erase lets the next queued read by while it may be
bypassed; a busy die starts none. A program's bytes transfer and its TAG is released. Completion ends the operation with its status: an
erase empties the block group, a program's unit reads back what was written, a failed one has status 4 or 5 and a record, a read retried
within the steps 1, a failed one 2. A suspendable operation past its minimum time suspends for a read, its report or a 100 us time-out
follows, and it resumes when no read can run. A time-out ends it with status 6. A RELEASE read pops a TAG. Bring-up finds the ready,
supported dies and trains; a lost training is a fault and a retrain. A work item is consumed into its die's queue, and the release of a
transferred program is posted as a result. (R184, R191, R193, R194, R196, R197, R198, R199, R209, R210, R212) -/
def Obligations.DieOperations : Prop :=
  (∀ (die : DieId) (s : State) (o : DieOp) (rest : List DieOp), FrontOp s.dev die o rest → o.stage = .queued → (∀ r ∈ rest, r.stage = .queued) →
    s.dev.mayStart die.toNat o = true →
    ((o.isPE = false ∨ ((∀ r ∈ rest, r.desc.isRead = false)
        ∧ s.dev.markedRun (chanBuffer (die.toNat / 32) + o.desc.buf) (o.desc.len + o.desc.spareLen) = false)) →
      Does (.arrayOperationStart die) s fun d => d.dieOps die.toNat = { o with stage := .running, startedAt := s.dev.now } :: rest)
    ∧ (∀ r t, rest = r :: t → r.desc.isRead = true → o.isPE = true → (o.desc.op = 4 ∨ o.bypassed < s.dev.cfgv (0x100 + die.toNat / 32) 6) →
      s.dev.mayStart die.toNat r = true → Does (.arrayOperationStart die) s fun d =>
        d.dieOps die.toNat = { o with bypassed := o.bypassed + 1 } :: { r with stage := .running, startedAt := s.dev.now } :: t))
  ∧ (∀ (die : DieId) (s : State), (∃ o ∈ s.dev.dieOps die.toNat, o.active = true) → Gives (.arrayOperationStart die) s s.dev)
  ∧ (∀ (die : DieId) (s : State) (o : DieOp) (rest : List DieOp) (b : Bytes), FrontOp s.dev die o rest → o.stage = .running → o.desc.isProgram = true →
    o.transferred = false → b = s.dev.bytes (chanBuffer (die.toNat / 32) + o.desc.buf) (o.desc.len + o.desc.spareLen) →
    Does (.programDataTransferred die) s fun d => d.dieOps die.toNat = { o with transferred := true, data := b } :: rest ∧ d.mem = s.dev.mem
      ∧ (o.origin = .fop → (d.chan (die.toNat / 32)).release = (s.dev.chan (die.toNat / 32)).release ++ [o.desc.tag]))
  ∧ (∀ (die : DieId) (s : State) (o : DieOp) (rest : List DieOp) (p : Nat), FrontOp s.dev die o rest → o.active = true → p = s.dev.dieP die.toNat →
    (o.desc.op = 4 → Does (.dieOperationComplete die .ok) s fun d => d.dieOps die.toNat = endedOp o 0 0 :: rest
      ∧ (∀ k, slotKey die.toNat (slotOfCw p (4 * (o.desc.block / 4)) 0 0) ≤ k →
          k < slotKey die.toNat (slotOfCw p (4 * (o.desc.block / 4) + 4) 0 0) → d.cwAt k = none) ∧ d.mem = s.dev.mem)
    ∧ (o.desc.op = 2 ∨ o.desc.op = 3 → o.transferred = true → o.desc.ldpcBypass = false →
        (o.desc.len = 4096 → Does (.dieOperationComplete die .ok) s fun d => d.dieOps die.toNat = endedOp o 0 0 :: rest
          ∧ ∃ c, d.cwAt (slotKey die.toNat (s.dev.opSlot o.desc 0)) = some c ∧ c.data = sliceOf o.data 0 4096 ∧ c.spare = sliceOf o.data 4096 32
            ∧ c.cond = .good)
        ∧ ∀ u, Does (.dieOperationComplete die (.failed u)) s fun d => d.dieOps die.toNat = endedOp o 4 0 :: rest
          ∧ (d.src (0x100 + die.toNat / 32)).next = (s.dev.src (0x100 + die.toNat / 32)).next + 1)
    ∧ (o.desc.op = 4 → ∀ u, Does (.dieOperationComplete die (.failed u)) s fun d => d.dieOps die.toNat = endedOp o 5 0 :: rest
        ∧ (d.src (0x100 + die.toNat / 32)).next = (s.dev.src (0x100 + die.toNat / 32)).next + 1)
    ∧ (o.desc.op = 1 → Does (.dieOperationComplete die .ok) s fun d => d.dieOps die.toNat = endedOp o 0 0 :: rest)
    ∧ (o.desc.op = 1 → o.desc.rlset = 0 → ∀ n : BitVec 4, n ≠ 0 → n.toNat ≤ s.dev.cfgv (0x100 + die.toNat / 32) 4 →
        Does (.dieOperationComplete die (.retried n)) s fun d => d.dieOps die.toNat = endedOp o 1 n.toNat :: rest)
    ∧ (o.desc.op = 1 → o.desc.rlset = 0 → ∀ u, Does (.dieOperationComplete die (.failed u)) s fun d =>
        d.dieOps die.toNat = endedOp o 2 (s.dev.cfgv (0x100 + die.toNat / 32) 4) :: rest ∧ (d.chan (die.toNat / 32)).decodeFail = true))
  ∧ (∀ (die : DieId) (s : State) (o : DieOp) (rest : List DieOp), FrontOp s.dev die o rest →
    (o.stage = .running → o.startedAt + s.dev.cfgv (0x100 + die.toNat / 32) (if o.desc.isProgram then 7 else 8) * 1000 ≤ s.dev.now →
      s.dev.maySuspend die.toNat o = true → Does (.programSuspend die) s fun d => d.dieOps die.toNat = { o with stage := .suspending } :: rest)
    ∧ (o.stage = .suspending → (∀ r ∈ rest, r.stage ≠ .suspending) →
      (Does (.suspendAcknowledged die) s fun d => d.dieOps die.toNat =
        { o with stage := .suspended, ranNs := o.ranNs + (s.dev.now - o.startedAt), suspensions := o.suspensions + 1, readsRun := 0 } :: rest)
      ∧ (Does (.suspendTimeout die) s fun d => d.dieOps die.toNat = { o with stage := .running, suspensions := o.suspensions + 1 } :: rest
        ∧ (d.chan (die.toNat / 32)).faultSusp = true
        ∧ (d.src (0x100 + die.toNat / 32)).next = (s.dev.src (0x100 + die.toNat / 32)).next + 1))
    ∧ (o.stage = .suspended → (∀ r ∈ rest, r.active = false) → s.dev.suspendedRead die.toNat o = none → Does (.programResume die) s fun d =>
        d.dieOps die.toNat = { o with stage := .running, startedAt := s.dev.now } :: rest)
    ∧ (rest = [] → o.active = true → Does (.dieBusyTimeout die) s fun d => d.dieOps die.toNat = [endedOp o 6 0]
        ∧ (d.die die.toNat).timeouts = (s.dev.die die.toNat).timeouts + 1 ∧ (s.dev.src (0x100 + die.toNat / 32)).next < (d.src (0x100 + die.toNat / 32)).next))
  ∧ (∀ (core : CoreId) (ch : Chan) (s : State) (t : Nat) (r : List Nat), (s.dev.chan ch.val).release = t :: r → Does (.chnReleaseRead core ch) s fun d =>
      (d.chan ch.val).release = r ∧ ∃ a, d.outputs = .regRead core.val a (t + 2 ^ 31) :: s.dev.outputs)
  ∧ (∀ (ch : Chan) (dies : List DieInfo) (fails : BitVec 5) (s : State), (s.dev.chan ch.val).up = false → (s.dev.core (droverOf ch.val)).released = true →
    s.dev.padOn (corePad (droverOf ch.val)) = true → (∃ x ∈ dies, x.ready = true ∧ x.supported = true) →
    Does (.channelBringUp ch dies fails) s fun d =>
      (∀ i, i < 32 → bitOf (d.chan ch.val).diemap i = dies.any (fun x => x.ready && x.supported && x.index.val == i))
      ∧ (∀ r, (d.chanRates ch.val)[fails.toNat / 3]? = some r → (d.chan ch.val).up = true ∧ (d.chan ch.val).rate = r)
      ∧ ((d.chanRates ch.val)[fails.toNat / 3]? = none → (d.chan ch.val).up = false ∧ (d.chan ch.val).faultTrain = true))
  ∧ (∀ (ch : Chan) (lost : Bool) (fails : BitVec 5) (s : State), (s.dev.chan ch.val).up = true →
    (lost = false → Gives (.dqsCheck ch lost fails) s s.dev)
    ∧ (∀ r, lost = true → (s.dev.trainRates ch.val)[fails.toNat / 3]? = some r → Does (.dqsCheck ch lost fails) s fun d => (d.chan ch.val).up = true
      ∧ (d.chan ch.val).faultLink = true ∧ (d.chan ch.val).rate = r))
  ∧ (∀ (ch : Nat) (d : Dev) (i r : Nat), (d.chanRates ch)[i]? = some r → r ≤ d.cfgv (0x100 + ch) 1
      ∧ (8 ≤ r → d.cfgv (0x100 + ch) 2 = 1 ∧ bitOf (d.chan ch).extRates (r - 8) = true) ∧ (r < 8 → r ≤ (d.chan ch).onfiRate)
      ∧ ∀ q, (d.chanRates ch)[i + 1]? = some q → q < r ∧ 3 ≤ q)
  ∧ (∀ (v : Fin 32) (s : State) (b : Bytes) (w : WorkItem), (s.dev.core (9 + v.val)).released = true → s.dev.padOn (corePad (9 + v.val)) = true →
    (s.dev.drv v.val).quiesced = false → s.dev.pwr.pfEvt = false → (s.dev.drv v.val).held = [] → (s.dev.drv v.val).workHead ≠ (s.dev.drv v.val).workTail →
    b = s.dev.bytes (workAddr v.val (s.dev.drv v.val).workHead) 64 → w = WorkItem.ofBytes b → workInvalid b = false →
    s.dev.markedRun (workAddr v.val (s.dev.drv v.val).workHead) 64 = false →
    Does (.workItem v) s fun d => (d.drv v.val).workHead = ((s.dev.drv v.val).workHead + 1) % 1024 ∧ d.mem = s.dev.mem
      ∧ (s.dev.fopStatus v.val (w.fop false) = 0 → ∃ o, d.dieOps w.die = s.dev.dieOps w.die ++ [o] ∧ o.origin = .work w.ticket ∧ o.stage = .queued)
      ∧ (s.dev.fopStatus v.val (w.fop false) = 1 → (d.drv v.val).held = [w])
      ∧ (s.dev.fopStatus v.val (w.fop false) = 3 → (d.drv v.val).early = (s.dev.drv v.val).early ++ [(w.ticket, 7)]))
  ∧ (∀ (ticket : W32) (s : State), (∀ j ∈ s.dev.media.jobs, j.item.ticket ≠ ticket.toNat ∧ j.posted = true) → Gives (.resultPost ticket) s s.dev)
  ∧ (∀ (ticket : W32) (s : State) (j : WorkJob) (o : DieOp), s.dev.media.jobs = [j] → j.item.ticket = ticket.toNat → j.posted = true → j.released = false →
    (s.dev.drv (j.item.die / 128)).early = [] → s.dev.dieOps j.item.die = [o] → o.origin = .work ticket.toNat → o.desc.isProgram = true →
    o.transferred = true → Does (.resultPost ticket) s fun d => d.media.jobs = [{ j with released := true }]
      ∧ (d.drv (j.item.die / 128)).resTail = ((s.dev.drv (j.item.die / 128)).resTail + 1) % 1024 ∧ d.dieOps j.item.die = [o])

/-- A drove that may form is made Forming with the selected members, or a record is posted with fewer than 8 data members; its programmed
header opens it. A row whose units are all folded, a lamb slot erased, advances, and the last row, or an early close, begins Closing with
the next close numbers. With every unit programmed the summary rows start the verify; a verify without failures closes the drove and
releases its lamb slots. A parity member that fails is narrowed and its row excluded. A lamb block of released slots and no header gets its
BEGIN record; while that waits for its page nothing happens, and with it on flash the block is erased and END recorded. Replay moves to the
rebuild phase; replay consumed empties the dumps; the rebuild ends with the map cache enabled and empty and no phase left. (R239, R245,
R246, R253, R256, R257, R259, R261, R267) -/
def Obligations.DrovesAndJournal : Prop :=
  (∀ (stream : Fin 64) (use : Fin 3) (s : State) (u : DroveUse) (ms : List (Nat × Nat)) (k : Nat),
    u = (if use = 0 then .host else if use = 1 then .gc else .wear) → k = s.dev.cfgv 7 2 + 1 →
    ms = s.dev.selectMembers (s.dev.streamGroup stream.val) (s.dev.cfgv 7 4 + k) (u == DroveUse.wear) →
    (s.dev.mayForm stream.val u = false → Gives (.droveForm stream use) s s.dev)
    ∧ (s.dev.mayForm stream.val u = true → ms.length - k < 8 → Does (.droveForm stream use) s fun d => d.drove = s.dev.drove
        ∧ (d.src 6).next = (s.dev.src 6).next + 1)
    ∧ (s.dev.mayForm stream.val u = true → 8 ≤ ms.length - k → Does (.droveForm stream use) s fun d =>
        d.drove.serialNum = s.dev.drove.serialNum + 1 ∧ ∃ x, d.drv? s.dev.drove.serialNum = some x ∧ x.state = 1 ∧ x.n = ms.length - k ∧ x.k = k
          ∧ x.stream = stream.val ∧ x.use = u ∧ x.nextRow = 0 ∧ x.serial = s.dev.drove.serialNum))
  ∧ (∀ (serial : W32) (s : State) (x : Drove), s.dev.drv? serial.toNat = some x → x.serial = serial.toNat →
    (x.state = 1 → s.dev.lambFree [] ≠ none → Does (.droveHeaderProgrammed serial) s fun d => ∃ y, d.drv? serial.toNat = some y ∧ y.state = 2
      ∧ y.gen = x.gen + 2 ∧ y.members = x.members)
    ∧ (x.state ≠ 1 → Gives (.droveHeaderProgrammed serial) s s.dev)
    ∧ (x.state = 2 → s.dev.drove.stopped = false → x.active ≠ [] → (∀ i ∈ x.active, i ∈ x.rowDone) →
        s.dev.lambFree ((x.dataIdx ++ x.parityIdx).map (fun i => (x.member i).die / 32)) ≠ none → Does (.rowComplete serial) s fun d =>
          ∃ y, d.drv? serial.toNat = some y ∧ y.nextRow = x.nextRow + 1
            ∧ ((x.dataRows ≤ x.nextRow + 1 ∨ x.closeEarly = true) → y.state = 3 ∧ y.closeFirst = s.dev.drove.closeNum
                ∧ d.drove.closeNum = s.dev.drove.closeNum + x.n))
    ∧ (x.state = 2 → (∃ i ∈ x.active, i ∉ x.rowDone) → Gives (.rowComplete serial) s s.dev)
    ∧ (x.state = 3 → s.dev.drove.stopped = false → (∀ u ∈ s.dev.drove.units, u.serial = serial.toNat → u.success = true) →
        Does (.summaryRowsProgrammed serial) s fun d => ∃ y, d.drv? serial.toNat = some y ∧ y.state = 4 ∧ y.nextRow = x.w)
    ∧ (x.state = 4 → s.dev.drove.stopped = false → Does (.verifyResult serial 0) s fun d => (∃ y, d.drv? serial.toNat = some y ∧ y.state = 5
        ∧ y.slot = none ∧ y.closedAt = s.dev.now ∧ y.members = x.members)
        ∧ (∀ e ∈ d.drove.lamb, e.2.serial = serial.toNat → e.2.released = true) ∧ d.drove.closedEvt = true)
    ∧ (∀ i st rest u, x.failedMembers = (i, st) :: rest → i ∈ [30, 31] → (x.member i).mstate = 2 → x.excl.length < 3 → s.dev.drove.stopped = false →
        (∀ j ∈ x.dataIdx, (x.member j).mstate ≠ 3 ∧ (x.member j).mstate ≠ 4) →
        s.dev.drove.units.filter (fun v => v.serial == serial.toNat && v.member == i && v.failed) = [u] → u.row < 0xFFFF →
        Does (.memberProgramFail serial) s fun d => ∃ y, d.drv? serial.toNat = some y ∧ (y.member i).mstate = 3 ∧ (y.member i).endRow = u.row
          ∧ y.excl = x.excl ++ [(u.row, i)] ∧ y.failedMembers = rest)
    ∧ (x.failedMembers = [] → (∀ j ∈ x.dataIdx, (x.member j).mstate ≠ 3 ∧ (x.member j).mstate ≠ 4) → Gives (.memberProgramFail serial) s s.dev))
  ∧ (∀ (i : BitVec 12) (s : State) (b : Nat × Nat) (mine : List (Nat × LambSlot)), s.dev.lambBlock i.toNat = some b → i.toNat < s.dev.lambBlocks →
    mine = s.dev.drove.lamb.filter (fun e => decide (s.dev.lambPer ≠ 0) && e.1 / s.dev.lambPer == i.toNat) → s.dev.drove.stopped = false →
    ((∃ e ∈ mine, e.2.released = false) → Gives (.lambBlockErase i) s s.dev)
    ∧ ((∀ e ∈ mine, e.2.released = true ∧ e.2.headers = []) → s.dev.blkState b.1 b.2 ≠ 4 →
        (mine ≠ [] → s.dev.drove.begunBlks.get? (b.1 * 4096 + b.2) = none → Does (.lambBlockErase i) s fun d =>
          d.drove.lamb = s.dev.drove.lamb ∧ d.drove.begunBlks.get? (b.1 * 4096 + b.2) = some 0
          ∧ ∃ r, d.drove.elog.pending = s.dev.drove.elog.pending ++ [r] ∧ r.type = 1 ∧ r.die = b.1 ∧ r.grp = b.2)
        ∧ (s.dev.drove.begunBlks.get? (b.1 * 4096 + b.2) ≠ none → s.dev.begun b.1 b.2 = false → Gives (.lambBlockErase i) s s.dev)
        ∧ (s.dev.begun b.1 b.2 = true → (∀ e ∈ s.dev.drove.droves, e.2.hdrOnFlash = true) → Does (.lambBlockErase i) s fun d =>
          (∀ e ∈ d.drove.lamb, e.1 / s.dev.lambPer ≠ i.toNat) ∧ d.drove.droves = s.dev.drove.droves
          ∧ d.drove.begunBlks.get? (b.1 * 4096 + b.2) = none
          ∧ ∃ r, d.drove.elog.pending = s.dev.drove.elog.pending ++ [r] ∧ r.type = 2 ∧ r.die = b.1 ∧ r.grp = b.2)))
  ∧ (∀ (badA badB : List (BitVec 16)) (bad : List (BitVec 38)) (s : State),
    (s.dev.mapc.rbPhase ≠ 1 → Gives (.journalReplay badA badB bad) s s.dev)
    ∧ (s.dev.mapc.rbPhase = 1 → s.dev.drove.fixed = none → s.dev.ilu.newestDesc = none → Does (.journalReplay badA badB bad) s fun d =>
        d.mapc.rbPhase = 2 ∧ d.drove.units = [] ∧ d.drove.stopped = false ∧ d.ilu = s.dev.ilu))
  ∧ (∀ (s : State), (s.dev.drove.replayDone = true → s.dev.drove.stopped = false → s.dev.drove.replayUnits = [] → Does .replayConsumed s fun d =>
        d.drove.dumps = [] ∧ d.drove.gensHeld = 0 ∧ d.drove.units = s.dev.drove.units)
    ∧ (s.dev.drove.replayDone = false → Gives .replayConsumed s s.dev))
  ∧ (∀ (bad : List (BitVec 38)) (ms : W32) (s : State),
    (s.dev.mapc.rbPhase = 2 → Does (.mapRebuild bad ms) s fun d => d.mapc.rbPhase = 0 ∧ d.mapc.state = 1 ∧ d.mapc.enable = true ∧ d.mapc.lines = []
        ∧ d.mapc.rbMs = ms.toNat ∧ (s.dev.fold.stage = 8 → d.fold.stage = 9))
    ∧ (s.dev.mapc.rbPhase ≠ 2 → Gives (.mapRebuild bad ms) s s.dev))

/-- An operation may be served now: its line has nothing waiting and no repair. -/
def Sys2Proof.Safety.MapReady (d : Dev) (diu : Nat) : Prop :=
  d.diuOk diu = true ∧ (∀ o ∈ d.mapc.waiting, lineOf o.diu ≠ lineOf diu) ∧ d.underRepair diu = false
/-- The answer MAPC gives: the entry found and whether one was written. -/
def Sys2Proof.Safety.MapAnswered (d : Dev) (diu e : Nat) (w : Bool) : Prop := d.mapc.answer = some (diu, e, w)
/-- With the cache disabled, an operation on a DIU within the map, none waiting on its line, no repair and no marked word in the way, is
answered from DRAM: a lookup changes no byte, an update stores its entry, a conditional update stores it only if the entry names the source
slot. With the line in a clean or dirty way it is answered there and an update makes the way dirty. A returned fill makes the line Clean
with DRAM's bytes. A write-back accepted stores the line's bytes and nothing else, and the way fills for the line that waited. Clearing
ENABLE keeps only the lines to write back; the flush ends when none is left; setting it empties a disabled cache. CLEAN leaves no dirty
line. A repair, or its release, frees its slot. (R32, R216, R330, R351, R352, R355, R356, R357, R358) -/
def Obligations.MapCache : Prop :=
  (∀ (diu : BitVec 36) (entry : BitVec 40) (source : BitVec 38) (s : State) (e : Nat), MapReady s.dev diu.toNat → s.dev.mapc.state = 0 →
    (∀ w ∈ entryWords diu.toNat, s.dev.marked (lineAddr (lineOf diu.toNat) + 8 * w) = false) → e = ofLe (s.dev.bytes (entryAddr diu.toNat) 5) →
    (Does (.mapcLookup diu) s fun d => MapAnswered d diu.toNat e false ∧ d.mem = s.dev.mem
      ∧ d.mapc.lookups = min 0xFFFFFFFF (s.dev.mapc.lookups + 1))
    ∧ (Does (.mapcUpdate diu entry) s fun d => MapAnswered d diu.toNat e true
      ∧ d.mem = memSetRun (entryAddr diu.toNat) (leBytes 5 entry.toNat) s.dev.mem)
    ∧ (entNames e source.toNat = true → Does (.mapcConditionalUpdate diu entry source) s fun d => MapAnswered d diu.toNat e true
      ∧ d.mem = memSetRun (entryAddr diu.toNat) (leBytes 5 entry.toNat) s.dev.mem)
    ∧ (entNames e source.toNat = false → Does (.mapcConditionalUpdate diu entry source) s fun d => MapAnswered d diu.toNat e false
      ∧ d.mem = s.dev.mem))
  ∧ (∀ (diu : BitVec 36) (entry : BitVec 40) (s : State) (k : Nat), MapReady s.dev diu.toNat → s.dev.mapc.state = 1 →
    s.dev.setOff (setOf (lineOf diu.toNat)) = false → s.dev.findLine (lineOf diu.toNat) = some k →
    ((s.dev.way k).st = .clean ∨ (s.dev.way k).st = .dirty) → (s.dev.way k).marks = [] →
    (Does (.mapcLookup diu) s fun d => MapAnswered d diu.toNat (entryIn (s.dev.way k).data diu.toNat) false ∧ d.mem = s.dev.mem
      ∧ d.mapc.lines = s.dev.mapc.lines)
    ∧ (Does (.mapcUpdate diu entry) s fun d => MapAnswered d diu.toNat (entryIn (s.dev.way k).data diu.toNat) true ∧ d.mem = s.dev.mem
      ∧ d.way k = { s.dev.way k with data := entryPut (s.dev.way k).data diu.toNat entry.toNat, st := .dirty }))
  ∧ (∀ (line : BitVec 31) (s : State) (k : Nat), s.dev.mapc.waiting = [] → s.dev.mapc.state = 1 → s.dev.findLine line.toNat = some k →
    ((s.dev.way k).st = .filling → s.dev.dramMarks line.toNat = [] → Does (.mapCacheFillReturn line) s fun d =>
      d.way k = { s.dev.way k with st := .clean, data := s.dev.bytes (lineAddr line.toNat) 160, prefetch := false } ∧ d.mem = s.dev.mem)
    ∧ ((s.dev.way k).st ≠ .filling → Gives (.mapCacheFillReturn line) s s.dev)
    ∧ ((s.dev.way k).st = .evicting → (s.dev.way k).marks = [] → Does (.mapCacheWritebackAccepted line) s fun d =>
      d.mem = memSetRun (lineAddr line.toNat) (s.dev.way k).data s.dev.mem
      ∧ (∀ n, (s.dev.way k).next = some n → (d.way k).st = .filling ∧ (d.way k).line = n) ∧ ((s.dev.way k).next = none → (d.way k).st = .invalid))
    ∧ ((s.dev.way k).st ≠ .evicting → Gives (.mapCacheWritebackAccepted line) s s.dev))
  ∧ (∀ (s : State), (s.dev.mapc.state = 1 → s.dev.mapc.waiting = [] → Does .mapcEnableClear s fun d => d.mapc.enable = false ∧ d.mapc.state = 2
        ∧ (∀ e ∈ d.mapc.lines, e.2.st = .dirty ∨ e.2.st = .evicting) ∧ d.mem = s.dev.mem)
    ∧ (s.dev.mapc.state = 0 → Does .mapcEnableSet s fun d => d.mapc.enable = true ∧ d.mapc.state = 1 ∧ d.mapc.lines = [] ∧ d.mem = s.dev.mem)
    ∧ (s.dev.mapc.state ≠ 0 → Gives .mapcEnableSet s s.dev)
    ∧ (s.dev.mapc.state = 2 → s.dev.mapc.lines = [] → Does .mapcFlushDone s fun d => d.mapc = { s.dev.mapc with state := 0, flushDone := true })
    ∧ (s.dev.mapc.lines ≠ [] → Gives .mapcFlushDone s s.dev)
    ∧ (s.dev.mapc.state = 1 → s.dev.mapc.lines.wf = true → Does .clean s fun d => d.mapc.cleanDone = true ∧ (∀ e ∈ d.mapc.lines, e.2.st ≠ .dirty)
        ∧ d.mapc.lines.length = s.dev.mapc.lines.length))
  ∧ (∀ (k : Fin 4) (bad : List (BitVec 38)) (s : State), s.dev.mapc.waiting = [] →
    (Does (.repairRelease k) s fun d => (d.repairSlot k.val).valid = false ∧ (∀ j, j ≠ k.val → d.repairSlot j = s.dev.repairSlot j) ∧ d.mem = s.dev.mem)
    ∧ ((s.dev.repairSlot k.val).valid = false → Gives (.mapRepair k bad) s s.dev.rebuildMeta)
    ∧ ((s.dev.repairSlot k.val).valid = true → Does (.mapRepair k bad) s fun d => (d.repairSlot k.val).valid = false
      ∧ s.dev.mapc.lines = d.mapc.lines ∧ d.drove = s.dev.drove))

/-- A cycle starts on the chosen victim where background work may run and the group has fewer than two, and with nothing left to copy it
passes to its next step; with its destinations closed it records the read epoch; once that has drained and no valid IU is left its blocks
are handed on and it passes on; with every block erased, retired or lost the drove is Released and the cycle ends. The epoch advances unless
the one 15 behind is counted. A due page of the erase log takes its 510 oldest records; the period's expiry makes the oldest due. A block to
erase gets its BEGIN record, then its erase. A marked block no drove holds gets its RETIRE record. Wear levelling starts above WEAR_SPREAD
and stops at three quarters of it. (R279, R281, R285, R289, R291, R293, R294, R295) -/
def Obligations.Collection : Prop :=
  (∀ (grp : Fin 8) (s : State), s.dev.drove.stopped = false → s.dev.mapc.rbPhase = 0 → s.dev.cyclesOn = true →
    (s.dev.drove.cycles.filter (fun c => c.group == grp.val)).length < 2 →
    (∀ x wear, s.dev.chooseVictim grp.val = some (x, wear) → Does (.gcCycleStart grp) s fun d => ∃ c, d.drove.cycles = s.dev.drove.cycles ++ [c]
      ∧ c.victim = x.serial ∧ c.group = grp.val ∧ c.step = 2 ∧ c.wear = wear ∧ c.copies = [])
    ∧ (s.dev.chooseVictim grp.val = none → Gives (.gcCycleStart grp) s s.dev))
  ∧ (∀ (grp : Fin 8) (s : State), (s.dev.drove.stopped = true ∨ s.dev.cyclesOn = false) → Gives (.gcCycleStart grp) s s.dev)
  ∧ (∀ (serial : W32) (bad : List (BitVec 38)) (s : State) (x : Drove) (c : GcCycle), s.dev.drv? serial.toNat = some x → x.serial = serial.toNat →
    s.dev.cycle? serial.toNat = some c →
    (c.step = 2 → s.dev.drove.stopped = false → s.dev.liveEntries (bad.map BitVec.toNat) x = [] → s.dev.liveTombs x = [] →
      Does (.copyBatch serial bad) s fun d => d.cycle? serial.toNat = some { c with step := 3 } ∧ d.mem = s.dev.mem)
    ∧ (c.step ≠ 2 → Gives (.copyBatch serial bad) s s.dev)
    ∧ (c.step = 3 → (∀ q ∈ c.dests, ∀ y, s.dev.drv? q = some y → y.state = 5 ∨ y.state = 7) → Does (.gcDestinationsClosed serial) s fun d =>
        d.cycle? serial.toNat = some { c with step := 4, epoch := s.dev.drove.epoch } ∧ d.mem = s.dev.mem)
    ∧ (c.step = 3 → (∃ q ∈ c.dests, ∃ y, s.dev.drv? q = some y ∧ y.state = 2) → Gives (.gcDestinationsClosed serial) s s.dev)
    ∧ (c.step = 4 → s.dev.epochDrained c.epoch = true → s.dev.repairsUsed = 0 → s.dev.validSum x = 0 → Does (.readEpochDrained serial) s fun d =>
        d.cycle? serial.toNat = some { c with step := 6 } ∧ (∀ p ∈ d.drove.passes, p.serial ≠ serial.toNat))
    ∧ (c.step = 4 → s.dev.epochDrained c.epoch = false → Gives (.readEpochDrained serial) s s.dev)
    ∧ (c.step = 6 → s.dev.drove.stopped = false → (∀ i ∈ x.dataIdx ++ x.parityIdx, s.dev.dieFailed (x.member i).die = true
          ∨ s.dev.blkState (x.member i).die (x.member i).grp = 0 ∨ s.dev.blkState (x.member i).die (x.member i).grp = 4) →
        Does (.droveRelease serial) s fun d => (∃ y, d.drv? serial.toNat = some y ∧ y.state = 7) ∧ d.cycle? serial.toNat = none
          ∧ (∀ e ∈ d.drove.lamb, e.2.serial = serial.toNat → e.2.released = true)))
  ∧ (∀ (s : State),
    (s.dev.epochCount (s.dev.drove.epoch + 1) = 0 → Gives .readEpochAdvance s { s.dev with drove := { s.dev.drove with epoch := s.dev.drove.epoch + 1 } })
    ∧ (s.dev.epochCount (s.dev.drove.epoch + 1) ≠ 0 → Gives .readEpochAdvance s s.dev))
  ∧ (∀ (s : State) (rs : List ElogRec), rs = s.dev.drove.elog.pending.take 510 → s.dev.drove.stopped = false → s.dev.elogDue = true →
    (s.dev.elogProgram (fun copy => elogPage 1 copy s.dev.drove.elog.seq s.dev.drove.elog.base rs.length 0 0 0 0 (rs.flatMap ElogRec.toBytes))).2 = true →
    Does .eraseLogPageProgram s fun d => d.drove.elog.pending = s.dev.drove.elog.pending.drop 510 ∧ s.dev.drove.elog.seq < d.drove.elog.seq)
  ∧ (∀ (s : State), (s.dev.elogDue = false → s.dev.drove.elog.census = false → Gives .eraseLogPageProgram s s.dev)
    ∧ (s.dev.drove.elog.pending = [] → Gives .eraseLogPeriodExpiry s s.dev)
    ∧ (∀ r t, s.dev.drove.elog.pending = r :: t → Does .eraseLogPeriodExpiry s fun d => r.createdAt + s.dev.cfgv 7 0x30 * 1000 ≤ d.now
        ∧ d.elogDue = true ∧ d.drove = s.dev.drove))
  ∧ (∀ (die : DieId) (g : BitVec 12) (s : State), s.dev.drove.stopped = false → s.dev.diePresent die.toNat = true → s.dev.dieFailed die.toNat = false →
    g.toNat < s.dev.dieGroups die.toNat → s.dev.blkState die.toNat g.toNat = 1 → s.dev.media.jobs = [] →
    (s.dev.drove.begunBlks.get? (die.toNat * 4096 + g.toNat) = none → s.dev.blkNamed die.toNat g.toNat = false → Does (.blockErase die g) s fun d =>
      d.drove.begunBlks.get? (die.toNat * 4096 + g.toNat) = some 0 ∧ d.media.jobs = []
      ∧ ∃ r, d.drove.elog.pending = s.dev.drove.elog.pending ++ [r] ∧ r.type = 1 ∧ r.die = die.toNat ∧ r.grp = g.toNat)
    ∧ (s.dev.begun die.toNat g.toNat = true → Does (.blockErase die g) s fun d => ∃ j q, d.media.jobs = [j] ∧ j.item.kind = 4 ∧ j.item.die = die.toNat
        ∧ j.item.block = 4 * g.toNat ∧ j.kind = .erase die.toNat g.toNat q))
  ∧ (∀ (die : DieId) (g : BitVec 12) (bad : List (BitVec 38)) (s : State),
    (s.dev.drove.retireMarks.get? (die.toNat * 4096 + g.toNat) = none → Gives (.retire die g bad) s s.dev)
    ∧ (∀ reason, s.dev.drove.retireMarks.get? (die.toNat * 4096 + g.toNat) = some reason → s.dev.blkState die.toNat g.toNat ≠ 4 →
        s.dev.drove.stopped = false → s.dev.ownerOf die.toNat g.toNat = none → s.dev.dieFailed die.toNat = false →
        (∀ r ∈ s.dev.drove.elog.pending, r.type ≠ 4) → Does (.retire die g bad) s fun d => ∃ r,
          d.drove.elog.pending = s.dev.drove.elog.pending ++ [r] ∧ r.type = 4 ∧ r.reason = reason ∧ r.die = die.toNat ∧ r.grp = g.toNat ∧ d.mem = s.dev.mem))
  ∧ (∀ (grp : Fin 8) (s : State), Does (.wearLevelling grp) s fun d => d.mem = s.dev.mem
      ∧ (s.dev.cfgv 0x011 1 < s.dev.wearSpread grp.val → d.drove.wearOn.get false grp.val = true)
      ∧ (s.dev.wearSpread grp.val ≤ s.dev.cfgv 0x011 1 * 3 / 4 → d.drove.wearOn.get false grp.val = false)
      ∧ (s.dev.wearSpread grp.val ≤ s.dev.cfgv 0x011 1 → s.dev.cfgv 0x011 1 * 3 / 4 < s.dev.wearSpread grp.val →
          d.drove.wearOn.get false grp.val = s.dev.drove.wearOn.get false grp.val))

/-- A declaration that changes nothing, or whose commit succeeds, waits no more; one whose commit fails waits and is tried again. A
declaration applied with no drove on it abandons the passes that write into failed dies. A rebuild pass begins for the drove whose turn it
is while the group has room, and a pass past its last row verifies. A verified pass switches its member to the spare block with MSTATE 5 and
ends. An evacuation that ends counts one and records the loss. A quiesce request with nothing open or in flight quiesces the Drover core at
once, and the close time-out ends it likewise. (R301, R302, R310, R311, R312, R316, R318) -/
def Obligations.MemberFailures : Prop :=
  (∀ (ch : Chan) (fails : TallyFails) (s : State) (v id : Nat), v = s.dev.declWanted ch.val → id = cfgId (0x100 + ch.val) 3 →
    (∀ c, (c = Instr.autoDeclare ch fails ∧ s.dev.cfgv 0x014 1 = 1) ∨ (c = Instr.declareRetry fails ∧ s.dev.drove.declPending = [ch.val]) →
      (v = s.dev.committed id → Does c s fun d => ch.val ∉ d.drove.declPending ∧ d.cfg = s.dev.cfg)
      ∧ (v ≠ s.dev.committed id → (s.dev.ownCommit none [(id, v)] fails).2 = 0 → Does c s fun d => ch.val ∉ d.drove.declPending
          ∧ d.cfg = (s.dev.ownCommit none [(id, v)] fails).1.cfg)
      ∧ (v ≠ s.dev.committed id → (s.dev.ownCommit none [(id, v)] fails).2 ≠ 0 → Does c s fun d => ch.val ∈ d.drove.declPending))
    ∧ (s.dev.cfgv 0x014 1 ≠ 1 → s.dev.dieLinkDown (ch.val / 32) = false → Gives (.autoDeclare ch fails) s s.dev)
    ∧ (s.dev.drove.declPending = [] → Gives (.declareRetry fails) s s.dev))
  ∧ (∀ (ch : Chan) (s : State), (∀ e ∈ s.dev.drove.droves, ∀ i ∈ e.2.dataIdx ++ e.2.parityIdx, (e.2.member i).die / 32 ≠ ch.val) →
    Does (.declarationApply ch) s fun d => d.drove.droves = s.dev.drove.droves
      ∧ (∀ p ∈ d.drove.passes, s.dev.dieFailed p.die = false) ∧ ((∀ p ∈ s.dev.drove.passes, s.dev.dieFailed p.die = false) → d.drove.passes = s.dev.drove.passes))
  ∧ (∀ (serial : W32) (bad : List (BitVec 38)) (fails : W32) (s : State) (x : Drove), s.dev.drv? serial.toNat = some x → x.serial = serial.toNat →
    ((s.dev.drove.stopped = true ∨ s.dev.rebuilds x.group = false ∨ s.dev.rebuildOn = false) → Gives (.memberRebuildPass serial bad fails) s s.dev)
    ∧ (s.dev.drove.stopped = false → s.dev.rebuilds x.group = true → s.dev.rebuildOn = true → s.dev.mapc.rbPhase = 0 →
      (s.dev.drove.passes = [] → 0 < s.dev.cfgv 0x014 0x22 → s.dev.nextRebuild x.group = some x → Does (.memberRebuildPass serial bad fails) s fun d =>
        d.drove.passes = s.dev.newPasses x ∧ d.drove.droves = s.dev.drove.droves)
      ∧ (∀ p, s.dev.drove.passes = [p] → p.serial = serial.toNat → p.verified = false → x.w ≤ p.row → bitOf fails.toNat p.member = false →
          (s.dev.drv (p.die / 128)).quiesced = false → Does (.memberRebuildPass serial bad fails) s fun d =>
            d.drove.passes = [{ p with verified := true }] ∧ d.mem = s.dev.mem)))
  ∧ (∀ (serial : W32) (s : State) (x : Drove) (p : RebuildPass), s.dev.drv? serial.toNat = some x → x.serial = serial.toNat → s.dev.drove.stopped = false →
    s.dev.drove.passes = [p] → p.serial = serial.toNat →
    (p.verified = true → s.dev.lambFree [] ≠ none → Does (.memberSwitch serial) s fun d => d.drove.passes = []
      ∧ d.drove.switched = min 0xFFFF (s.dev.drove.switched + 1)
      ∧ ∃ y, d.drv? serial.toNat = some y ∧ y.member p.member = { x.member p.member with die := p.die, grp := p.grp, mstate := 5 })
    ∧ (p.verified = false → Gives (.memberSwitch serial) s s.dev))
  ∧ (∀ (serial : W32) (bad : List (BitVec 38)) (s : State) (x : Drove), s.dev.drv? serial.toNat = some x →
    ((x.state ≠ 5 ∨ s.dev.validSum x = 0 ∨ s.dev.beyond (bad.map BitVec.toNat) x = false) → Gives (.evacuation serial bad) s s.dev)
    ∧ (Does (.evacuation serial bad) s fun d => d.drove.evacuated = s.dev.drove.evacuated
        ∨ (d.drove.evacuated = min 0xFFFF (s.dev.drove.evacuated + 1) ∧ d.drove.integrityLost = true)))
  ∧ (∀ (v : Fin 32) (s : State), s.dev.quiesceDroves v.val = [] → (∀ e ∈ s.dev.media.dies, e.1 / 128 = v.val → e.2.ops = []) →
    (∀ j ∈ s.dev.media.jobs, j.item.die / 128 = v.val → j.posted = false) →
    ((s.dev.core (9 + v.val)).e14 = true → (s.dev.drv v.val).quiescing = false → Does (.quiesceRequest v) s fun d => (d.drv v.val).quiescing = true
      ∧ (d.drv v.val).quiesced = true ∧ (d.drv v.val).quiesceAt = s.dev.now ∧ (d.core (9 + v.val)).e14 = false)
    ∧ ((s.dev.drv v.val).quiescing = true → (s.dev.drv v.val).quiesced = false → Does (.quiesceCloseTimeout v) s fun d => (d.drv v.val).quiesced = true
      ∧ (s.dev.drv v.val).quiesceAt + s.dev.cfgv 0x014 0x30 * 1000000 ≤ d.now))
  ∧ (∀ (v : Fin 32) (s : State), ((s.dev.core (9 + v.val)).e14 = false → Gives (.quiesceRequest v) s s.dev)
    ∧ ((s.dev.drv v.val).quiescing = false → Gives (.quiesceCloseTimeout v) s s.dev))

/-- A request in range on a channel that is up records its latency; where its codeword, or one a graze reads in an On paddock, is
uncorrectable both its words are marked and a record posted; a unit in staging there takes the mark. A graze of a paddock that is not On, or
while power state or throttling pauses graze, does nothing. A refresh latches a pending ZQ result; two polls at 1x in a row end 2x refresh
and a stronger need begins it. Drift beyond range makes a retrain due, which starts at its START or after TRAIN_DEFER_MS when no other
channel retrains. A first training up with fewer than six failed attempts succeeds, stepped after three; with six the channel has failed and
the device is in device fatal. The fill makes SRAM ready and, with every channel up, DRAM. A late NAND graze posts its record. A released
core that reaches a register window reads or writes its register; any other does nothing. (R323, R331, R336, R339, R344, R347, R348, R349,
R512) -/
def Obligations.DramAndRegisters : Prop :=
  (∀ (port : Fin 8) (a : BitVec 48) (lat : BitVec 16) (s : State) (x : DramAddr), x = dramDecode s.dev.pins.dramCfg s.dev.dram.order a.toNat →
    ((a.toNat < dramBase ∨ (s.dev.dch x.ch).up = false) → ∀ f, Gives (.dramRequest port a lat f) s s.dev)
    ∧ (dramBase ≤ a.toNat → a.toNat < dramBase + s.dev.dramSize → (s.dev.dch x.ch).up = true →
      (Does (.dramRequest port a lat .clean) s fun d => d.dram.maxlat.get 0 port.val = max (s.dev.dram.maxlat.get 0 port.val) lat.toNat
        ∧ d.marks = s.dev.marks ∧ d.mem = s.dev.mem)
      ∧ (Does (.dramRequest port a lat .uncorrectable) s fun d => d.marked a.toNat = true ∧ d.integ.mdi = s.dev.integ.mdi + 1 ∧ d.mem = s.dev.mem
        ∧ (d.dch x.ch).ue = min 0xFF ((s.dev.dch x.ch).ue + 1))
      ∧ (s.dev.pad (221 + x.ch) = 0 → s.dev.grazeOn = true →
        Does (.grazeRead (.memory a .uncorrectable)) s fun d => d.marked a.toNat = true ∧ d.integ.mdi = s.dev.integ.mdi + 1 ∧ d.mem = s.dev.mem)
      ∧ ((s.dev.pad (221 + x.ch) ≠ 0 ∨ s.dev.grazeOn = false) → ∀ f, Gives (.grazeRead (.memory a f)) s s.dev)))
  ∧ (∀ (a : BitVec 48) (s : State) (u : UnitSt) (k : Nat), inStaging a.toNat 1 = true → s.dev.stagedAt a.toNat = some (u, k) →
    (s.dev.pad (sramPad a.toNat) = 0 → s.dev.grazeOn = true → Does (.grazeRead (.memory a .uncorrectable)) s fun d => d.marked a.toNat = true
      ∧ d.integ.mdi = s.dev.integ.mdi + 1 ∧ (d.stagedAt a.toNat).map (fun e => e.2) = some k
      ∧ (∀ e c, d.stagedAt a.toNat = some e → e.1.cws.get? k = some c → c.marked = true))
    ∧ ((s.dev.pad (sramPad a.toNat) ≠ 0 ∨ s.dev.grazeOn = false) → ∀ f, Gives (.grazeRead (.memory a f)) s s.dev))
  ∧ (∀ (n : Fin 4) (s : State), ((s.dev.dch n.val).up = true →
      (s.dev.pad (221 + n.val) = 0 → Does (.dramRefresh n) s fun d => d.dch n.val = { s.dev.dch n.val with
        refreshes := (s.dev.dch n.val).refreshes + 1, zqPending := false })
      ∧ (Does (.zqCalibration n) s fun d => d.dch n.val = { s.dev.dch n.val with zqPending := true })
      ∧ ((s.dev.dch n.val).due = false → Does (.driftCheck n true) s fun d => d.dch n.val = { s.dev.dch n.val with due := true, dueAt := s.dev.now })
      ∧ Gives (.driftCheck n false) s s.dev)
    ∧ ((s.dev.dch n.val).up = false → Gives (.dramRefresh n) s s.dev ∧ Gives (.zqCalibration n) s s.dev))
  ∧ (∀ (need : Fin 3) (n : Fin 4) (s : State), (∃ c ∈ s.dev.dramPresent, (s.dev.dch c).up = true) → Does (.mr4Poll need n) s fun d =>
      (need = 0 → d.dram.ok1x = s.dev.dram.ok1x + 1 ∧ d.dram.ref2x = (s.dev.dram.ref2x && decide (s.dev.dram.ok1x = 0)))
      ∧ (need ≠ 0 → d.dram.ref2x = true ∧ d.dram.ok1x = 0)
      ∧ (need = 2 → d.thm.alert = true ∧ (d.src (0x014 + n.val)).next = (s.dev.src (0x014 + n.val)).next + 1))
  ∧ (∀ (n : Fin 4) (s : State), ((s.dev.dch n.val).due = true → (∀ e ∈ s.dev.dram.chans, e.2.busy = false) →
      (Does (.retrainStart n) s fun d => (d.dch n.val).busy = true ∧ (d.dch n.val).startQueued = false)
      ∧ (Does (.trainDeferExpiry n) s fun d => (d.dch n.val).busy = true
        ∧ (s.dev.dch n.val).dueAt + s.dev.cfgv 0x009 0x22 * 1000000 ≤ d.now))
    ∧ ((s.dev.dch n.val).due = false → Gives (.retrainStart n) s s.dev ∧ Gives (.trainDeferExpiry n) s s.dev))
  ∧ (∀ (n : Fin 4) (fails : Fin 7) (ppr : BitVec 16) (s : State), s.dev.clk.started = true → n.val < dramChannels s.dev.pins.dramCfg →
    (s.dev.dch n.val).failed = false → (s.dev.dch n.val).up = false → (s.dev.dch n.val).busy = false → (∀ e ∈ s.dev.dram.chans, e.2.startQueued = false) →
    Does (.dramTraining n fails ppr) s fun d => (d.dch n.val).up = decide (fails.val < 6) ∧ (d.dch n.val).failed = decide (fails.val = 6)
      ∧ (d.dch n.val).stepped = ((s.dev.dch n.val).stepped || (decide (3 ≤ fails.val) && decide (fails.val < 6)))
      ∧ (fails.val = 6 → d.evt.fatal = true) ∧ (fails.val = 6 → s.dev.evt.fatal = false → d.evt.fatalCause = 5))
  ∧ (∀ (fails : List (BitVec 8)) (s : State), s.dev.clk.started = true → s.dev.pwr.standby = false → s.dev.pins.dramCfg < 6 →
    (s.dev.integ.sram = false → Does (.initialisationFill fails) s fun d => d.integ.sram = true ∧ d.integ.foldSram = true)
    ∧ (s.dev.integ.dram = false → (∀ n ∈ s.dev.dramPresent, (s.dev.dch n).up = true) → Does (.initialisationFill fails) s fun d => d.integ.dram = true
        ∧ (s.dev.evt.rstInplace = true → d.mem = s.dev.mem)))
  ∧ (∀ (fails : List (BitVec 8)) (s : State), s.dev.clk.started = false → Gives (.initialisationFill fails) s s.dev)
  ∧ (∀ (s : State) (t : Nat), s.dev.integ.passStart = some t →
    (s.dev.integ.nandLate = false → Does .nandGrazeLate s fun d => d.integ.nandLate = true ∧ t + s.dev.cfgv 0x016 1 * 86400000000000 ≤ d.now
      ∧ (d.src 0x036).next = (s.dev.src 0x036).next + 1)
    ∧ (s.dev.integ.nandLate = true → Gives .nandGrazeLate s s.dev))
  ∧ (∀ (core : CoreId) (a : BitVec 48) (v : W32) (s : State) (lv : Level), lv = (s.dev.core core.val).level →
    ((s.dev.core core.val).released = true → s.dev.reachesReg core.val lv a.toNat = true →
      (∀ d1 r, s.dev.regGet core.val lv a.toNat = some (d1, r) → Gives (.readClearCounter core a) s (d1.emit (.regRead core.val a.toNat r)))
      ∧ Gives (.registerWrite core a v) s (s.dev.regPut core.val a.toNat v.toNat))
    ∧ (((s.dev.core core.val).released = false ∨ s.dev.reachesReg core.val lv a.toNat = false) →
      Gives (.readClearCounter core a) s s.dev ∧ Gives (.registerWrite core a v) s s.dev))

/-- For every command and state, a step with the command at the front of the queue is exec of that command on the state with the queue's
rest. With an empty queue a step answers the state's idle tick: the queue stays empty, device time advances by 4 ns, and nothing else
changes but the clocked time and the times the cores count with it. The idle tick of one 4 ns step of TIME is the model's choice (assumption
log 1), as is the queue itself: the manual has agents that act at once (log 8). (R42) -/
def Obligations.StepTakesFront : Prop :=
  (∀ (c : Instr) (s : State), step { s with pending := c :: s.pending } = exec c s)
  ∧ (∀ s : State, s.pending = [] → ∃ r k, step s = .next { s with dev := { s.dev with now := s.dev.now + 4, run := r, cores := k } }
      ∧ s.dev.run ≤ r)

/-- The state after reset has no command waiting and its memory in canonical form with every byte 0. Each of the 41 cores is held in reset
with register 0 to 31 zero and EVTRAP 0x440 on the Fold and 0x400 elsewhere. The commit counter is 1 with no version above 0 and no
transaction open; the Crook is free; every event source's next SEQ is 1 with nothing queued; device fatal is not set; paddock 0 is on SIO;
and the Walk station has not joined, its pass switch closed. General registers at 0 (log 3), memory at 0 before its initialisation (log 2)
and PWROK low at reset (log 14) are the model's choices. (R50, R113, R124, R331, R496, R507) -/
def Obligations.ResetState : Prop :=
  State.reset.pending = [] ∧ memoryCanonical State.reset ∧ (∀ a, State.reset.dev.byte a = 0)
  ∧ (∀ c, c < 41 → (State.reset.dev.core c).run = .inReset ∧ (∀ r, (State.reset.dev.core c).reg r = 0)
      ∧ (State.reset.dev.core c).evtrap = (if c = 0 then 0x440 else 0x400))
  ∧ State.reset.dev.cfg.counter = 1 ∧ State.reset.dev.cfg.versions = [] ∧ State.reset.dev.cfg.txns = []
  ∧ State.reset.dev.crook.holder = none
  ∧ (∀ q, (State.reset.dev.src q).next = 1 ∧ (State.reset.dev.src q).fifo = [] ∧ (State.reset.dev.src q).hist = [])
  ∧ State.reset.dev.evt.fatal = false ∧ State.reset.dev.clk.aonSio = true ∧ State.reset.dev.walk.joined = false
  ∧ State.reset.dev.pins.pwrok = false

/-- From every state whose byte memories are in canonical form (addresses rise strictly and no listed byte is zero, what an unlisted byte
reads as; log 2), a step that answers a next state leaves them in canonical form: whichever of the 409 commands stands at the front of the
queue, and on an empty queue. Stores of cores, MOVE and parity transfers, host data, die reads, map writes, the loss of a memory that loses
power and the re-initialisation of one at a reset are all of them. So equal memories are equal data in every state a run reaches, since
reset has the form. (R331, 12_data_integrity.md) -/
def Obligations.MemoryStaysCanonical : Prop := ∀ s t : State, memoryCanonical s → step s = .next t → memoryCanonical t

/-- The state after n steps, if each of them answers a next state. -/
def Sys2Proof.Safety.stepsTo : Nat → State → Option State
  | 0, s => some s
  | n + 1, s =>
    match step s with
    | .next t => stepsTo n t
    | _ => none
/-- For every command and every state, exec answers a next state with the queue untouched: no command faults or is refused, whatever the
state of the device; a command whose condition does not hold has no effect (assumption log 5). So from every state, as many steps as there
are commands waiting leave an empty queue, each step answering a next state. (01_device_overview.md) -/
def Obligations.QueueDrains : Prop :=
  (∀ (c : Instr) (s : State), ∃ d, exec c s = .next { s with dev := d })
  ∧ (∀ s : State, ∃ d, stepsTo s.pending.length s = some { pending := [], dev := d })
end

