-- ==== Sys2Proof/Laws/State.lean ====
section
/-! SUPPORT. What each named update of the device leaves as it was: one lemma per field, true by definition. -/

namespace Sys2Proof.Machine

/-! ### putBytes changes `mem` -/

@[simp] theorem Dev.putBytes_now (d : Dev) (a : Nat) (b : Bytes) : (d.putBytes a b).now = d.now := rfl
@[simp] theorem Dev.putBytes_run (d : Dev) (a : Nat) (b : Bytes) : (d.putBytes a b).run = d.run := rfl
@[simp] theorem Dev.putBytes_free (d : Dev) (a : Nat) (b : Bytes) : (d.putBytes a b).free = d.free := rfl
@[simp] theorem Dev.putBytes_outputs (d : Dev) (a : Nat) (b : Bytes) : (d.putBytes a b).outputs = d.outputs := rfl
@[simp] theorem Dev.putBytes_marks (d : Dev) (a : Nat) (b : Bytes) : (d.putBytes a b).marks = d.marks := rfl
@[simp] theorem Dev.putBytes_cores (d : Dev) (a : Nat) (b : Bytes) : (d.putBytes a b).cores = d.cores := rfl
@[simp] theorem Dev.putBytes_cfg (d : Dev) (a : Nat) (b : Bytes) : (d.putBytes a b).cfg = d.cfg := rfl
@[simp] theorem Dev.putBytes_crook (d : Dev) (a : Nat) (b : Bytes) : (d.putBytes a b).crook = d.crook := rfl
@[simp] theorem Dev.putBytes_evt (d : Dev) (a : Nat) (b : Bytes) : (d.putBytes a b).evt = d.evt := rfl
@[simp] theorem Dev.putBytes_hub (d : Dev) (a : Nat) (b : Bytes) : (d.putBytes a b).hub = d.hub := rfl
@[simp] theorem Dev.putBytes_media (d : Dev) (a : Nat) (b : Bytes) : (d.putBytes a b).media = d.media := rfl
@[simp] theorem Dev.putBytes_nvme (d : Dev) (a : Nat) (b : Bytes) : (d.putBytes a b).nvme = d.nvme := rfl
@[simp] theorem Dev.putBytes_links (d : Dev) (a : Nat) (b : Bytes) : (d.putBytes a b).links = d.links := rfl
@[simp] theorem Dev.putBytes_drove (d : Dev) (a : Nat) (b : Bytes) : (d.putBytes a b).drove = d.drove := rfl
@[simp] theorem Dev.putBytes_mapc (d : Dev) (a : Nat) (b : Bytes) : (d.putBytes a b).mapc = d.mapc := rfl
@[simp] theorem Dev.putBytes_dram (d : Dev) (a : Nat) (b : Bytes) : (d.putBytes a b).dram = d.dram := rfl
@[simp] theorem Dev.putBytes_integ (d : Dev) (a : Nat) (b : Bytes) : (d.putBytes a b).integ = d.integ := rfl
@[simp] theorem Dev.putBytes_fold (d : Dev) (a : Nat) (b : Bytes) : (d.putBytes a b).fold = d.fold := rfl
@[simp] theorem Dev.putBytes_keys (d : Dev) (a : Nat) (b : Bytes) : (d.putBytes a b).keys = d.keys := rfl
@[simp] theorem Dev.putBytes_spdm (d : Dev) (a : Nat) (b : Bytes) : (d.putBytes a b).spdm = d.spdm := rfl
@[simp] theorem Dev.putBytes_tcg (d : Dev) (a : Nat) (b : Bytes) : (d.putBytes a b).tcg = d.tcg := rfl
@[simp] theorem Dev.putBytes_aes (d : Dev) (a : Nat) (b : Bytes) : (d.putBytes a b).aes = d.aes := rfl
@[simp] theorem Dev.putBytes_dig (d : Dev) (a : Nat) (b : Bytes) : (d.putBytes a b).dig = d.dig := rfl
@[simp] theorem Dev.putBytes_pka (d : Dev) (a : Nat) (b : Bytes) : (d.putBytes a b).pka = d.pka := rfl
@[simp] theorem Dev.putBytes_ilu (d : Dev) (a : Nat) (b : Bytes) : (d.putBytes a b).ilu = d.ilu := rfl
@[simp] theorem Dev.putBytes_pins (d : Dev) (a : Nat) (b : Bytes) : (d.putBytes a b).pins = d.pins := rfl
@[simp] theorem Dev.putBytes_pwr (d : Dev) (a : Nat) (b : Bytes) : (d.putBytes a b).pwr = d.pwr := rfl
@[simp] theorem Dev.putBytes_clk (d : Dev) (a : Nat) (b : Bytes) : (d.putBytes a b).clk = d.clk := rfl
@[simp] theorem Dev.putBytes_thm (d : Dev) (a : Nat) (b : Bytes) : (d.putBytes a b).thm = d.thm := rfl
@[simp] theorem Dev.putBytes_walk (d : Dev) (a : Nat) (b : Bytes) : (d.putBytes a b).walk = d.walk := rfl

/-! ### mark changes `marks` -/

@[simp] theorem Dev.mark_now (d : Dev) (a : Nat) : (d.mark a).now = d.now := rfl
@[simp] theorem Dev.mark_run (d : Dev) (a : Nat) : (d.mark a).run = d.run := rfl
@[simp] theorem Dev.mark_free (d : Dev) (a : Nat) : (d.mark a).free = d.free := rfl
@[simp] theorem Dev.mark_outputs (d : Dev) (a : Nat) : (d.mark a).outputs = d.outputs := rfl
@[simp] theorem Dev.mark_mem (d : Dev) (a : Nat) : (d.mark a).mem = d.mem := rfl
@[simp] theorem Dev.mark_cores (d : Dev) (a : Nat) : (d.mark a).cores = d.cores := rfl
@[simp] theorem Dev.mark_cfg (d : Dev) (a : Nat) : (d.mark a).cfg = d.cfg := rfl
@[simp] theorem Dev.mark_crook (d : Dev) (a : Nat) : (d.mark a).crook = d.crook := rfl
@[simp] theorem Dev.mark_evt (d : Dev) (a : Nat) : (d.mark a).evt = d.evt := rfl
@[simp] theorem Dev.mark_hub (d : Dev) (a : Nat) : (d.mark a).hub = d.hub := rfl
@[simp] theorem Dev.mark_media (d : Dev) (a : Nat) : (d.mark a).media = d.media := rfl
@[simp] theorem Dev.mark_nvme (d : Dev) (a : Nat) : (d.mark a).nvme = d.nvme := rfl
@[simp] theorem Dev.mark_links (d : Dev) (a : Nat) : (d.mark a).links = d.links := rfl
@[simp] theorem Dev.mark_drove (d : Dev) (a : Nat) : (d.mark a).drove = d.drove := rfl
@[simp] theorem Dev.mark_mapc (d : Dev) (a : Nat) : (d.mark a).mapc = d.mapc := rfl
@[simp] theorem Dev.mark_dram (d : Dev) (a : Nat) : (d.mark a).dram = d.dram := rfl
@[simp] theorem Dev.mark_integ (d : Dev) (a : Nat) : (d.mark a).integ = d.integ := rfl
@[simp] theorem Dev.mark_fold (d : Dev) (a : Nat) : (d.mark a).fold = d.fold := rfl
@[simp] theorem Dev.mark_keys (d : Dev) (a : Nat) : (d.mark a).keys = d.keys := rfl
@[simp] theorem Dev.mark_spdm (d : Dev) (a : Nat) : (d.mark a).spdm = d.spdm := rfl
@[simp] theorem Dev.mark_tcg (d : Dev) (a : Nat) : (d.mark a).tcg = d.tcg := rfl
@[simp] theorem Dev.mark_aes (d : Dev) (a : Nat) : (d.mark a).aes = d.aes := rfl
@[simp] theorem Dev.mark_dig (d : Dev) (a : Nat) : (d.mark a).dig = d.dig := rfl
@[simp] theorem Dev.mark_pka (d : Dev) (a : Nat) : (d.mark a).pka = d.pka := rfl
@[simp] theorem Dev.mark_ilu (d : Dev) (a : Nat) : (d.mark a).ilu = d.ilu := rfl
@[simp] theorem Dev.mark_pins (d : Dev) (a : Nat) : (d.mark a).pins = d.pins := rfl
@[simp] theorem Dev.mark_pwr (d : Dev) (a : Nat) : (d.mark a).pwr = d.pwr := rfl
@[simp] theorem Dev.mark_clk (d : Dev) (a : Nat) : (d.mark a).clk = d.clk := rfl
@[simp] theorem Dev.mark_thm (d : Dev) (a : Nat) : (d.mark a).thm = d.thm := rfl
@[simp] theorem Dev.mark_walk (d : Dev) (a : Nat) : (d.mark a).walk = d.walk := rfl

/-! ### clearMarks changes `marks` -/

@[simp] theorem Dev.clearMarks_now (d : Dev) (a n : Nat) : (d.clearMarks a n).now = d.now := rfl
@[simp] theorem Dev.clearMarks_run (d : Dev) (a n : Nat) : (d.clearMarks a n).run = d.run := rfl
@[simp] theorem Dev.clearMarks_free (d : Dev) (a n : Nat) : (d.clearMarks a n).free = d.free := rfl
@[simp] theorem Dev.clearMarks_outputs (d : Dev) (a n : Nat) : (d.clearMarks a n).outputs = d.outputs := rfl
@[simp] theorem Dev.clearMarks_mem (d : Dev) (a n : Nat) : (d.clearMarks a n).mem = d.mem := rfl
@[simp] theorem Dev.clearMarks_cores (d : Dev) (a n : Nat) : (d.clearMarks a n).cores = d.cores := rfl
@[simp] theorem Dev.clearMarks_cfg (d : Dev) (a n : Nat) : (d.clearMarks a n).cfg = d.cfg := rfl
@[simp] theorem Dev.clearMarks_crook (d : Dev) (a n : Nat) : (d.clearMarks a n).crook = d.crook := rfl
@[simp] theorem Dev.clearMarks_evt (d : Dev) (a n : Nat) : (d.clearMarks a n).evt = d.evt := rfl
@[simp] theorem Dev.clearMarks_hub (d : Dev) (a n : Nat) : (d.clearMarks a n).hub = d.hub := rfl
@[simp] theorem Dev.clearMarks_media (d : Dev) (a n : Nat) : (d.clearMarks a n).media = d.media := rfl
@[simp] theorem Dev.clearMarks_nvme (d : Dev) (a n : Nat) : (d.clearMarks a n).nvme = d.nvme := rfl
@[simp] theorem Dev.clearMarks_links (d : Dev) (a n : Nat) : (d.clearMarks a n).links = d.links := rfl
@[simp] theorem Dev.clearMarks_drove (d : Dev) (a n : Nat) : (d.clearMarks a n).drove = d.drove := rfl
@[simp] theorem Dev.clearMarks_mapc (d : Dev) (a n : Nat) : (d.clearMarks a n).mapc = d.mapc := rfl
@[simp] theorem Dev.clearMarks_dram (d : Dev) (a n : Nat) : (d.clearMarks a n).dram = d.dram := rfl
@[simp] theorem Dev.clearMarks_integ (d : Dev) (a n : Nat) : (d.clearMarks a n).integ = d.integ := rfl
@[simp] theorem Dev.clearMarks_fold (d : Dev) (a n : Nat) : (d.clearMarks a n).fold = d.fold := rfl
@[simp] theorem Dev.clearMarks_keys (d : Dev) (a n : Nat) : (d.clearMarks a n).keys = d.keys := rfl
@[simp] theorem Dev.clearMarks_spdm (d : Dev) (a n : Nat) : (d.clearMarks a n).spdm = d.spdm := rfl
@[simp] theorem Dev.clearMarks_tcg (d : Dev) (a n : Nat) : (d.clearMarks a n).tcg = d.tcg := rfl
@[simp] theorem Dev.clearMarks_aes (d : Dev) (a n : Nat) : (d.clearMarks a n).aes = d.aes := rfl
@[simp] theorem Dev.clearMarks_dig (d : Dev) (a n : Nat) : (d.clearMarks a n).dig = d.dig := rfl
@[simp] theorem Dev.clearMarks_pka (d : Dev) (a n : Nat) : (d.clearMarks a n).pka = d.pka := rfl
@[simp] theorem Dev.clearMarks_ilu (d : Dev) (a n : Nat) : (d.clearMarks a n).ilu = d.ilu := rfl
@[simp] theorem Dev.clearMarks_pins (d : Dev) (a n : Nat) : (d.clearMarks a n).pins = d.pins := rfl
@[simp] theorem Dev.clearMarks_pwr (d : Dev) (a n : Nat) : (d.clearMarks a n).pwr = d.pwr := rfl
@[simp] theorem Dev.clearMarks_clk (d : Dev) (a n : Nat) : (d.clearMarks a n).clk = d.clk := rfl
@[simp] theorem Dev.clearMarks_thm (d : Dev) (a n : Nat) : (d.clearMarks a n).thm = d.thm := rfl
@[simp] theorem Dev.clearMarks_walk (d : Dev) (a n : Nat) : (d.clearMarks a n).walk = d.walk := rfl

/-! ### setCore changes `cores` -/

@[simp] theorem Dev.setCore_now (d : Dev) (c : Nat) (k : Core) : (d.setCore c k).now = d.now := rfl
@[simp] theorem Dev.setCore_run (d : Dev) (c : Nat) (k : Core) : (d.setCore c k).run = d.run := rfl
@[simp] theorem Dev.setCore_free (d : Dev) (c : Nat) (k : Core) : (d.setCore c k).free = d.free := rfl
@[simp] theorem Dev.setCore_outputs (d : Dev) (c : Nat) (k : Core) : (d.setCore c k).outputs = d.outputs := rfl
@[simp] theorem Dev.setCore_mem (d : Dev) (c : Nat) (k : Core) : (d.setCore c k).mem = d.mem := rfl
@[simp] theorem Dev.setCore_marks (d : Dev) (c : Nat) (k : Core) : (d.setCore c k).marks = d.marks := rfl
@[simp] theorem Dev.setCore_cfg (d : Dev) (c : Nat) (k : Core) : (d.setCore c k).cfg = d.cfg := rfl
@[simp] theorem Dev.setCore_crook (d : Dev) (c : Nat) (k : Core) : (d.setCore c k).crook = d.crook := rfl
@[simp] theorem Dev.setCore_evt (d : Dev) (c : Nat) (k : Core) : (d.setCore c k).evt = d.evt := rfl
@[simp] theorem Dev.setCore_hub (d : Dev) (c : Nat) (k : Core) : (d.setCore c k).hub = d.hub := rfl
@[simp] theorem Dev.setCore_media (d : Dev) (c : Nat) (k : Core) : (d.setCore c k).media = d.media := rfl
@[simp] theorem Dev.setCore_nvme (d : Dev) (c : Nat) (k : Core) : (d.setCore c k).nvme = d.nvme := rfl
@[simp] theorem Dev.setCore_links (d : Dev) (c : Nat) (k : Core) : (d.setCore c k).links = d.links := rfl
@[simp] theorem Dev.setCore_drove (d : Dev) (c : Nat) (k : Core) : (d.setCore c k).drove = d.drove := rfl
@[simp] theorem Dev.setCore_mapc (d : Dev) (c : Nat) (k : Core) : (d.setCore c k).mapc = d.mapc := rfl
@[simp] theorem Dev.setCore_dram (d : Dev) (c : Nat) (k : Core) : (d.setCore c k).dram = d.dram := rfl
@[simp] theorem Dev.setCore_integ (d : Dev) (c : Nat) (k : Core) : (d.setCore c k).integ = d.integ := rfl
@[simp] theorem Dev.setCore_fold (d : Dev) (c : Nat) (k : Core) : (d.setCore c k).fold = d.fold := rfl
@[simp] theorem Dev.setCore_keys (d : Dev) (c : Nat) (k : Core) : (d.setCore c k).keys = d.keys := rfl
@[simp] theorem Dev.setCore_spdm (d : Dev) (c : Nat) (k : Core) : (d.setCore c k).spdm = d.spdm := rfl
@[simp] theorem Dev.setCore_tcg (d : Dev) (c : Nat) (k : Core) : (d.setCore c k).tcg = d.tcg := rfl
@[simp] theorem Dev.setCore_aes (d : Dev) (c : Nat) (k : Core) : (d.setCore c k).aes = d.aes := rfl
@[simp] theorem Dev.setCore_dig (d : Dev) (c : Nat) (k : Core) : (d.setCore c k).dig = d.dig := rfl
@[simp] theorem Dev.setCore_pka (d : Dev) (c : Nat) (k : Core) : (d.setCore c k).pka = d.pka := rfl
@[simp] theorem Dev.setCore_ilu (d : Dev) (c : Nat) (k : Core) : (d.setCore c k).ilu = d.ilu := rfl
@[simp] theorem Dev.setCore_pins (d : Dev) (c : Nat) (k : Core) : (d.setCore c k).pins = d.pins := rfl
@[simp] theorem Dev.setCore_pwr (d : Dev) (c : Nat) (k : Core) : (d.setCore c k).pwr = d.pwr := rfl
@[simp] theorem Dev.setCore_clk (d : Dev) (c : Nat) (k : Core) : (d.setCore c k).clk = d.clk := rfl
@[simp] theorem Dev.setCore_thm (d : Dev) (c : Nat) (k : Core) : (d.setCore c k).thm = d.thm := rfl
@[simp] theorem Dev.setCore_walk (d : Dev) (c : Nat) (k : Core) : (d.setCore c k).walk = d.walk := rfl

/-! ### modCore changes `cores` -/

@[simp] theorem Dev.modCore_now (d : Dev) (c : Nat) (f : Core → Core) : (d.modCore c f).now = d.now := rfl
@[simp] theorem Dev.modCore_run (d : Dev) (c : Nat) (f : Core → Core) : (d.modCore c f).run = d.run := rfl
@[simp] theorem Dev.modCore_free (d : Dev) (c : Nat) (f : Core → Core) : (d.modCore c f).free = d.free := rfl
@[simp] theorem Dev.modCore_outputs (d : Dev) (c : Nat) (f : Core → Core) : (d.modCore c f).outputs = d.outputs := rfl
@[simp] theorem Dev.modCore_mem (d : Dev) (c : Nat) (f : Core → Core) : (d.modCore c f).mem = d.mem := rfl
@[simp] theorem Dev.modCore_marks (d : Dev) (c : Nat) (f : Core → Core) : (d.modCore c f).marks = d.marks := rfl
@[simp] theorem Dev.modCore_cfg (d : Dev) (c : Nat) (f : Core → Core) : (d.modCore c f).cfg = d.cfg := rfl
@[simp] theorem Dev.modCore_crook (d : Dev) (c : Nat) (f : Core → Core) : (d.modCore c f).crook = d.crook := rfl
@[simp] theorem Dev.modCore_evt (d : Dev) (c : Nat) (f : Core → Core) : (d.modCore c f).evt = d.evt := rfl
@[simp] theorem Dev.modCore_hub (d : Dev) (c : Nat) (f : Core → Core) : (d.modCore c f).hub = d.hub := rfl
@[simp] theorem Dev.modCore_media (d : Dev) (c : Nat) (f : Core → Core) : (d.modCore c f).media = d.media := rfl
@[simp] theorem Dev.modCore_nvme (d : Dev) (c : Nat) (f : Core → Core) : (d.modCore c f).nvme = d.nvme := rfl
@[simp] theorem Dev.modCore_links (d : Dev) (c : Nat) (f : Core → Core) : (d.modCore c f).links = d.links := rfl
@[simp] theorem Dev.modCore_drove (d : Dev) (c : Nat) (f : Core → Core) : (d.modCore c f).drove = d.drove := rfl
@[simp] theorem Dev.modCore_mapc (d : Dev) (c : Nat) (f : Core → Core) : (d.modCore c f).mapc = d.mapc := rfl
@[simp] theorem Dev.modCore_dram (d : Dev) (c : Nat) (f : Core → Core) : (d.modCore c f).dram = d.dram := rfl
@[simp] theorem Dev.modCore_integ (d : Dev) (c : Nat) (f : Core → Core) : (d.modCore c f).integ = d.integ := rfl
@[simp] theorem Dev.modCore_fold (d : Dev) (c : Nat) (f : Core → Core) : (d.modCore c f).fold = d.fold := rfl
@[simp] theorem Dev.modCore_keys (d : Dev) (c : Nat) (f : Core → Core) : (d.modCore c f).keys = d.keys := rfl
@[simp] theorem Dev.modCore_spdm (d : Dev) (c : Nat) (f : Core → Core) : (d.modCore c f).spdm = d.spdm := rfl
@[simp] theorem Dev.modCore_tcg (d : Dev) (c : Nat) (f : Core → Core) : (d.modCore c f).tcg = d.tcg := rfl
@[simp] theorem Dev.modCore_aes (d : Dev) (c : Nat) (f : Core → Core) : (d.modCore c f).aes = d.aes := rfl
@[simp] theorem Dev.modCore_dig (d : Dev) (c : Nat) (f : Core → Core) : (d.modCore c f).dig = d.dig := rfl
@[simp] theorem Dev.modCore_pka (d : Dev) (c : Nat) (f : Core → Core) : (d.modCore c f).pka = d.pka := rfl
@[simp] theorem Dev.modCore_ilu (d : Dev) (c : Nat) (f : Core → Core) : (d.modCore c f).ilu = d.ilu := rfl
@[simp] theorem Dev.modCore_pins (d : Dev) (c : Nat) (f : Core → Core) : (d.modCore c f).pins = d.pins := rfl
@[simp] theorem Dev.modCore_pwr (d : Dev) (c : Nat) (f : Core → Core) : (d.modCore c f).pwr = d.pwr := rfl
@[simp] theorem Dev.modCore_clk (d : Dev) (c : Nat) (f : Core → Core) : (d.modCore c f).clk = d.clk := rfl
@[simp] theorem Dev.modCore_thm (d : Dev) (c : Nat) (f : Core → Core) : (d.modCore c f).thm = d.thm := rfl
@[simp] theorem Dev.modCore_walk (d : Dev) (c : Nat) (f : Core → Core) : (d.modCore c f).walk = d.walk := rfl

/-! ### tickFree changes `free` -/

@[simp] theorem Dev.tickFree_now (d : Dev) : (d.tickFree).now = d.now := rfl
@[simp] theorem Dev.tickFree_run (d : Dev) : (d.tickFree).run = d.run := rfl
@[simp] theorem Dev.tickFree_outputs (d : Dev) : (d.tickFree).outputs = d.outputs := rfl
@[simp] theorem Dev.tickFree_mem (d : Dev) : (d.tickFree).mem = d.mem := rfl
@[simp] theorem Dev.tickFree_marks (d : Dev) : (d.tickFree).marks = d.marks := rfl
@[simp] theorem Dev.tickFree_cores (d : Dev) : (d.tickFree).cores = d.cores := rfl
@[simp] theorem Dev.tickFree_cfg (d : Dev) : (d.tickFree).cfg = d.cfg := rfl
@[simp] theorem Dev.tickFree_crook (d : Dev) : (d.tickFree).crook = d.crook := rfl
@[simp] theorem Dev.tickFree_evt (d : Dev) : (d.tickFree).evt = d.evt := rfl
@[simp] theorem Dev.tickFree_hub (d : Dev) : (d.tickFree).hub = d.hub := rfl
@[simp] theorem Dev.tickFree_media (d : Dev) : (d.tickFree).media = d.media := rfl
@[simp] theorem Dev.tickFree_nvme (d : Dev) : (d.tickFree).nvme = d.nvme := rfl
@[simp] theorem Dev.tickFree_links (d : Dev) : (d.tickFree).links = d.links := rfl
@[simp] theorem Dev.tickFree_drove (d : Dev) : (d.tickFree).drove = d.drove := rfl
@[simp] theorem Dev.tickFree_mapc (d : Dev) : (d.tickFree).mapc = d.mapc := rfl
@[simp] theorem Dev.tickFree_dram (d : Dev) : (d.tickFree).dram = d.dram := rfl
@[simp] theorem Dev.tickFree_integ (d : Dev) : (d.tickFree).integ = d.integ := rfl
@[simp] theorem Dev.tickFree_fold (d : Dev) : (d.tickFree).fold = d.fold := rfl
@[simp] theorem Dev.tickFree_keys (d : Dev) : (d.tickFree).keys = d.keys := rfl
@[simp] theorem Dev.tickFree_spdm (d : Dev) : (d.tickFree).spdm = d.spdm := rfl
@[simp] theorem Dev.tickFree_tcg (d : Dev) : (d.tickFree).tcg = d.tcg := rfl
@[simp] theorem Dev.tickFree_aes (d : Dev) : (d.tickFree).aes = d.aes := rfl
@[simp] theorem Dev.tickFree_dig (d : Dev) : (d.tickFree).dig = d.dig := rfl
@[simp] theorem Dev.tickFree_pka (d : Dev) : (d.tickFree).pka = d.pka := rfl
@[simp] theorem Dev.tickFree_ilu (d : Dev) : (d.tickFree).ilu = d.ilu := rfl
@[simp] theorem Dev.tickFree_pins (d : Dev) : (d.tickFree).pins = d.pins := rfl
@[simp] theorem Dev.tickFree_pwr (d : Dev) : (d.tickFree).pwr = d.pwr := rfl
@[simp] theorem Dev.tickFree_clk (d : Dev) : (d.tickFree).clk = d.clk := rfl
@[simp] theorem Dev.tickFree_thm (d : Dev) : (d.tickFree).thm = d.thm := rfl
@[simp] theorem Dev.tickFree_walk (d : Dev) : (d.tickFree).walk = d.walk := rfl

/-! ### emit changes `outputs` -/

@[simp] theorem Dev.emit_now (d : Dev) (o : Output) : (d.emit o).now = d.now := rfl
@[simp] theorem Dev.emit_run (d : Dev) (o : Output) : (d.emit o).run = d.run := rfl
@[simp] theorem Dev.emit_free (d : Dev) (o : Output) : (d.emit o).free = d.free := rfl
@[simp] theorem Dev.emit_mem (d : Dev) (o : Output) : (d.emit o).mem = d.mem := rfl
@[simp] theorem Dev.emit_marks (d : Dev) (o : Output) : (d.emit o).marks = d.marks := rfl
@[simp] theorem Dev.emit_cores (d : Dev) (o : Output) : (d.emit o).cores = d.cores := rfl
@[simp] theorem Dev.emit_cfg (d : Dev) (o : Output) : (d.emit o).cfg = d.cfg := rfl
@[simp] theorem Dev.emit_crook (d : Dev) (o : Output) : (d.emit o).crook = d.crook := rfl
@[simp] theorem Dev.emit_evt (d : Dev) (o : Output) : (d.emit o).evt = d.evt := rfl
@[simp] theorem Dev.emit_hub (d : Dev) (o : Output) : (d.emit o).hub = d.hub := rfl
@[simp] theorem Dev.emit_media (d : Dev) (o : Output) : (d.emit o).media = d.media := rfl
@[simp] theorem Dev.emit_nvme (d : Dev) (o : Output) : (d.emit o).nvme = d.nvme := rfl
@[simp] theorem Dev.emit_links (d : Dev) (o : Output) : (d.emit o).links = d.links := rfl
@[simp] theorem Dev.emit_drove (d : Dev) (o : Output) : (d.emit o).drove = d.drove := rfl
@[simp] theorem Dev.emit_mapc (d : Dev) (o : Output) : (d.emit o).mapc = d.mapc := rfl
@[simp] theorem Dev.emit_dram (d : Dev) (o : Output) : (d.emit o).dram = d.dram := rfl
@[simp] theorem Dev.emit_integ (d : Dev) (o : Output) : (d.emit o).integ = d.integ := rfl
@[simp] theorem Dev.emit_fold (d : Dev) (o : Output) : (d.emit o).fold = d.fold := rfl
@[simp] theorem Dev.emit_keys (d : Dev) (o : Output) : (d.emit o).keys = d.keys := rfl
@[simp] theorem Dev.emit_spdm (d : Dev) (o : Output) : (d.emit o).spdm = d.spdm := rfl
@[simp] theorem Dev.emit_tcg (d : Dev) (o : Output) : (d.emit o).tcg = d.tcg := rfl
@[simp] theorem Dev.emit_aes (d : Dev) (o : Output) : (d.emit o).aes = d.aes := rfl
@[simp] theorem Dev.emit_dig (d : Dev) (o : Output) : (d.emit o).dig = d.dig := rfl
@[simp] theorem Dev.emit_pka (d : Dev) (o : Output) : (d.emit o).pka = d.pka := rfl
@[simp] theorem Dev.emit_ilu (d : Dev) (o : Output) : (d.emit o).ilu = d.ilu := rfl
@[simp] theorem Dev.emit_pins (d : Dev) (o : Output) : (d.emit o).pins = d.pins := rfl
@[simp] theorem Dev.emit_pwr (d : Dev) (o : Output) : (d.emit o).pwr = d.pwr := rfl
@[simp] theorem Dev.emit_clk (d : Dev) (o : Output) : (d.emit o).clk = d.clk := rfl
@[simp] theorem Dev.emit_thm (d : Dev) (o : Output) : (d.emit o).thm = d.thm := rfl
@[simp] theorem Dev.emit_walk (d : Dev) (o : Output) : (d.emit o).walk = d.walk := rfl

/-! ### setSrc changes `evt` -/

@[simp] theorem Dev.setSrc_now (d : Dev) (i : Nat) (x : SrcSt) : (d.setSrc i x).now = d.now := rfl
@[simp] theorem Dev.setSrc_run (d : Dev) (i : Nat) (x : SrcSt) : (d.setSrc i x).run = d.run := rfl
@[simp] theorem Dev.setSrc_free (d : Dev) (i : Nat) (x : SrcSt) : (d.setSrc i x).free = d.free := rfl
@[simp] theorem Dev.setSrc_outputs (d : Dev) (i : Nat) (x : SrcSt) : (d.setSrc i x).outputs = d.outputs := rfl
@[simp] theorem Dev.setSrc_mem (d : Dev) (i : Nat) (x : SrcSt) : (d.setSrc i x).mem = d.mem := rfl
@[simp] theorem Dev.setSrc_marks (d : Dev) (i : Nat) (x : SrcSt) : (d.setSrc i x).marks = d.marks := rfl
@[simp] theorem Dev.setSrc_cores (d : Dev) (i : Nat) (x : SrcSt) : (d.setSrc i x).cores = d.cores := rfl
@[simp] theorem Dev.setSrc_cfg (d : Dev) (i : Nat) (x : SrcSt) : (d.setSrc i x).cfg = d.cfg := rfl
@[simp] theorem Dev.setSrc_crook (d : Dev) (i : Nat) (x : SrcSt) : (d.setSrc i x).crook = d.crook := rfl
@[simp] theorem Dev.setSrc_hub (d : Dev) (i : Nat) (x : SrcSt) : (d.setSrc i x).hub = d.hub := rfl
@[simp] theorem Dev.setSrc_media (d : Dev) (i : Nat) (x : SrcSt) : (d.setSrc i x).media = d.media := rfl
@[simp] theorem Dev.setSrc_nvme (d : Dev) (i : Nat) (x : SrcSt) : (d.setSrc i x).nvme = d.nvme := rfl
@[simp] theorem Dev.setSrc_links (d : Dev) (i : Nat) (x : SrcSt) : (d.setSrc i x).links = d.links := rfl
@[simp] theorem Dev.setSrc_drove (d : Dev) (i : Nat) (x : SrcSt) : (d.setSrc i x).drove = d.drove := rfl
@[simp] theorem Dev.setSrc_mapc (d : Dev) (i : Nat) (x : SrcSt) : (d.setSrc i x).mapc = d.mapc := rfl
@[simp] theorem Dev.setSrc_dram (d : Dev) (i : Nat) (x : SrcSt) : (d.setSrc i x).dram = d.dram := rfl
@[simp] theorem Dev.setSrc_integ (d : Dev) (i : Nat) (x : SrcSt) : (d.setSrc i x).integ = d.integ := rfl
@[simp] theorem Dev.setSrc_fold (d : Dev) (i : Nat) (x : SrcSt) : (d.setSrc i x).fold = d.fold := rfl
@[simp] theorem Dev.setSrc_keys (d : Dev) (i : Nat) (x : SrcSt) : (d.setSrc i x).keys = d.keys := rfl
@[simp] theorem Dev.setSrc_spdm (d : Dev) (i : Nat) (x : SrcSt) : (d.setSrc i x).spdm = d.spdm := rfl
@[simp] theorem Dev.setSrc_tcg (d : Dev) (i : Nat) (x : SrcSt) : (d.setSrc i x).tcg = d.tcg := rfl
@[simp] theorem Dev.setSrc_aes (d : Dev) (i : Nat) (x : SrcSt) : (d.setSrc i x).aes = d.aes := rfl
@[simp] theorem Dev.setSrc_dig (d : Dev) (i : Nat) (x : SrcSt) : (d.setSrc i x).dig = d.dig := rfl
@[simp] theorem Dev.setSrc_pka (d : Dev) (i : Nat) (x : SrcSt) : (d.setSrc i x).pka = d.pka := rfl
@[simp] theorem Dev.setSrc_ilu (d : Dev) (i : Nat) (x : SrcSt) : (d.setSrc i x).ilu = d.ilu := rfl
@[simp] theorem Dev.setSrc_pins (d : Dev) (i : Nat) (x : SrcSt) : (d.setSrc i x).pins = d.pins := rfl
@[simp] theorem Dev.setSrc_pwr (d : Dev) (i : Nat) (x : SrcSt) : (d.setSrc i x).pwr = d.pwr := rfl
@[simp] theorem Dev.setSrc_clk (d : Dev) (i : Nat) (x : SrcSt) : (d.setSrc i x).clk = d.clk := rfl
@[simp] theorem Dev.setSrc_thm (d : Dev) (i : Nat) (x : SrcSt) : (d.setSrc i x).thm = d.thm := rfl
@[simp] theorem Dev.setSrc_walk (d : Dev) (i : Nat) (x : SrcSt) : (d.setSrc i x).walk = d.walk := rfl

/-! ### postInfo changes `evt` -/

@[simp] theorem Dev.postInfo_now (d : Dev) (a b c e : Nat) : (d.postInfo a b c e).now = d.now := rfl
@[simp] theorem Dev.postInfo_run (d : Dev) (a b c e : Nat) : (d.postInfo a b c e).run = d.run := rfl
@[simp] theorem Dev.postInfo_free (d : Dev) (a b c e : Nat) : (d.postInfo a b c e).free = d.free := rfl
@[simp] theorem Dev.postInfo_outputs (d : Dev) (a b c e : Nat) : (d.postInfo a b c e).outputs = d.outputs := rfl
@[simp] theorem Dev.postInfo_mem (d : Dev) (a b c e : Nat) : (d.postInfo a b c e).mem = d.mem := rfl
@[simp] theorem Dev.postInfo_marks (d : Dev) (a b c e : Nat) : (d.postInfo a b c e).marks = d.marks := rfl
@[simp] theorem Dev.postInfo_cores (d : Dev) (a b c e : Nat) : (d.postInfo a b c e).cores = d.cores := rfl
@[simp] theorem Dev.postInfo_cfg (d : Dev) (a b c e : Nat) : (d.postInfo a b c e).cfg = d.cfg := rfl
@[simp] theorem Dev.postInfo_crook (d : Dev) (a b c e : Nat) : (d.postInfo a b c e).crook = d.crook := rfl
@[simp] theorem Dev.postInfo_hub (d : Dev) (a b c e : Nat) : (d.postInfo a b c e).hub = d.hub := rfl
@[simp] theorem Dev.postInfo_media (d : Dev) (a b c e : Nat) : (d.postInfo a b c e).media = d.media := rfl
@[simp] theorem Dev.postInfo_nvme (d : Dev) (a b c e : Nat) : (d.postInfo a b c e).nvme = d.nvme := rfl
@[simp] theorem Dev.postInfo_links (d : Dev) (a b c e : Nat) : (d.postInfo a b c e).links = d.links := rfl
@[simp] theorem Dev.postInfo_drove (d : Dev) (a b c e : Nat) : (d.postInfo a b c e).drove = d.drove := rfl
@[simp] theorem Dev.postInfo_mapc (d : Dev) (a b c e : Nat) : (d.postInfo a b c e).mapc = d.mapc := rfl
@[simp] theorem Dev.postInfo_dram (d : Dev) (a b c e : Nat) : (d.postInfo a b c e).dram = d.dram := rfl
@[simp] theorem Dev.postInfo_integ (d : Dev) (a b c e : Nat) : (d.postInfo a b c e).integ = d.integ := rfl
@[simp] theorem Dev.postInfo_fold (d : Dev) (a b c e : Nat) : (d.postInfo a b c e).fold = d.fold := rfl
@[simp] theorem Dev.postInfo_keys (d : Dev) (a b c e : Nat) : (d.postInfo a b c e).keys = d.keys := rfl
@[simp] theorem Dev.postInfo_spdm (d : Dev) (a b c e : Nat) : (d.postInfo a b c e).spdm = d.spdm := rfl
@[simp] theorem Dev.postInfo_tcg (d : Dev) (a b c e : Nat) : (d.postInfo a b c e).tcg = d.tcg := rfl
@[simp] theorem Dev.postInfo_aes (d : Dev) (a b c e : Nat) : (d.postInfo a b c e).aes = d.aes := rfl
@[simp] theorem Dev.postInfo_dig (d : Dev) (a b c e : Nat) : (d.postInfo a b c e).dig = d.dig := rfl
@[simp] theorem Dev.postInfo_pka (d : Dev) (a b c e : Nat) : (d.postInfo a b c e).pka = d.pka := rfl
@[simp] theorem Dev.postInfo_ilu (d : Dev) (a b c e : Nat) : (d.postInfo a b c e).ilu = d.ilu := rfl
@[simp] theorem Dev.postInfo_pins (d : Dev) (a b c e : Nat) : (d.postInfo a b c e).pins = d.pins := rfl
@[simp] theorem Dev.postInfo_pwr (d : Dev) (a b c e : Nat) : (d.postInfo a b c e).pwr = d.pwr := rfl
@[simp] theorem Dev.postInfo_clk (d : Dev) (a b c e : Nat) : (d.postInfo a b c e).clk = d.clk := rfl
@[simp] theorem Dev.postInfo_thm (d : Dev) (a b c e : Nat) : (d.postInfo a b c e).thm = d.thm := rfl
@[simp] theorem Dev.postInfo_walk (d : Dev) (a b c e : Nat) : (d.postInfo a b c e).walk = d.walk := rfl

/-! ### setCtrl changes `nvme` -/

@[simp] theorem Dev.setCtrl_now (d : Dev) (k : Nat) (c : CtrlSt) : (d.setCtrl k c).now = d.now := rfl
@[simp] theorem Dev.setCtrl_run (d : Dev) (k : Nat) (c : CtrlSt) : (d.setCtrl k c).run = d.run := rfl
@[simp] theorem Dev.setCtrl_free (d : Dev) (k : Nat) (c : CtrlSt) : (d.setCtrl k c).free = d.free := rfl
@[simp] theorem Dev.setCtrl_outputs (d : Dev) (k : Nat) (c : CtrlSt) : (d.setCtrl k c).outputs = d.outputs := rfl
@[simp] theorem Dev.setCtrl_mem (d : Dev) (k : Nat) (c : CtrlSt) : (d.setCtrl k c).mem = d.mem := rfl
@[simp] theorem Dev.setCtrl_marks (d : Dev) (k : Nat) (c : CtrlSt) : (d.setCtrl k c).marks = d.marks := rfl
@[simp] theorem Dev.setCtrl_cores (d : Dev) (k : Nat) (c : CtrlSt) : (d.setCtrl k c).cores = d.cores := rfl
@[simp] theorem Dev.setCtrl_cfg (d : Dev) (k : Nat) (c : CtrlSt) : (d.setCtrl k c).cfg = d.cfg := rfl
@[simp] theorem Dev.setCtrl_crook (d : Dev) (k : Nat) (c : CtrlSt) : (d.setCtrl k c).crook = d.crook := rfl
@[simp] theorem Dev.setCtrl_evt (d : Dev) (k : Nat) (c : CtrlSt) : (d.setCtrl k c).evt = d.evt := rfl
@[simp] theorem Dev.setCtrl_hub (d : Dev) (k : Nat) (c : CtrlSt) : (d.setCtrl k c).hub = d.hub := rfl
@[simp] theorem Dev.setCtrl_media (d : Dev) (k : Nat) (c : CtrlSt) : (d.setCtrl k c).media = d.media := rfl
@[simp] theorem Dev.setCtrl_links (d : Dev) (k : Nat) (c : CtrlSt) : (d.setCtrl k c).links = d.links := rfl
@[simp] theorem Dev.setCtrl_drove (d : Dev) (k : Nat) (c : CtrlSt) : (d.setCtrl k c).drove = d.drove := rfl
@[simp] theorem Dev.setCtrl_mapc (d : Dev) (k : Nat) (c : CtrlSt) : (d.setCtrl k c).mapc = d.mapc := rfl
@[simp] theorem Dev.setCtrl_dram (d : Dev) (k : Nat) (c : CtrlSt) : (d.setCtrl k c).dram = d.dram := rfl
@[simp] theorem Dev.setCtrl_integ (d : Dev) (k : Nat) (c : CtrlSt) : (d.setCtrl k c).integ = d.integ := rfl
@[simp] theorem Dev.setCtrl_fold (d : Dev) (k : Nat) (c : CtrlSt) : (d.setCtrl k c).fold = d.fold := rfl
@[simp] theorem Dev.setCtrl_keys (d : Dev) (k : Nat) (c : CtrlSt) : (d.setCtrl k c).keys = d.keys := rfl
@[simp] theorem Dev.setCtrl_spdm (d : Dev) (k : Nat) (c : CtrlSt) : (d.setCtrl k c).spdm = d.spdm := rfl
@[simp] theorem Dev.setCtrl_tcg (d : Dev) (k : Nat) (c : CtrlSt) : (d.setCtrl k c).tcg = d.tcg := rfl
@[simp] theorem Dev.setCtrl_aes (d : Dev) (k : Nat) (c : CtrlSt) : (d.setCtrl k c).aes = d.aes := rfl
@[simp] theorem Dev.setCtrl_dig (d : Dev) (k : Nat) (c : CtrlSt) : (d.setCtrl k c).dig = d.dig := rfl
@[simp] theorem Dev.setCtrl_pka (d : Dev) (k : Nat) (c : CtrlSt) : (d.setCtrl k c).pka = d.pka := rfl
@[simp] theorem Dev.setCtrl_ilu (d : Dev) (k : Nat) (c : CtrlSt) : (d.setCtrl k c).ilu = d.ilu := rfl
@[simp] theorem Dev.setCtrl_pins (d : Dev) (k : Nat) (c : CtrlSt) : (d.setCtrl k c).pins = d.pins := rfl
@[simp] theorem Dev.setCtrl_pwr (d : Dev) (k : Nat) (c : CtrlSt) : (d.setCtrl k c).pwr = d.pwr := rfl
@[simp] theorem Dev.setCtrl_clk (d : Dev) (k : Nat) (c : CtrlSt) : (d.setCtrl k c).clk = d.clk := rfl
@[simp] theorem Dev.setCtrl_thm (d : Dev) (k : Nat) (c : CtrlSt) : (d.setCtrl k c).thm = d.thm := rfl
@[simp] theorem Dev.setCtrl_walk (d : Dev) (k : Nat) (c : CtrlSt) : (d.setCtrl k c).walk = d.walk := rfl

/-! ### modCtrl changes `nvme` -/

@[simp] theorem Dev.modCtrl_now (d : Dev) (k : Nat) (f : CtrlSt → CtrlSt) : (d.modCtrl k f).now = d.now := rfl
@[simp] theorem Dev.modCtrl_run (d : Dev) (k : Nat) (f : CtrlSt → CtrlSt) : (d.modCtrl k f).run = d.run := rfl
@[simp] theorem Dev.modCtrl_free (d : Dev) (k : Nat) (f : CtrlSt → CtrlSt) : (d.modCtrl k f).free = d.free := rfl
@[simp] theorem Dev.modCtrl_outputs (d : Dev) (k : Nat) (f : CtrlSt → CtrlSt) : (d.modCtrl k f).outputs = d.outputs := rfl
@[simp] theorem Dev.modCtrl_mem (d : Dev) (k : Nat) (f : CtrlSt → CtrlSt) : (d.modCtrl k f).mem = d.mem := rfl
@[simp] theorem Dev.modCtrl_marks (d : Dev) (k : Nat) (f : CtrlSt → CtrlSt) : (d.modCtrl k f).marks = d.marks := rfl
@[simp] theorem Dev.modCtrl_cores (d : Dev) (k : Nat) (f : CtrlSt → CtrlSt) : (d.modCtrl k f).cores = d.cores := rfl
@[simp] theorem Dev.modCtrl_cfg (d : Dev) (k : Nat) (f : CtrlSt → CtrlSt) : (d.modCtrl k f).cfg = d.cfg := rfl
@[simp] theorem Dev.modCtrl_crook (d : Dev) (k : Nat) (f : CtrlSt → CtrlSt) : (d.modCtrl k f).crook = d.crook := rfl
@[simp] theorem Dev.modCtrl_evt (d : Dev) (k : Nat) (f : CtrlSt → CtrlSt) : (d.modCtrl k f).evt = d.evt := rfl
@[simp] theorem Dev.modCtrl_hub (d : Dev) (k : Nat) (f : CtrlSt → CtrlSt) : (d.modCtrl k f).hub = d.hub := rfl
@[simp] theorem Dev.modCtrl_media (d : Dev) (k : Nat) (f : CtrlSt → CtrlSt) : (d.modCtrl k f).media = d.media := rfl
@[simp] theorem Dev.modCtrl_links (d : Dev) (k : Nat) (f : CtrlSt → CtrlSt) : (d.modCtrl k f).links = d.links := rfl
@[simp] theorem Dev.modCtrl_drove (d : Dev) (k : Nat) (f : CtrlSt → CtrlSt) : (d.modCtrl k f).drove = d.drove := rfl
@[simp] theorem Dev.modCtrl_mapc (d : Dev) (k : Nat) (f : CtrlSt → CtrlSt) : (d.modCtrl k f).mapc = d.mapc := rfl
@[simp] theorem Dev.modCtrl_dram (d : Dev) (k : Nat) (f : CtrlSt → CtrlSt) : (d.modCtrl k f).dram = d.dram := rfl
@[simp] theorem Dev.modCtrl_integ (d : Dev) (k : Nat) (f : CtrlSt → CtrlSt) : (d.modCtrl k f).integ = d.integ := rfl
@[simp] theorem Dev.modCtrl_fold (d : Dev) (k : Nat) (f : CtrlSt → CtrlSt) : (d.modCtrl k f).fold = d.fold := rfl
@[simp] theorem Dev.modCtrl_keys (d : Dev) (k : Nat) (f : CtrlSt → CtrlSt) : (d.modCtrl k f).keys = d.keys := rfl
@[simp] theorem Dev.modCtrl_spdm (d : Dev) (k : Nat) (f : CtrlSt → CtrlSt) : (d.modCtrl k f).spdm = d.spdm := rfl
@[simp] theorem Dev.modCtrl_tcg (d : Dev) (k : Nat) (f : CtrlSt → CtrlSt) : (d.modCtrl k f).tcg = d.tcg := rfl
@[simp] theorem Dev.modCtrl_aes (d : Dev) (k : Nat) (f : CtrlSt → CtrlSt) : (d.modCtrl k f).aes = d.aes := rfl
@[simp] theorem Dev.modCtrl_dig (d : Dev) (k : Nat) (f : CtrlSt → CtrlSt) : (d.modCtrl k f).dig = d.dig := rfl
@[simp] theorem Dev.modCtrl_pka (d : Dev) (k : Nat) (f : CtrlSt → CtrlSt) : (d.modCtrl k f).pka = d.pka := rfl
@[simp] theorem Dev.modCtrl_ilu (d : Dev) (k : Nat) (f : CtrlSt → CtrlSt) : (d.modCtrl k f).ilu = d.ilu := rfl
@[simp] theorem Dev.modCtrl_pins (d : Dev) (k : Nat) (f : CtrlSt → CtrlSt) : (d.modCtrl k f).pins = d.pins := rfl
@[simp] theorem Dev.modCtrl_pwr (d : Dev) (k : Nat) (f : CtrlSt → CtrlSt) : (d.modCtrl k f).pwr = d.pwr := rfl
@[simp] theorem Dev.modCtrl_clk (d : Dev) (k : Nat) (f : CtrlSt → CtrlSt) : (d.modCtrl k f).clk = d.clk := rfl
@[simp] theorem Dev.modCtrl_thm (d : Dev) (k : Nat) (f : CtrlSt → CtrlSt) : (d.modCtrl k f).thm = d.thm := rfl
@[simp] theorem Dev.modCtrl_walk (d : Dev) (k : Nat) (f : CtrlSt → CtrlSt) : (d.modCtrl k f).walk = d.walk := rfl

/-! ### setPen changes `nvme` -/

@[simp] theorem Dev.setPen_now (d : Dev) (p : Nat) (x : PenSt) : (d.setPen p x).now = d.now := rfl
@[simp] theorem Dev.setPen_run (d : Dev) (p : Nat) (x : PenSt) : (d.setPen p x).run = d.run := rfl
@[simp] theorem Dev.setPen_free (d : Dev) (p : Nat) (x : PenSt) : (d.setPen p x).free = d.free := rfl
@[simp] theorem Dev.setPen_outputs (d : Dev) (p : Nat) (x : PenSt) : (d.setPen p x).outputs = d.outputs := rfl
@[simp] theorem Dev.setPen_mem (d : Dev) (p : Nat) (x : PenSt) : (d.setPen p x).mem = d.mem := rfl
@[simp] theorem Dev.setPen_marks (d : Dev) (p : Nat) (x : PenSt) : (d.setPen p x).marks = d.marks := rfl
@[simp] theorem Dev.setPen_cores (d : Dev) (p : Nat) (x : PenSt) : (d.setPen p x).cores = d.cores := rfl
@[simp] theorem Dev.setPen_cfg (d : Dev) (p : Nat) (x : PenSt) : (d.setPen p x).cfg = d.cfg := rfl
@[simp] theorem Dev.setPen_crook (d : Dev) (p : Nat) (x : PenSt) : (d.setPen p x).crook = d.crook := rfl
@[simp] theorem Dev.setPen_evt (d : Dev) (p : Nat) (x : PenSt) : (d.setPen p x).evt = d.evt := rfl
@[simp] theorem Dev.setPen_hub (d : Dev) (p : Nat) (x : PenSt) : (d.setPen p x).hub = d.hub := rfl
@[simp] theorem Dev.setPen_media (d : Dev) (p : Nat) (x : PenSt) : (d.setPen p x).media = d.media := rfl
@[simp] theorem Dev.setPen_links (d : Dev) (p : Nat) (x : PenSt) : (d.setPen p x).links = d.links := rfl
@[simp] theorem Dev.setPen_drove (d : Dev) (p : Nat) (x : PenSt) : (d.setPen p x).drove = d.drove := rfl
@[simp] theorem Dev.setPen_mapc (d : Dev) (p : Nat) (x : PenSt) : (d.setPen p x).mapc = d.mapc := rfl
@[simp] theorem Dev.setPen_dram (d : Dev) (p : Nat) (x : PenSt) : (d.setPen p x).dram = d.dram := rfl
@[simp] theorem Dev.setPen_integ (d : Dev) (p : Nat) (x : PenSt) : (d.setPen p x).integ = d.integ := rfl
@[simp] theorem Dev.setPen_fold (d : Dev) (p : Nat) (x : PenSt) : (d.setPen p x).fold = d.fold := rfl
@[simp] theorem Dev.setPen_keys (d : Dev) (p : Nat) (x : PenSt) : (d.setPen p x).keys = d.keys := rfl
@[simp] theorem Dev.setPen_spdm (d : Dev) (p : Nat) (x : PenSt) : (d.setPen p x).spdm = d.spdm := rfl
@[simp] theorem Dev.setPen_tcg (d : Dev) (p : Nat) (x : PenSt) : (d.setPen p x).tcg = d.tcg := rfl
@[simp] theorem Dev.setPen_aes (d : Dev) (p : Nat) (x : PenSt) : (d.setPen p x).aes = d.aes := rfl
@[simp] theorem Dev.setPen_dig (d : Dev) (p : Nat) (x : PenSt) : (d.setPen p x).dig = d.dig := rfl
@[simp] theorem Dev.setPen_pka (d : Dev) (p : Nat) (x : PenSt) : (d.setPen p x).pka = d.pka := rfl
@[simp] theorem Dev.setPen_ilu (d : Dev) (p : Nat) (x : PenSt) : (d.setPen p x).ilu = d.ilu := rfl
@[simp] theorem Dev.setPen_pins (d : Dev) (p : Nat) (x : PenSt) : (d.setPen p x).pins = d.pins := rfl
@[simp] theorem Dev.setPen_pwr (d : Dev) (p : Nat) (x : PenSt) : (d.setPen p x).pwr = d.pwr := rfl
@[simp] theorem Dev.setPen_clk (d : Dev) (p : Nat) (x : PenSt) : (d.setPen p x).clk = d.clk := rfl
@[simp] theorem Dev.setPen_thm (d : Dev) (p : Nat) (x : PenSt) : (d.setPen p x).thm = d.thm := rfl
@[simp] theorem Dev.setPen_walk (d : Dev) (p : Nat) (x : PenSt) : (d.setPen p x).walk = d.walk := rfl

/-! ### releasePen changes `nvme` -/

@[simp] theorem Dev.releasePen_now (d : Dev) (p : Nat) : (d.releasePen p).now = d.now := rfl
@[simp] theorem Dev.releasePen_run (d : Dev) (p : Nat) : (d.releasePen p).run = d.run := rfl
@[simp] theorem Dev.releasePen_free (d : Dev) (p : Nat) : (d.releasePen p).free = d.free := rfl
@[simp] theorem Dev.releasePen_outputs (d : Dev) (p : Nat) : (d.releasePen p).outputs = d.outputs := rfl
@[simp] theorem Dev.releasePen_mem (d : Dev) (p : Nat) : (d.releasePen p).mem = d.mem := rfl
@[simp] theorem Dev.releasePen_marks (d : Dev) (p : Nat) : (d.releasePen p).marks = d.marks := rfl
@[simp] theorem Dev.releasePen_cores (d : Dev) (p : Nat) : (d.releasePen p).cores = d.cores := rfl
@[simp] theorem Dev.releasePen_cfg (d : Dev) (p : Nat) : (d.releasePen p).cfg = d.cfg := rfl
@[simp] theorem Dev.releasePen_crook (d : Dev) (p : Nat) : (d.releasePen p).crook = d.crook := rfl
@[simp] theorem Dev.releasePen_evt (d : Dev) (p : Nat) : (d.releasePen p).evt = d.evt := rfl
@[simp] theorem Dev.releasePen_hub (d : Dev) (p : Nat) : (d.releasePen p).hub = d.hub := rfl
@[simp] theorem Dev.releasePen_media (d : Dev) (p : Nat) : (d.releasePen p).media = d.media := rfl
@[simp] theorem Dev.releasePen_links (d : Dev) (p : Nat) : (d.releasePen p).links = d.links := rfl
@[simp] theorem Dev.releasePen_drove (d : Dev) (p : Nat) : (d.releasePen p).drove = d.drove := rfl
@[simp] theorem Dev.releasePen_mapc (d : Dev) (p : Nat) : (d.releasePen p).mapc = d.mapc := rfl
@[simp] theorem Dev.releasePen_dram (d : Dev) (p : Nat) : (d.releasePen p).dram = d.dram := rfl
@[simp] theorem Dev.releasePen_integ (d : Dev) (p : Nat) : (d.releasePen p).integ = d.integ := rfl
@[simp] theorem Dev.releasePen_fold (d : Dev) (p : Nat) : (d.releasePen p).fold = d.fold := rfl
@[simp] theorem Dev.releasePen_keys (d : Dev) (p : Nat) : (d.releasePen p).keys = d.keys := rfl
@[simp] theorem Dev.releasePen_spdm (d : Dev) (p : Nat) : (d.releasePen p).spdm = d.spdm := rfl
@[simp] theorem Dev.releasePen_tcg (d : Dev) (p : Nat) : (d.releasePen p).tcg = d.tcg := rfl
@[simp] theorem Dev.releasePen_aes (d : Dev) (p : Nat) : (d.releasePen p).aes = d.aes := rfl
@[simp] theorem Dev.releasePen_dig (d : Dev) (p : Nat) : (d.releasePen p).dig = d.dig := rfl
@[simp] theorem Dev.releasePen_pka (d : Dev) (p : Nat) : (d.releasePen p).pka = d.pka := rfl
@[simp] theorem Dev.releasePen_ilu (d : Dev) (p : Nat) : (d.releasePen p).ilu = d.ilu := rfl
@[simp] theorem Dev.releasePen_pins (d : Dev) (p : Nat) : (d.releasePen p).pins = d.pins := rfl
@[simp] theorem Dev.releasePen_pwr (d : Dev) (p : Nat) : (d.releasePen p).pwr = d.pwr := rfl
@[simp] theorem Dev.releasePen_clk (d : Dev) (p : Nat) : (d.releasePen p).clk = d.clk := rfl
@[simp] theorem Dev.releasePen_thm (d : Dev) (p : Nat) : (d.releasePen p).thm = d.thm := rfl
@[simp] theorem Dev.releasePen_walk (d : Dev) (p : Nat) : (d.releasePen p).walk = d.walk := rfl

/-! ### setRoField changes `cfg` -/

@[simp] theorem Dev.setRoField_now (d : Dev) (i v : Nat) : (d.setRoField i v).now = d.now := rfl
@[simp] theorem Dev.setRoField_run (d : Dev) (i v : Nat) : (d.setRoField i v).run = d.run := rfl
@[simp] theorem Dev.setRoField_free (d : Dev) (i v : Nat) : (d.setRoField i v).free = d.free := rfl
@[simp] theorem Dev.setRoField_outputs (d : Dev) (i v : Nat) : (d.setRoField i v).outputs = d.outputs := rfl
@[simp] theorem Dev.setRoField_mem (d : Dev) (i v : Nat) : (d.setRoField i v).mem = d.mem := rfl
@[simp] theorem Dev.setRoField_marks (d : Dev) (i v : Nat) : (d.setRoField i v).marks = d.marks := rfl
@[simp] theorem Dev.setRoField_cores (d : Dev) (i v : Nat) : (d.setRoField i v).cores = d.cores := rfl
@[simp] theorem Dev.setRoField_crook (d : Dev) (i v : Nat) : (d.setRoField i v).crook = d.crook := rfl
@[simp] theorem Dev.setRoField_evt (d : Dev) (i v : Nat) : (d.setRoField i v).evt = d.evt := rfl
@[simp] theorem Dev.setRoField_hub (d : Dev) (i v : Nat) : (d.setRoField i v).hub = d.hub := rfl
@[simp] theorem Dev.setRoField_media (d : Dev) (i v : Nat) : (d.setRoField i v).media = d.media := rfl
@[simp] theorem Dev.setRoField_nvme (d : Dev) (i v : Nat) : (d.setRoField i v).nvme = d.nvme := rfl
@[simp] theorem Dev.setRoField_links (d : Dev) (i v : Nat) : (d.setRoField i v).links = d.links := rfl
@[simp] theorem Dev.setRoField_drove (d : Dev) (i v : Nat) : (d.setRoField i v).drove = d.drove := rfl
@[simp] theorem Dev.setRoField_mapc (d : Dev) (i v : Nat) : (d.setRoField i v).mapc = d.mapc := rfl
@[simp] theorem Dev.setRoField_dram (d : Dev) (i v : Nat) : (d.setRoField i v).dram = d.dram := rfl
@[simp] theorem Dev.setRoField_integ (d : Dev) (i v : Nat) : (d.setRoField i v).integ = d.integ := rfl
@[simp] theorem Dev.setRoField_fold (d : Dev) (i v : Nat) : (d.setRoField i v).fold = d.fold := rfl
@[simp] theorem Dev.setRoField_keys (d : Dev) (i v : Nat) : (d.setRoField i v).keys = d.keys := rfl
@[simp] theorem Dev.setRoField_spdm (d : Dev) (i v : Nat) : (d.setRoField i v).spdm = d.spdm := rfl
@[simp] theorem Dev.setRoField_tcg (d : Dev) (i v : Nat) : (d.setRoField i v).tcg = d.tcg := rfl
@[simp] theorem Dev.setRoField_aes (d : Dev) (i v : Nat) : (d.setRoField i v).aes = d.aes := rfl
@[simp] theorem Dev.setRoField_dig (d : Dev) (i v : Nat) : (d.setRoField i v).dig = d.dig := rfl
@[simp] theorem Dev.setRoField_pka (d : Dev) (i v : Nat) : (d.setRoField i v).pka = d.pka := rfl
@[simp] theorem Dev.setRoField_ilu (d : Dev) (i v : Nat) : (d.setRoField i v).ilu = d.ilu := rfl
@[simp] theorem Dev.setRoField_pins (d : Dev) (i v : Nat) : (d.setRoField i v).pins = d.pins := rfl
@[simp] theorem Dev.setRoField_pwr (d : Dev) (i v : Nat) : (d.setRoField i v).pwr = d.pwr := rfl
@[simp] theorem Dev.setRoField_clk (d : Dev) (i v : Nat) : (d.setRoField i v).clk = d.clk := rfl
@[simp] theorem Dev.setRoField_thm (d : Dev) (i v : Nat) : (d.setRoField i v).thm = d.thm := rfl
@[simp] theorem Dev.setRoField_walk (d : Dev) (i v : Nat) : (d.setRoField i v).walk = d.walk := rfl

/-! ### retireAt changes `cores` -/

@[simp] theorem Dev.retireAt_now (d : Dev) (c : Nat) (a : Word) : (d.retireAt c a).now = d.now := rfl
@[simp] theorem Dev.retireAt_run (d : Dev) (c : Nat) (a : Word) : (d.retireAt c a).run = d.run := rfl
@[simp] theorem Dev.retireAt_free (d : Dev) (c : Nat) (a : Word) : (d.retireAt c a).free = d.free := rfl
@[simp] theorem Dev.retireAt_outputs (d : Dev) (c : Nat) (a : Word) : (d.retireAt c a).outputs = d.outputs := rfl
@[simp] theorem Dev.retireAt_mem (d : Dev) (c : Nat) (a : Word) : (d.retireAt c a).mem = d.mem := rfl
@[simp] theorem Dev.retireAt_marks (d : Dev) (c : Nat) (a : Word) : (d.retireAt c a).marks = d.marks := rfl
@[simp] theorem Dev.retireAt_cfg (d : Dev) (c : Nat) (a : Word) : (d.retireAt c a).cfg = d.cfg := rfl
@[simp] theorem Dev.retireAt_crook (d : Dev) (c : Nat) (a : Word) : (d.retireAt c a).crook = d.crook := rfl
@[simp] theorem Dev.retireAt_evt (d : Dev) (c : Nat) (a : Word) : (d.retireAt c a).evt = d.evt := rfl
@[simp] theorem Dev.retireAt_hub (d : Dev) (c : Nat) (a : Word) : (d.retireAt c a).hub = d.hub := rfl
@[simp] theorem Dev.retireAt_media (d : Dev) (c : Nat) (a : Word) : (d.retireAt c a).media = d.media := rfl
@[simp] theorem Dev.retireAt_nvme (d : Dev) (c : Nat) (a : Word) : (d.retireAt c a).nvme = d.nvme := rfl
@[simp] theorem Dev.retireAt_links (d : Dev) (c : Nat) (a : Word) : (d.retireAt c a).links = d.links := rfl
@[simp] theorem Dev.retireAt_drove (d : Dev) (c : Nat) (a : Word) : (d.retireAt c a).drove = d.drove := rfl
@[simp] theorem Dev.retireAt_mapc (d : Dev) (c : Nat) (a : Word) : (d.retireAt c a).mapc = d.mapc := rfl
@[simp] theorem Dev.retireAt_dram (d : Dev) (c : Nat) (a : Word) : (d.retireAt c a).dram = d.dram := rfl
@[simp] theorem Dev.retireAt_integ (d : Dev) (c : Nat) (a : Word) : (d.retireAt c a).integ = d.integ := rfl
@[simp] theorem Dev.retireAt_fold (d : Dev) (c : Nat) (a : Word) : (d.retireAt c a).fold = d.fold := rfl
@[simp] theorem Dev.retireAt_keys (d : Dev) (c : Nat) (a : Word) : (d.retireAt c a).keys = d.keys := rfl
@[simp] theorem Dev.retireAt_spdm (d : Dev) (c : Nat) (a : Word) : (d.retireAt c a).spdm = d.spdm := rfl
@[simp] theorem Dev.retireAt_tcg (d : Dev) (c : Nat) (a : Word) : (d.retireAt c a).tcg = d.tcg := rfl
@[simp] theorem Dev.retireAt_aes (d : Dev) (c : Nat) (a : Word) : (d.retireAt c a).aes = d.aes := rfl
@[simp] theorem Dev.retireAt_dig (d : Dev) (c : Nat) (a : Word) : (d.retireAt c a).dig = d.dig := rfl
@[simp] theorem Dev.retireAt_pka (d : Dev) (c : Nat) (a : Word) : (d.retireAt c a).pka = d.pka := rfl
@[simp] theorem Dev.retireAt_ilu (d : Dev) (c : Nat) (a : Word) : (d.retireAt c a).ilu = d.ilu := rfl
@[simp] theorem Dev.retireAt_pins (d : Dev) (c : Nat) (a : Word) : (d.retireAt c a).pins = d.pins := rfl
@[simp] theorem Dev.retireAt_pwr (d : Dev) (c : Nat) (a : Word) : (d.retireAt c a).pwr = d.pwr := rfl
@[simp] theorem Dev.retireAt_clk (d : Dev) (c : Nat) (a : Word) : (d.retireAt c a).clk = d.clk := rfl
@[simp] theorem Dev.retireAt_thm (d : Dev) (c : Nat) (a : Word) : (d.retireAt c a).thm = d.thm := rfl
@[simp] theorem Dev.retireAt_walk (d : Dev) (c : Nat) (a : Word) : (d.retireAt c a).walk = d.walk := rfl

/-! ### setRd changes `cores` -/

@[simp] theorem Dev.setRd_now (d : Dev) (c : Nat) (f : Fields) (v : Word) : (d.setRd c f v).now = d.now := rfl
@[simp] theorem Dev.setRd_run (d : Dev) (c : Nat) (f : Fields) (v : Word) : (d.setRd c f v).run = d.run := rfl
@[simp] theorem Dev.setRd_free (d : Dev) (c : Nat) (f : Fields) (v : Word) : (d.setRd c f v).free = d.free := rfl
@[simp] theorem Dev.setRd_outputs (d : Dev) (c : Nat) (f : Fields) (v : Word) : (d.setRd c f v).outputs = d.outputs := rfl
@[simp] theorem Dev.setRd_mem (d : Dev) (c : Nat) (f : Fields) (v : Word) : (d.setRd c f v).mem = d.mem := rfl
@[simp] theorem Dev.setRd_marks (d : Dev) (c : Nat) (f : Fields) (v : Word) : (d.setRd c f v).marks = d.marks := rfl
@[simp] theorem Dev.setRd_cfg (d : Dev) (c : Nat) (f : Fields) (v : Word) : (d.setRd c f v).cfg = d.cfg := rfl
@[simp] theorem Dev.setRd_crook (d : Dev) (c : Nat) (f : Fields) (v : Word) : (d.setRd c f v).crook = d.crook := rfl
@[simp] theorem Dev.setRd_evt (d : Dev) (c : Nat) (f : Fields) (v : Word) : (d.setRd c f v).evt = d.evt := rfl
@[simp] theorem Dev.setRd_hub (d : Dev) (c : Nat) (f : Fields) (v : Word) : (d.setRd c f v).hub = d.hub := rfl
@[simp] theorem Dev.setRd_media (d : Dev) (c : Nat) (f : Fields) (v : Word) : (d.setRd c f v).media = d.media := rfl
@[simp] theorem Dev.setRd_nvme (d : Dev) (c : Nat) (f : Fields) (v : Word) : (d.setRd c f v).nvme = d.nvme := rfl
@[simp] theorem Dev.setRd_links (d : Dev) (c : Nat) (f : Fields) (v : Word) : (d.setRd c f v).links = d.links := rfl
@[simp] theorem Dev.setRd_drove (d : Dev) (c : Nat) (f : Fields) (v : Word) : (d.setRd c f v).drove = d.drove := rfl
@[simp] theorem Dev.setRd_mapc (d : Dev) (c : Nat) (f : Fields) (v : Word) : (d.setRd c f v).mapc = d.mapc := rfl
@[simp] theorem Dev.setRd_dram (d : Dev) (c : Nat) (f : Fields) (v : Word) : (d.setRd c f v).dram = d.dram := rfl
@[simp] theorem Dev.setRd_integ (d : Dev) (c : Nat) (f : Fields) (v : Word) : (d.setRd c f v).integ = d.integ := rfl
@[simp] theorem Dev.setRd_fold (d : Dev) (c : Nat) (f : Fields) (v : Word) : (d.setRd c f v).fold = d.fold := rfl
@[simp] theorem Dev.setRd_keys (d : Dev) (c : Nat) (f : Fields) (v : Word) : (d.setRd c f v).keys = d.keys := rfl
@[simp] theorem Dev.setRd_spdm (d : Dev) (c : Nat) (f : Fields) (v : Word) : (d.setRd c f v).spdm = d.spdm := rfl
@[simp] theorem Dev.setRd_tcg (d : Dev) (c : Nat) (f : Fields) (v : Word) : (d.setRd c f v).tcg = d.tcg := rfl
@[simp] theorem Dev.setRd_aes (d : Dev) (c : Nat) (f : Fields) (v : Word) : (d.setRd c f v).aes = d.aes := rfl
@[simp] theorem Dev.setRd_dig (d : Dev) (c : Nat) (f : Fields) (v : Word) : (d.setRd c f v).dig = d.dig := rfl
@[simp] theorem Dev.setRd_pka (d : Dev) (c : Nat) (f : Fields) (v : Word) : (d.setRd c f v).pka = d.pka := rfl
@[simp] theorem Dev.setRd_ilu (d : Dev) (c : Nat) (f : Fields) (v : Word) : (d.setRd c f v).ilu = d.ilu := rfl
@[simp] theorem Dev.setRd_pins (d : Dev) (c : Nat) (f : Fields) (v : Word) : (d.setRd c f v).pins = d.pins := rfl
@[simp] theorem Dev.setRd_pwr (d : Dev) (c : Nat) (f : Fields) (v : Word) : (d.setRd c f v).pwr = d.pwr := rfl
@[simp] theorem Dev.setRd_clk (d : Dev) (c : Nat) (f : Fields) (v : Word) : (d.setRd c f v).clk = d.clk := rfl
@[simp] theorem Dev.setRd_thm (d : Dev) (c : Nat) (f : Fields) (v : Word) : (d.setRd c f v).thm = d.thm := rfl
@[simp] theorem Dev.setRd_walk (d : Dev) (c : Nat) (f : Fields) (v : Word) : (d.setRd c f v).walk = d.walk := rfl

@[simp] theorem Dev.setCore_cores (d : Dev) (c : Nat) (k : Core) : (d.setCore c k).cores = d.cores.set c k := rfl
@[simp] theorem Dev.emit_outputs (d : Dev) (o : Output) : (d.emit o).outputs = o :: d.outputs := rfl
@[simp] theorem Dev.tickFree_free (d : Dev) : d.tickFree.free = d.free + 1 := rfl
@[simp] theorem State.apply_eq (s : State) (f : Dev → Dev) : s.apply f = .next { s with dev := f s.dev } := rfl

end Sys2Proof.Machine
end

