-- ==== Sys2Proof/Laws/Tab.lean ====
section
/-! SUPPORT. Laws of the sparse tables: a read after a write, two writes to one key, and the sorted form. -/

namespace Sys2Proof.Machine

@[simp] theorem Tab.get_nil {α : Type} (d : α) (k : Nat) : Tab.get d ([] : Tab α) k = d := rfl

@[simp] theorem Tab.get_set_same {α : Type} (d v : α) (k : Nat) (t : Tab α) : (t.set k v).get d k = v := by
  induction t with
  | nil => simp [Tab.set, Tab.get]
  | cons e t ih =>
    obtain ⟨k', v'⟩ := e
    by_cases h1 : k < k'
    · simp [Tab.set, Tab.get, h1]
    · by_cases h2 : k = k'
      · simp [Tab.set, Tab.get, h2]
      · have h3 : ¬ k' = k := fun h => h2 h.symm
        simp [Tab.set, Tab.get, h1, h2, h3]
        exact ih

theorem Tab.get_set_other {α : Type} (d v : α) {k j : Nat} (h : j ≠ k) (t : Tab α) :
    (t.set k v).get d j = t.get d j := by
  have h' : ¬ k = j := fun e => h e.symm
  induction t with
  | nil => simp [Tab.set, Tab.get, h']
  | cons e t ih =>
    obtain ⟨k', v'⟩ := e
    by_cases h1 : k < k'
    · simp [Tab.set, Tab.get, h1, h']
    · by_cases h2 : k = k'
      · subst h2; simp [Tab.set, Tab.get, h']
      · by_cases h3 : k' = j
        · subst h3; simp [Tab.set, Tab.get, h1, h2]
        · simp [Tab.set, Tab.get, h1, h2, h3]
          exact ih

@[simp] theorem Tab.get?_set_same {α : Type} (v : α) (k : Nat) (t : Tab α) : (t.set k v).get? k = some v := by
  induction t with
  | nil => simp [Tab.set, Tab.get?]
  | cons e t ih =>
    obtain ⟨k', v'⟩ := e
    by_cases h1 : k < k'
    · simp [Tab.set, Tab.get?, h1]
    · by_cases h2 : k = k'
      · simp [Tab.set, Tab.get?, h2]
      · have h3 : ¬ k' = k := fun h => h2 h.symm
        simp [Tab.set, Tab.get?, h1, h2, h3]
        exact ih

theorem Tab.get?_set_other {α : Type} (v : α) {k j : Nat} (h : j ≠ k) (t : Tab α) :
    (t.set k v).get? j = t.get? j := by
  have h' : ¬ k = j := fun e => h e.symm
  induction t with
  | nil => simp [Tab.set, Tab.get?, h']
  | cons e t ih =>
    obtain ⟨k', v'⟩ := e
    by_cases h1 : k < k'
    · simp [Tab.set, Tab.get?, h1, h']
    · by_cases h2 : k = k'
      · subst h2; simp [Tab.set, Tab.get?, h']
      · by_cases h3 : k' = j
        · subst h3; simp [Tab.set, Tab.get?, h1, h2]
        · simp [Tab.set, Tab.get?, h1, h2, h3]
          exact ih

@[simp] theorem Tab.set_set {α : Type} (u v : α) (k : Nat) (t : Tab α) : (t.set k u).set k v = t.set k v := by
  induction t with
  | nil => simp [Tab.set]
  | cons e t ih =>
    obtain ⟨k', v'⟩ := e
    by_cases h1 : k < k'
    · simp [Tab.set, h1]
    · by_cases h2 : k = k'
      · simp [Tab.set, h2]
      · simp [Tab.set, h1, h2]
        exact ih

end Sys2Proof.Machine
end

