-- ==== Sys2Proof/Laws/Complete.lean ====
section
/-! SUPPORT. Laws of completions: what ending a command leaves, and what it does not touch. -/

namespace Sys2Proof.Machine

open Sys2Proof.Safety

@[simp] theorem Tab.get?_erase_same {α : Type} (k : Nat) (t : Tab α) : (t.erase k).get? k = none := by
  induction t with
  | nil => rfl
  | cons e t ih =>
    obtain ⟨j, v⟩ := e
    by_cases h : j = k
    · have hb : (j != k) = false := by simp [h]
      simp only [Tab.erase, List.filter, hb]; exact ih
    · have hb : (j != k) = true := by simp [h]
      simp only [Tab.erase, List.filter, hb, Tab.get?, if_neg h]; exact ih

/-- `b` differs from `a` at most in the NVMe front end, the drove engine's staged codewords and what has left the device. -/
structure SameBut (a b : Dev) : Prop where
  nvme : ∃ n u o, b = { a with nvme := n, drove := u, outputs := o }

theorem SameBut.refl (a : Dev) : SameBut a a := ⟨a.nvme, a.drove, a.outputs, rfl⟩

theorem SameBut.trans {a b c : Dev} (h : SameBut a b) (g : SameBut b c) : SameBut a c := by
  obtain ⟨n, u, o, rfl⟩ := h
  obtain ⟨n', u', o', rfl⟩ := g
  exact ⟨n', u', o', rfl⟩

theorem Dev.modPen_same (d : Dev) (p : Nat) (f : PenSt → PenSt) : SameBut d (d.modPen p f) := by
  unfold Dev.modPen; split
  · exact ⟨_, _, _, rfl⟩
  · exact .refl _

theorem Dev.settlePosted_same (d : Dev) (p : Nat) (b : Bool) : SameBut d (d.settlePosted p b) := by
  unfold Dev.settlePosted; split
  · exact ⟨_, _, _, rfl⟩
  · exact .refl _

theorem Dev.raiseIrq_same (d : Dev) (k q : Nat) (c : CqSt) : SameBut d (d.raiseIrq k q c).1 := by
  unfold Dev.raiseIrq; dsimp only; split
  · exact .refl _
  · split
    · exact ⟨_, _, _, rfl⟩
    · exact .refl _

theorem Dev.tryPostOne_same (d : Dev) (p : Nat) : SameBut d (d.tryPostOne p) := by
  unfold Dev.tryPostOne; dsimp only
  split
  · exact .refl _
  · split
    · exact .refl _
    · split
      · exact (Dev.settlePosted_same d p false).trans ⟨_, _, _, rfl⟩
      · split
        · exact .refl _
        · split <;> split
          · exact .refl _
          · exact ((SameBut.trans ⟨_, _, _, rfl⟩ (Dev.raiseIrq_same _ _ _ _)).trans ⟨_, _, _, rfl⟩).trans
              (SameBut.trans (Dev.settlePosted_same _ p true) ⟨_, _, _, rfl⟩)
          · exact .refl _
          · exact ((SameBut.trans ⟨_, _, _, rfl⟩ (Dev.raiseIrq_same _ _ _ _)).trans ⟨_, _, _, rfl⟩).trans
              (SameBut.trans (Dev.settlePosted_same _ p true) ⟨_, _, _, rfl⟩)

theorem Dev.finishSqDelete_same (d : Dev) (k q : Nat) : SameBut d (d.finishSqDelete k q) := by
  unfold Dev.finishSqDelete; dsimp only
  split
  · exact .refl _
  · split
    · exact .refl _
    · split
      · exact .refl _
      · exact (SameBut.trans ⟨_, _, _, rfl⟩ (Dev.modPen_same _ _ _)).trans (Dev.tryPostOne_same _ _)

theorem Dev.tryPost_same (d : Dev) (p : Nat) : SameBut d (d.tryPost p) := by
  unfold Dev.tryPost; dsimp only
  split
  · exact .refl _
  · split
    · exact (Dev.tryPostOne_same _ _).trans (Dev.finishSqDelete_same _ _ _)
    · exact Dev.tryPostOne_same _ _

/-- Ending a command touches only the front end, the staged codewords and the outputs. -/
theorem Dev.complete_same (d : Dev) (p st dw0 : Nat) : SameBut d (d.complete p st dw0) :=
  (Dev.modPen_same _ _ _).trans (Dev.tryPost_same _ _)

/-- What has left the device stays in its record. -/
theorem Dev.modPen_outputs (d : Dev) (p : Nat) (f : PenSt → PenSt) : (d.modPen p f).outputs = d.outputs := by
  unfold Dev.modPen; split <;> rfl

theorem Dev.settlePosted_outputs (d : Dev) (p : Nat) (b : Bool) : (d.settlePosted p b).outputs = d.outputs := by
  unfold Dev.settlePosted; split <;> rfl

theorem Dev.settlePosted_nvme (d : Dev) (p : Nat) (b : Bool) : (d.settlePosted p b).nvme = d.nvme := by
  unfold Dev.settlePosted; split <;> rfl

theorem Dev.raiseIrq_mono (d : Dev) (k q : Nat) (c : CqSt) (o : Output) (h : o ∈ d.outputs) : o ∈ (d.raiseIrq k q c).1.outputs := by
  unfold Dev.raiseIrq; dsimp only; split
  · exact h
  · split
    · exact List.mem_cons_of_mem _ h
    · exact h

theorem Dev.tryPostOne_mono (d : Dev) (p : Nat) (o : Output) (h : o ∈ d.outputs) : o ∈ (d.tryPostOne p).outputs := by
  unfold Dev.tryPostOne; dsimp only
  split
  · exact h
  · split
    · exact h
    · split
      · simpa [Dev.settlePosted_outputs] using h
      · split
        · exact h
        · split <;> split
          · exact h
          · simp only [Dev.releasePen_outputs, Dev.settlePosted_outputs, Dev.modCtrl_outputs]
            exact Dev.raiseIrq_mono _ _ _ _ _ (List.mem_cons_of_mem _ h)
          · exact h
          · simp only [Dev.releasePen_outputs, Dev.settlePosted_outputs, Dev.modCtrl_outputs]
            exact Dev.raiseIrq_mono _ _ _ _ _ (List.mem_cons_of_mem _ h)

theorem Dev.finishSqDelete_mono (d : Dev) (k q : Nat) (o : Output) (h : o ∈ d.outputs) : o ∈ (d.finishSqDelete k q).outputs := by
  unfold Dev.finishSqDelete; dsimp only
  split
  · exact h
  · split
    · exact h
    · split
      · exact h
      · exact Dev.tryPostOne_mono _ _ _ (by rw [Dev.modPen_outputs]; exact h)

/-- A free pen stays free. -/
theorem Dev.modPen_pen_none (d : Dev) (p r : Nat) (f : PenSt → PenSt) (h : d.pen p = none) : (d.modPen r f).pen p = none := by
  unfold Dev.modPen; split
  · rename_i x hx
    have hne : p ≠ r := fun e => by rw [e, hx] at h; cases h
    simpa [Dev.pen, Dev.setPen, Tab.get?_set_other _ hne] using h
  · exact h

theorem Tab.get?_erase_none {α : Type} {k : Nat} (j : Nat) (t : Tab α) (h : t.get? k = none) : (t.erase j).get? k = none := by
  induction t with
  | nil => rfl
  | cons e t ih =>
    obtain ⟨i, v⟩ := e
    have hi : i ≠ k := by
      intro e; simp [Tab.get?, e] at h
    have ht : Tab.get? t k = none := by simpa [Tab.get?, hi] using h
    by_cases hj : i = j
    · have hb : (i != j) = false := by simp [hj]
      simp only [Tab.erase, List.filter, hb]; exact ih ht
    · have hb : (i != j) = true := by simp [hj]
      simp only [Tab.erase, List.filter, hb, Tab.get?, if_neg hi]; exact ih ht

theorem Dev.raiseIrq_nvme (d : Dev) (k q : Nat) (c : CqSt) : (d.raiseIrq k q c).1.nvme = d.nvme := by
  unfold Dev.raiseIrq; dsimp only; split
  · rfl
  · split <;> rfl

theorem Dev.tryPostOne_pen_none (d : Dev) (p r : Nat) (h : d.pen p = none) : (d.tryPostOne r).pen p = none := by
  unfold Dev.tryPostOne; dsimp only
  split
  · exact h
  · split
    · exact h
    · split
      · simp only [Dev.pen, Dev.releasePen, Dev.settlePosted_nvme]; exact Tab.get?_erase_none _ _ h
      · split
        · exact h
        · split <;> split
          · exact h
          · simp only [Dev.pen, Dev.releasePen, Dev.settlePosted_nvme, Dev.modCtrl, Dev.setCtrl, Dev.raiseIrq_nvme]
            exact Tab.get?_erase_none _ _ h
          · exact h
          · simp only [Dev.pen, Dev.releasePen, Dev.settlePosted_nvme, Dev.modCtrl, Dev.setCtrl, Dev.raiseIrq_nvme]
            exact Tab.get?_erase_none _ _ h

theorem Dev.finishSqDelete_pen_none (d : Dev) (k q p : Nat) (h : d.pen p = none) : (d.finishSqDelete k q).pen p = none := by
  unfold Dev.finishSqDelete; dsimp only
  split
  · exact h
  · split
    · exact h
    · split
      · exact h
      · exact Dev.tryPostOne_pen_none _ _ _ (Dev.modPen_pen_none _ _ _ _ h)

/-- Posting one pen whose completion is due leaves it due or posts it and frees the pen. -/
theorem Dev.tryPostOne_ended (d : Dev) (p : Nat) (x : PenSt) (st dw0 : Nat) (h : d.pen p = some x) (hd : x.due = some (st, dw0))
    (ho : x.stage ≠ .orphan) :
    d.tryPostOne p = d ∨ ((d.tryPostOne p).pen p = none ∧ Output.completion x.ctrl x.sq x.cid st dw0 ∈ (d.tryPostOne p).outputs) := by
  unfold Dev.tryPostOne; simp only [h, hd, ho, if_false]
  split
  · exact .inl rfl
  · split <;> split
    · exact .inl rfl
    · right
      constructor
      · simp [Dev.pen, Dev.releasePen]
      · simp only [Dev.releasePen_outputs, Dev.settlePosted_outputs, Dev.modCtrl_outputs]
        exact Dev.raiseIrq_mono _ _ _ _ _ (List.mem_cons_self ..)
    · exact .inl rfl
    · right
      constructor
      · simp [Dev.pen, Dev.releasePen]
      · simp only [Dev.releasePen_outputs, Dev.settlePosted_outputs, Dev.modCtrl_outputs]
        exact Dev.raiseIrq_mono _ _ _ _ _ (List.mem_cons_self ..)

/-- The pen that is changed. -/
theorem Dev.modPen_pen (d : Dev) (p : Nat) (f : PenSt → PenSt) (x : PenSt) (h : d.pen p = some x) : (d.modPen p f).pen p = some (f x) := by
  unfold Dev.modPen; rw [h]; simp [Dev.pen, Dev.setPen]

/-- Ending the command of a pen that is no orphan: its completion is posted and the pen is free, or the pen holds it. -/
theorem Dev.complete_ended (d : Dev) (p : Nat) (x : PenSt) (st dw0 : Nat) (h : d.pen p = some x) (ho : x.stage ≠ .orphan) :
    EndedWith p x st dw0 (d.complete p st dw0) := by
  have hp : (d.modPen p (fun x => { x with due := some (st, dw0) })).pen p = some { x with due := some (st, dw0) } :=
    Dev.modPen_pen _ _ _ _ h
  unfold Dev.complete Dev.tryPost
  simp only [hp]
  rcases Dev.tryPostOne_ended _ p _ st dw0 hp rfl ho with e | ⟨e1, e2⟩
  · rw [e, hp]; exact .inr ⟨_, hp, rfl, rfl, rfl, rfl⟩
  · rw [e1]
    exact .inl ⟨Dev.finishSqDelete_pen_none _ _ _ _ e1, Dev.finishSqDelete_mono _ _ _ _ e2⟩

end Sys2Proof.Machine
end

