-- ==== Sys2Proof/Laws/Core.lean ====
section
/-! SUPPORT. Laws of the cores: reading and writing a core, general registers, and what one instruction does once it may execute. -/

namespace Sys2Proof.Machine

open Sys2Proof.Safety

@[simp] theorem Dev.core_setCore (d : Dev) (c : Nat) (k : Core) : (d.setCore c k).core c = k := by
  simp [Dev.core]

theorem Dev.core_setCore_other (d : Dev) {c j : Nat} (h : j ≠ c) (k : Core) : (d.setCore c k).core j = d.core j := by
  simp [Dev.core, Tab.get_set_other _ _ h]

@[simp] theorem Dev.setCore_setCore (d : Dev) (c : Nat) (k l : Core) : (d.setCore c k).setCore c l = d.setCore c l := by
  simp [Dev.setCore]

@[simp] theorem Core.reg_zero (k : Core) : k.reg 0#5 = 0 := rfl

@[simp] theorem Core.setReg_zero (k : Core) (v : Word) : k.setReg 0#5 v = k := rfl

/-- A write to another register than g0 sets that register alone. -/
theorem Core.setReg_eq (k : Core) (r : BitVec 5) (v : Word) (h : r ≠ 0#5) :
    k.setReg r v = { k with regs := k.regs.set r.toNat v r.isLt } := if_neg h

theorem Core.reg_eq (k : Core) (r : BitVec 5) (h : r ≠ 0#5) : k.reg r = k.regs[r.toNat]'(r.isLt) := if_neg h

theorem Core.reg_setReg_same (k : Core) (r : BitVec 5) (v : Word) (h : r ≠ 0#5) : (k.setReg r v).reg r = v := by
  simp [Core.reg_eq _ _ h, Core.setReg_eq _ _ _ h]

theorem Core.reg_setReg_other (k : Core) (r q : BitVec 5) (v : Word) (h : q ≠ r) : (k.setReg r v).reg q = k.reg q := by
  by_cases hr : r = 0#5
  · subst hr; rfl
  · by_cases hq : q = 0#5
    · subst hq; rfl
    · have hn : r.toNat ≠ q.toNat := fun e => h (BitVec.eq_of_toNat_eq e).symm
      simp [Core.reg_eq _ _ hq, Core.setReg_eq _ _ _ hr, Vector.getElem_set_ne _ _ hn]

@[simp] theorem Core.setReg_pc (k : Core) (r : BitVec 5) (v : Word) : (k.setReg r v).pc = k.pc := by
  unfold Core.setReg; split <;> rfl

@[simp] theorem Core.setReg_instret (k : Core) (r : BitVec 5) (v : Word) : (k.setReg r v).instret = k.instret := by
  unfold Core.setReg; split <;> rfl

/-- An instruction that is fetched and passes its checks is finished. -/
theorem Dev.runInstr_ready {d : Dev} {c : CoreId} {f : Fields} {i : OpInfo} (body : Except Trap (Dev × After)) (h : Ready d c f i) :
    d.runInstr c.val f i body = d.finish c.val body := by
  obtain ⟨⟨h1, h2, h3, h4, h5⟩, h6, -⟩ := h
  have h4' : ¬ ((d.core c.val).level = .o ∧ (d.core c.val).pc = Config.exitStub) := fun e => h4 e.1 e.2
  simp [Dev.runInstr, Dev.canStep, h1, h2, h3, h4', h5, h6]

/-- With no event due, an instruction that goes on retires at the next one. -/
theorem Dev.finish_next {d d1 : Dev} {c : Nat} (h : d.eventDue c = none) :
    d.finish c (.ok (d1, .next)) = d1.retireAt c ((d.core c).pc + 8) := by
  simp [Dev.finish, h]

theorem Dev.finish_jump {d d1 : Dev} {c : Nat} {a : Word} (h : d.eventDue c = none) :
    d.finish c (.ok (d1, .jump a)) = d1.retireAt c a := by
  simp [Dev.finish, h]

theorem Dev.finish_stay {d d1 : Dev} {c : Nat} (h : d.eventDue c = none) : d.finish c (.ok (d1, .stay)) = d1 := by
  simp [Dev.finish, h]

/-- An instruction whose own fault is taken enters the trap at its own address. -/
theorem Dev.finish_fault {d : Dev} {c : Nat} {t : Trap} (ht : t.next = false) :
    d.finish c (.error t) = d.trap c t (d.core c).pc := by
  simp [Dev.finish, ht]

/-- Outside a trap and above level O, taking a trap is entering it and nothing else. -/
theorem Dev.trap_enter {d : Dev} {c : Nat} {t : Trap} {epc : Word} (h : (d.core c).inTrap = false) (hl : (d.core c).level ≠ .o) :
    d.trap c t epc = d.setCore c ((d.core c).enterTrap c t epc) := by
  simp [Dev.trap, h, hl]

/-- An instruction that only writes rd. -/
theorem Dev.runInstr_writes {d : Dev} {c : CoreId} {f : Fields} {i : OpInfo} (v : Word) (h : Ready d c f i) :
    d.runInstr c.val f i (d.writes c.val f v) = d.setCore c.val (Core.wrote (d.core c.val) f v) := by
  rw [Dev.runInstr_ready _ h, Dev.writes, Dev.finish_next h.2.2]
  simp [Dev.retireAt, Dev.setRd, Dev.modCore, Core.wrote, Core.after]

end Sys2Proof.Machine
end

