-- ==== Sys2Proof/Laws/Mem.lean ====
section
/-! SUPPORT. Laws of memory: every operation keeps the canonical form, a read after a write gives the bytes written, and every other
address keeps its byte. -/

namespace Sys2Proof.Machine

theorem memWfFrom_le {m : List Host.Cell} {i j : Nat} (h : i ≤ j) (w : memWfFrom j m = true) : memWfFrom i m = true := by
  cases m with
  | nil => rfl
  | cons e t =>
    simp only [memWfFrom, Bool.and_eq_true, decide_eq_true_eq] at w ⊢
    exact ⟨⟨by omega, w.1.2⟩, w.2⟩

theorem memWfFrom_memPut {k : Nat} {v : Byte} (hv : v ≠ 0) {m : List Host.Cell} {lo : Nat} (hk : lo ≤ k)
    (w : memWfFrom lo m = true) : memWfFrom lo (memPut k v m) = true := by
  induction m generalizing lo with
  | nil => simpa [memPut, memWfFrom, hk] using hv
  | cons e t ih =>
    obtain ⟨a, b⟩ := e
    simp only [memWfFrom, Bool.and_eq_true, decide_eq_true_eq, bne_iff_ne, ne_eq] at w
    unfold memPut
    split
    · simp only [memWfFrom, Bool.and_eq_true, decide_eq_true_eq, bne_iff_ne, ne_eq]
      exact ⟨⟨hk, hv⟩, ⟨⟨by omega, w.1.2⟩, w.2⟩⟩
    · split
      · simp only [memWfFrom, Bool.and_eq_true, decide_eq_true_eq, bne_iff_ne, ne_eq]
        exact ⟨⟨hk, hv⟩, memWfFrom_le (by omega) w.2⟩
      · simp only [memWfFrom, Bool.and_eq_true, decide_eq_true_eq, bne_iff_ne, ne_eq]
        exact ⟨w.1, ih (by omega) w.2⟩

theorem memWfFrom_memDrop {k : Nat} {m : List Host.Cell} {lo : Nat} (w : memWfFrom lo m = true) :
    memWfFrom lo (memDrop k m) = true := by
  induction m generalizing lo with
  | nil => rfl
  | cons e t ih =>
    obtain ⟨a, b⟩ := e
    simp only [memWfFrom, Bool.and_eq_true, decide_eq_true_eq, bne_iff_ne, ne_eq] at w
    unfold memDrop
    split
    · exact memWfFrom_le (by omega) w.2
    · simp only [memWfFrom, Bool.and_eq_true, decide_eq_true_eq, bne_iff_ne, ne_eq]
      exact ⟨w.1, ih w.2⟩

theorem memWfFrom_filter {p : Host.Cell → Bool} {m : List Host.Cell} {lo : Nat} (w : memWfFrom lo m = true) :
    memWfFrom lo (m.filter p) = true := by
  induction m generalizing lo with
  | nil => rfl
  | cons e t ih =>
    obtain ⟨a, b⟩ := e
    simp only [memWfFrom, Bool.and_eq_true, decide_eq_true_eq, bne_iff_ne, ne_eq] at w
    simp only [List.filter_cons]
    split
    · simp only [memWfFrom, Bool.and_eq_true, decide_eq_true_eq, bne_iff_ne, ne_eq]
      exact ⟨w.1, ih w.2⟩
    · exact memWfFrom_le (by omega) (ih w.2)

/-- Writing a byte keeps the canonical form. -/
theorem memWf_memSet (k : Nat) (v : Byte) {m : List Host.Cell} (w : memWf m = true) : memWf (memSet k v m) = true := by
  unfold memSet
  split
  · exact memWfFrom_memDrop w
  · exact memWfFrom_memPut ‹_› (Nat.zero_le k) w

/-- Writing a run of bytes keeps the canonical form. -/
theorem memWf_memSetRun (bs : Bytes) (k : Nat) {m : List Host.Cell} (w : memWf m = true) : memWf (memSetRun k bs m) = true := by
  induction bs generalizing k m with
  | nil => exact w
  | cons b bs ih => exact ih (k + 1) (memWf_memSet k b w)

/-- Losing some addresses keeps the canonical form. -/
theorem memWf_filter (p : Host.Cell → Bool) {m : List Host.Cell} (w : memWf m = true) : memWf (m.filter p) = true := memWfFrom_filter w

theorem memWf_putBytes {d : Dev} (a : Nat) (b : Bytes) (w : memWf d.mem = true) : memWf (d.putBytes a b).mem = true :=
  memWf_memSetRun b a w

theorem memGet_memPut_same (k : Nat) (v : Byte) (m : List Host.Cell) : memGet (memPut k v m) k = v := by
  induction m with
  | nil => simp [memPut, memGet]
  | cons e t ih =>
    obtain ⟨a, b⟩ := e
    unfold memPut
    split
    · simp [memGet]
    · split
      · simp [memGet]
      · next h => simp only [memGet, if_neg (fun e : a = k => h e.symm)]; exact ih

theorem memGet_memPut_other {k j : Nat} (h : j ≠ k) (v : Byte) (m : List Host.Cell) : memGet (memPut k v m) j = memGet m j := by
  have h' : ¬ k = j := fun e => h e.symm
  induction m with
  | nil => simp [memPut, memGet, h']
  | cons e t ih =>
    obtain ⟨a, b⟩ := e
    unfold memPut
    split
    · simp [memGet, h']
    · split
      · next e => subst e; simp [memGet, h']
      · simp only [memGet]; split
        · rfl
        · exact ih

theorem memGet_eq_zero {m : List Host.Cell} {lo k : Nat} (w : memWfFrom lo m = true) (h : k < lo) : memGet m k = 0 := by
  induction m generalizing lo with
  | nil => rfl
  | cons e t ih =>
    obtain ⟨a, b⟩ := e
    simp only [memWfFrom, Bool.and_eq_true, decide_eq_true_eq] at w
    have hne : ¬ a = k := by omega
    simp only [memGet, if_neg hne]
    exact ih w.2 (by omega)

theorem memGet_memDrop_same {m : List Host.Cell} {lo k : Nat} (w : memWfFrom lo m = true) : memGet (memDrop k m) k = 0 := by
  induction m generalizing lo with
  | nil => rfl
  | cons e t ih =>
    obtain ⟨a, b⟩ := e
    simp only [memWfFrom, Bool.and_eq_true, decide_eq_true_eq] at w
    unfold memDrop
    split
    · next e => exact memGet_eq_zero w.2 (by omega)
    · next e => simp only [memGet, if_neg e]; exact ih w.2

theorem memGet_memDrop_other {k j : Nat} (h : j ≠ k) (m : List Host.Cell) : memGet (memDrop k m) j = memGet m j := by
  induction m with
  | nil => rfl
  | cons e t ih =>
    obtain ⟨a, b⟩ := e
    unfold memDrop
    split
    · next e => simp only [memGet, if_neg (show ¬ a = j by omega)]
    · simp only [memGet]; split
      · rfl
      · exact ih

theorem memGet_memSet_same {m : List Host.Cell} (w : memWf m = true) (k : Nat) (v : Byte) : memGet (memSet k v m) k = v := by
  unfold memSet
  split
  · next h => rw [h]; exact memGet_memDrop_same w
  · exact memGet_memPut_same k v m

theorem memGet_memSet_other {k j : Nat} (h : j ≠ k) (v : Byte) (m : List Host.Cell) : memGet (memSet k v m) j = memGet m j := by
  unfold memSet
  split
  · exact memGet_memDrop_other h m
  · exact memGet_memPut_other h v m

/-- A run of bytes leaves every address outside it. -/
theorem memGet_memSetRun_other {j : Nat} (bs : Bytes) (k : Nat) (m : List Host.Cell) (h : j < k ∨ k + bs.length ≤ j) :
    memGet (memSetRun k bs m) j = memGet m j := by
  induction bs generalizing k m with
  | nil => rfl
  | cons b bs ih =>
    simp only [List.length_cons] at h
    rw [memSetRun, ih (k + 1) _ (by omega), memGet_memSet_other (by omega)]

/-- A read of a run of bytes that has just been written gives those bytes. -/
theorem memRun_memSetRun {m : List Host.Cell} (w : memWf m = true) (bs : Bytes) (k : Nat) :
    memRun (memSetRun k bs m) k bs.length = bs := by
  induction bs generalizing k m with
  | nil => rfl
  | cons b bs ih =>
    simp only [List.length_cons, memRun, memSetRun]
    rw [ih (memWf_memSet k b w), memGet_memSetRun_other bs (k + 1) _ (by omega), memGet_memSet_same w]

theorem Dev.bytes_putBytes {d : Dev} (w : memWf d.mem = true) (a : Nat) (b : Bytes) : (d.putBytes a b).bytes a b.length = b :=
  memRun_memSetRun w b a

theorem Dev.byte_putBytes_other (d : Dev) {a j : Nat} (b : Bytes) (h : j < a ∨ a + b.length ≤ j) :
    (d.putBytes a b).byte j = d.byte j := memGet_memSetRun_other b a d.mem h

end Sys2Proof.Machine
end

