-- ==== Sys2Proof/Tests/Slice0.lean ====
section
/-! SUPPORT. Small tests: what WellFormed refuses, one step on small states, and for each statement with hypotheses a state and operands
that meet them together. -/

namespace Sys2Proof.Tests

open Sys2Proof.Machine Sys2Proof.Safety

set_option Elab.async false

/-! ### Small states -/

/-- A device state with an empty queue. -/
def st (d : Dev) : State := { pending := [], dev := d }
/-- The device at reset. -/
abbrev d0 : Dev := Dev.init
/-- A core running at a level at the base of its scratch: page 0 holds code and page 1 data. -/
def runs (c : Nat) (lv : Level) (regs : List (BitVec 5 × Word)) : Core :=
  regs.foldl (fun k e => k.setReg e.1 e.2)
    { Core.init c with run := .running, level := lv, pc := BitVec.ofNat 64 (scratchBase c),
                       pages := [(0, { r := true, w := false, x := true }), (1, { r := true, w := true, x := false })] }
/-- The device with that core alone. -/
def one (c : Nat) (lv : Level) (regs : List (BitVec 5 × Word)) : Dev := { d0 with cores := [(c, runs c lv regs)] }
/-- Instruction fields. -/
def fl (rd rs1 rs2 : BitVec 5) (imm : BitVec 41) : Fields := { rd := rd, rs1 := rs1, rs2 := rs2, imm := imm }

/-- A result that meets a test is some result. -/
theorem ok_of {α ε : Type} {e : Except ε α} (p : α → Bool) (h : (match e with | .ok a => p a | .error _ => false) = true) :
    ∃ a, e = .ok a ∧ p a = true := by
  cases e with
  | ok a => exact ⟨a, rfl, h⟩
  | error _ => cases h
/-- The same for an option. -/
theorem some_of {α : Type} {e : Option α} (p : α → Bool) (h : e.any p = true) : ∃ a, e = some a ∧ p a = true := by
  cases e with
  | some a => exact ⟨a, rfl, h⟩
  | none => cases h

/-- The command of an opcode with some dwords, fetched from a submission queue of controller 0. -/
def cmd (sq op : Nat) (l : List (Nat × Nat)) : PenSt :=
  { ctrl := 0, sq := sq, cid := 7, cdw := (List.range 16).map (fun i => if i = 0 then op else Tab.get 0 l i), fetch := 1, adminPen := sq == 0,
    stage := .ready, walk := 1, ius := [], data := [], retries := 0, due := none }
/-- A device with commands in pens 0, 1, … and controller 0 as given. -/
def holds (xs : List PenSt) (k : CtrlSt) (d : Dev) : Dev :=
  { d with nvme := { d.nvme with pens := (List.range xs.length).zip xs, ctrls := [(0, k)] } }
/-- A controller that is ready, its movers running. -/
def ctrlUp : CtrlSt := { CtrlSt.init with en := true, rdy := true, bme := true }

/-! ### Statements about the Bexob instructions -/

theorem wit_BexobRegisterOperations :
    (∀ r ∈ registerOps, Ready (one 1 .v [(1, 5), (2, -1)]) 1 (fl 3 1 2 0) (opR r.1))
    ∧ (∀ r ∈ bitOps, Ready (one 40 .v [(1, 5)]) 40 (fl 0 1 0 0) (opR1 r.1)) := by
  unfold Ready Fetches; decide +kernel

theorem wit_BexobImmediateOperations : ∀ r ∈ immediateOps,
    Ready (one 0 .f [(1, 5)]) 0 (fl 31 (if r.1.rs1 then 1 else 0) 0 63) r.1 := by
  unfold Ready Fetches; decide +kernel

theorem wit_BexobBranches :
    (∀ r ∈ branchOps, Ready (one 1 .v [(1, 5)]) 1 (fl 0 1 2 (-1)) (opS r.1))
    ∧ Ready (one 1 .v []) 1 (fl 1 0 0 (-1)) { opI 0x36 with rs1 := false }
    ∧ (∀ x ∈ [16, 17], Ready (one 1 .v [(1, BitVec.ofNat 64 x)]) 1 (fl 1 1 0 (-8)) (opI 0x37))
    ∧ ((one 1 .v []).core 1).inTrap = false ∧ ((one 1 .v []).core 1).level ≠ .o
    ∧ ((16 : Word) + (-8 : BitVec 41).signExtend 64).extractLsb' 0 3 = 0 ∧ ((17 : Word) + (-8 : BitVec 41).signExtend 64).extractLsb' 0 3 ≠ 0 := by
  unfold Ready Fetches; decide +kernel

/-- A core at its data page. -/
def dataAt (x : Word) : Dev := one 1 .v [(1, x), (2, 7)]

/-- Its last doubleword is plain memory that it may load, store and update. -/
theorem dataAt_access : (dataAt 0x8001FF8).access 1 .v 0x8001FF8 .load = .ok (.mem 0x8001FF8)
    ∧ (dataAt 0x8001FF8).access 1 .v 0x8001FF8 .store = .ok (.mem 0x8001FF8)
    ∧ (dataAt 0x8001FF8).access 1 .v 0x8001FF8 .amo = .ok (.mem 0x8001FF8) := ⟨rfl, rfl, rfl⟩

theorem wit_BexobLoads : ∀ r ∈ loadOps, Ready (dataAt 0x8001FF8) 1 (fl 3 1 0 0) (opI r.1) ∧ 0x8001FF8 % r.2.2.1 = 0
    ∧ (dataAt 0x8001FF8).marked 0x8001FF8 = false := by
  unfold Ready Fetches; decide +kernel

theorem wit_BexobStores : ∀ r ∈ storeOps, Ready (dataAt 0x8001FF8) 1 (fl 0 1 2 0) (opS r.1) ∧ 0x8001FF8 % r.2.2 = 0
    ∧ (dataAt 0x8001FF8).marked 0x8001FF8 = false := by
  unfold Ready Fetches; decide +kernel

theorem wit_BexobAtomics : ∀ r ∈ atomicOps, Ready (dataAt 0x8001FF8) 1 (fl 3 1 2 0) (opR r.1) ∧ 0x8001FF8 % 8 = 0
    ∧ (dataAt 0x8001FF8).marked 0x8001FF8 = false := by
  unfold Ready Fetches; decide +kernel

/-- A core with a message waiting: e7 is asserted. -/
def asked (c : Nat) (f : Core → Core) : Dev :=
  { d0 with cores := [(c, f { runs c (if c = 0 then .f else .v) [] with msgs := [{ sender := 1, payload := 2 }] })] }
/-- Shepherd core 0 changed from the running one. -/
def with1 (f : Core → Core) : Dev := { d0 with cores := [(1, f (runs 1 .v []))] }

theorem wit_BexobEvents :
    (∀ m ∈ [0, 0x80, 0xFFFF], Ready (asked 1 id) 1 (fl 3 0 0 (BitVec.ofNat 41 m)) { opI 0x60 with rs1 := false, imm := 0xFFFF })
    ∧ bitsNum ((asked 1 id).inputs 1) &&& 0x80 ≠ 0 ∧ bitsNum ((asked 1 id).inputs 1) &&& 0x8000 = 0
    ∧ ((asked 1 id).core 1).inTrap = false ∧ ((asked 1 id).core 1).level = .v
    ∧ (∀ d ∈ [asked 40 (fun k => { k with run := .waitev 3 0x80 })],
        (d.core 40).run = .waitev 3 0x80 ∧ d.eventDue 40 = none ∧ bitsNum (d.inputs 40) &&& 0x80 ≠ 0)
    ∧ (∀ d ∈ [asked 0 (fun k => { k with estat := 16, evtrap := 0x80 })], d.eventDue 0 = some 7
        ∧ (d.core 0).interruptible = true ∧ d.padOn (corePad 0) = true ∧ (d.core 0).inTrap = false)
    ∧ (∀ d ∈ [asked 1 (fun k => { k with timercmp := 100 })],
       (d.core 1).run ≠ .inReset ∧ d.clk.hold = false ∧ (d.core 1).timercmp.toNat ≤ 2 ^ 64 - 4) := by
  unfold Ready Fetches; decide +kernel

theorem wit_TrapEntry :
    ((asked 1 id).core 1).inTrap = false ∧ ((asked 1 (fun k => { k with estat := 8 })).core 1).inTrap = true
    ∧ (∀ r ∈ registerOps, (opR r.1).check (fl 3 1 2 1) .shepherd .v = some (.fault 1 2 (instrWord r.1 (fl 3 1 2 1))))
    ∧ Fetches (asked 1 id) 1 ∧ ((asked 1 id).core 1).level ≠ .o
    ∧ Ready (asked 1 id) 1 (fl 0 0 0 0xFF) { opI 0x65 with rd := false, rs1 := false, imm := 0xFF }
    ∧ (∀ e ∈ [0, 1, 2], Ready (asked 1 (fun k => { k with estat := BitVec.ofNat 64 e })) 1 (fl 0 0 0 0)
          ({ opR1 0x66 with rd := false, rs1 := false }.only allKinds [.f, .v])
        ∧ ((asked 1 (fun k => { k with estat := BitVec.ofNat 64 e })).core 1).inTrap = false)
    ∧ (∀ l ∈ [Level.f, .v, .o], ∃ e ∈ [0, 1, 2], bitsOf e 1 0 = l.code)
    ∧ kindLevels .shepherd = [.v, .o] := by
  unfold Ready Fetches; decide +kernel

/-- A sender beside a target core with n messages and a paddock state. -/
def sends (n pad : Nat) (num : Word) : Dev :=
  { d0 with cores := [(1, runs 1 .v [(1, num)]), (40, { Core.init 40 with msgs := List.replicate n { sender := 1, payload := 2 } })],
            pwr := { PwrSt.init with pads := [(160, pad)] } }

theorem wit_BexobMessages :
    (∀ x ∈ [(15, 0), (16, 0), (0, 2)], Ready (sends x.1 x.2 0x1F02) 1 (fl 3 1 2 0) ((opR 0x61).only allKinds [.f, .v])
      ∧ ((sends x.1 x.2 0x1F02).core 40).msgs.length = x.1 ∧ (sends x.1 x.2 0x1F02).padOn (corePad 40) = (x.2 == 0))
    ∧ coreIdOf 40 = 0x1F02
    ∧ Ready (sends 0 0 0x2002) 1 (fl 3 1 2 0) ((opR 0x61).only allKinds [.f, .v]) ∧ (∀ t < 41, (0x2002 : Nat) ≠ coreIdOf t)
    ∧ (∀ d ∈ [asked 1 id, one 1 .v []], Ready d 1 (fl 3 0 0 0) ({ opR1 0x62 with rs1 := false }.only allKinds [.f, .v]))
    ∧ ((asked 1 id).core 1).msgs = [{ sender := 1, payload := 2 }] ∧ ((one 1 .v []).core 1).msgs = [] := by
  unfold Ready Fetches; decide +kernel

/-- A queued transfer. -/
def aMove : MoveOp := { desc := MoveDesc.ofBytes (zeros 32), level := .v }

theorem wit_BexobPauses :
    Ready (with1 id) 1 (fl 0 0 0 63) { opI 0x63 with rd := false, rs1 := false, imm := 0x3F }
    ∧ (∀ d ∈ [with1 (fun k => { k with run := .yielding 40 })], (d.core 1).run = .yielding 40 ∧ d.clk.hold = false)
    ∧ (∀ i ∈ [0, 1], Ready (with1 id) 1 (fl 0 0 0 (BitVec.ofNat 41 i)) { opI 0x64 with rd := false, rs1 := false, imm := 1 })
    ∧ ((with1 id).core 1).moves = [] ∧ ((with1 id).core 1).pars = []
    ∧ (∀ d ∈ [with1 (fun k => { k with moves := [aMove] })],
        Ready d 1 (fl 0 0 0 1) { opI 0x64 with rd := false, rs1 := false, imm := 1 } ∧ (d.core 1).moves ≠ [])
    ∧ (∀ x ∈ [0, 65536], ∀ d ∈ [with1 (fun k => { k with pwrmode := BitVec.ofNat 64 x })],
        Ready d 1 (fl 0 0 0 0) ({ opR1 0x69 with rd := false, rs1 := false }.only allKinds [.f, .v])
        ∧ (d.core 1).pwrArm = (x == 65536) ∧ (d.core 1).pwrSelf = 0 ∧ (d.core 1).pwrSet = 0 ∧ (d.core 1).inTrap = false)
    ∧ (∀ d ∈ [asked 1 (fun k => { k with run := .resting, evtrap := 0x80 })],
        (d.core 1).run = .resting ∧ bitsNum (d.inputs 1) &&& ((d.core 1).evtrap.toNat ||| 0x800) ≠ 0) := by
  unfold Ready Fetches; decide +kernel

theorem wit_SpecialRegisters :
    (∀ r ∈ readableSp, Ready (with1 id) 1 (fl 3 0 0 (BitVec.ofNat 41 r.1)) { opI 0x67 with rs1 := false, imm := 0xFFF }
      ∧ (BitVec.ofNat 41 r.1).toNat = r.1)
    ∧ (∀ r ∈ writableSp, Ready (with1 id) 1 (fl 0 1 0 (BitVec.ofNat 41 r.1)) { opI 0x68 with rd := false, imm := 0xFFF }
      ∧ (BitVec.ofNat 41 r.1).toNat = r.1)
    ∧ (∀ i ∈ [0x012, 0xFFF, 0x00F], Ready (with1 id) 1 (fl 0 1 0 (BitVec.ofNat 41 i)) { opI 0x68 with rd := false, imm := 0xFFF })
    ∧ Ready (one 0 .f []) 0 (fl 0 1 0 0x011) { opI 0x68 with rd := false, imm := 0xFFF }
    ∧ ((with1 id).core 1).inTrap = false ∧ ((one 0 .f []).core 0).inTrap = false
    ∧ ((one 0 .f []).core 0).level = .f ∧ ((with1 id).core 1).level = .v
    ∧ Ready (with1 id) 1 (fl 0 0 0 0xFF) { opI 0x65 with rd := false, rs1 := false, imm := 0xFF } := by
  unfold Ready Fetches; decide +kernel

/-- V firmware of Shepherd core 0 with service call n of its module in hand, and pages its O level may read. -/
def serves (n len : Nat) (regs : List (BitVec 5 × Word)) : Dev :=
  { d0 with cores := [(1, { runs 1 .v regs with
    estat := 10, ecause := BitVec.ofNat 64 (8 + n * 65536), pages := [(128, { r := true, w := true, x := false })],
    modRun := some { ctrl := 0, pen := 0, inst := 1, limitUs := 5, usedNs := 0, componentId := 0, manifest := [], result := zeros len } })] }

theorem wit_ServiceCalls :
    (∀ n ∈ [0, 1, 2, 3], (serves n 0 []).serviceIn 1 = some n ∧ ((serves n 0 []).core 1).modRun ≠ none)
    ∧ (∀ x ∈ [(0, 0x10000080000, 0), (65536, 0x10000080000, 16), (65520, 0x10000081000, 16), (65520, 0x10000080000, 16)],
        ((serves 1 x.1 [(1, BitVec.ofNat 64 x.2.1), (2, BitVec.ofNat 64 x.2.2)]).core 1).reg 1 = BitVec.ofNat 64 x.2.1)
    ∧ ((serves 1 65520 []).rangeTrap 1 .o (aliasBase + 0x81000) 16 .load).isSome = true
    ∧ (serves 1 65520 []).rangeTrap 1 .o (aliasBase + 0x80000) 16 .load = none
    ∧ (∀ d ∈ [{ d0 with cores := [(1, { (serves 0 0 []).core 1 with level := .o, estat := 0 })] }],
        (d.core 1).limitTakes = true ∧ d.clk.hold = false ∧ (d.core 1).inTrap = false) := by
  decide +kernel
/-- A core whose g1 points to a descriptor at its data page, on a device. -/
def described (c : Nat) (lv : Level) (b : Bytes) (f : Core → Core) (d : Dev) : Dev :=
  { d with cores := [(c, f (runs c lv [(1, BitVec.ofNat 64 (scratchBase c + 4096))]))] }.putBytes (scratchBase c + 4096) b
/-- A die reset of die 0, and a die operation in its queue. -/
def resetDesc (die planes : Nat) : Bytes := leBytes 1 5 ++ zeros 1 ++ leBytes 2 die ++ leBytes 1 planes ++ zeros 27
def anOp (op stage : Nat) : DieOp :=
  { desc := FopDesc.ofBytes (leBytes 1 op ++ zeros 31), origin := .fop, core := 9, stage := if stage = 0 then .queued else .ended, startedAt := 0, ranNs := 0,
    suspensions := 0, readsRun := 0, bypassed := 0, transferred := false, data := [], status := 0, steps := 0 }
/-- Channel 0 up or down, die 0 with n operations. -/
def channel0 (up : Bool) (n : Nat) : Dev :=
  { d0 with media := { d0.media with chans := [(0, { ChanSt.init with up := up, diemap := 1 }), (4, { ChanSt.init with up := true })],
                                     dies := [(0, { DieSt.init with wl := 4, nblocks := 8, ops := List.replicate n (anOp 5 0) })] } }

/-- A core that may issue a reset of die 0 or 128, on channel 0. -/
def issues (up : Bool) (n die planes : Nat) : Dev := described 9 .v (resetDesc die planes) id (channel0 up n)

theorem wit_DieOperationIssue :
    (∀ x ∈ [(true, 7, 0, 0), (true, 8, 0, 0), (true, 0, 128, 0), (false, 0, 0, 0), (true, 0, 0, 16)],
      Ready (issues x.1 x.2.1 x.2.2.1 x.2.2.2) 9 (fl 3 1 0 0) ((opR1 0x70).only [.drover] [.v])
      ∧ ∃ b, (issues x.1 x.2.1 x.2.2.1 x.2.2.2).descriptor 9 .v (scratchBase 9 + 4096) = .ok b
          ∧ decide (FopDesc.ofBytes b = FopDesc.ofBytes (resetDesc x.2.2.1 x.2.2.2)) = true)
    ∧ (∀ n, ¬ fopRefused (issues true 7 0 0) 9 (FopDesc.ofBytes (resetDesc 0 0)) n)
    ∧ (∀ n, fopRefused (issues true 8 0 0) 9 (FopDesc.ofBytes (resetDesc 0 0)) n ↔ n = 1)
    ∧ (∀ n, fopRefused (issues true 0 128 0) 9 (FopDesc.ofBytes (resetDesc 128 0)) n ↔ n = 2)
    ∧ (∀ n, fopRefused (issues false 0 0 0) 9 (FopDesc.ofBytes (resetDesc 0 0)) n ↔ n = 3)
    ∧ (∀ n, fopRefused (issues true 0 0 16) 9 (FopDesc.ofBytes (resetDesc 0 16)) n ↔ n = 4) := by
  refine ⟨?_, ?_, ?_, ?_, ?_, ?_⟩
  · intro x hx
    simp only [List.mem_cons, List.not_mem_nil, or_false] at hx
    rcases hx with rfl | rfl | rfl | rfl | rfl <;> exact ⟨by unfold Ready Fetches; decide +kernel, ok_of _ (by decide +kernel)⟩
  all_goals
    intro n
    by_cases h : n < 5
    · revert n; unfold fopRefused; decide +kernel
    · simp only [fopRefused]; omega

/-- The 32 bytes of a transfer, a parity and a measurement descriptor. -/
def moveBytes (src dst len flags func : Nat) : Bytes := leBytes 8 src ++ leBytes 8 dst ++ leBytes 4 len ++ leBytes 2 flags ++ leBytes 2 func ++ zeros 8
def parBytes (mode member len src dst loc : Nat) : Bytes :=
  leBytes 1 mode ++ leBytes 1 member ++ zeros 2 ++ leBytes 4 len ++ leBytes 8 src ++ leBytes 8 dst ++ leBytes 8 loc
def measBytes (kind len src result : Nat) : Bytes := leBytes 1 kind ++ zeros 11 ++ leBytes 4 len ++ leBytes 8 src ++ leBytes 8 result
/-- n transfers, or n parity operations, in a core's slots. -/
def busy (m p : Nat) (k : Core) : Core :=
  { k with moves := List.replicate m aMove, pars := List.replicate p { op := .pzero, desc := ParDesc.ofBytes (zeros 32) } }

theorem wit_DieOperationIssue_records :
    (∀ f ∈ [fun k => { k with fopDone := [] }, fun (k : Core) => { k with fopDone := [{ tag := 1, die := 0, status := 0, retries := 0 }] }],
      Ready (described 9 .v [] f d0) 9 (fl 3 0 0 0) ({ opR1 0x71 with rs1 := false }.only [.drover] [.v]))
    ∧ Ready (described 9 .v [] id d0) 9 (fl 3 1 0 0) ((opR1 0x72).only [.drover] [.v]) := by
  unfold Ready Fetches; decide +kernel

theorem wit_MoveInstructions :
    (∀ x ∈ [(0, 15), (16, 16), (16, 15)], Ready (described 1 .v (moveBytes 0x2000000 0x2000040 x.1 0 0) (busy x.2 0) d0) 1 (fl 3 1 0 0)
        ((opR1 0x78).only allKinds [.f, .v])
      ∧ (MoveDesc.ofBytes (moveBytes 0x2000000 0x2000040 x.1 0 0)).invalid = (x.1 == 0)
      ∧ ((described 1 .v [] (busy x.2 0) d0).core 1).moves.length + ((described 1 .v [] (busy x.2 0) d0).core 1).moveDone.length = x.2)
    ∧ (∀ f ∈ [fun k => { k with moveDone := [] }, fun (k : Core) => { k with moveDone := [{ tag := 1, status := 0 }] }],
        Ready (described 1 .v [] f d0) 1 (fl 3 0 0 0) ({ opR1 0x79 with rs1 := false }.only allKinds [.f, .v]))
    ∧ (∀ m ∈ [MoveDesc.ofBytes (moveBytes 0x2000000 0x3FFFFF0 16 0 0)], m.srcHost = false ∧ m.dstHost = false
        ∧ inStaging m.src m.len = true ∧ inStaging m.dst m.len = true ∧ m.src + m.len ≤ m.dst ∧ 0 < m.len ∧ d0.marks = [])
    ∧ (∀ m ∈ [MoveDesc.ofBytes (moveBytes 0 0x2000000 16 1 0)], m.srcHost = true ∧ d0.functionDown m.function = true) := by
  unfold Ready Fetches; decide +kernel

theorem wit_MoveInstructions_read : ∃ b, (described 1 .v (moveBytes 0x2000000 0x2000040 16 0 0) id d0).descriptor 1 .v (scratchBase 1 + 4096) = .ok b
    ∧ decide (b = moveBytes 0x2000000 0x2000040 16 0 0) = true := ok_of _ (by decide +kernel)

/-- A drove with some members on block group 1 of dies 0 and 1, in the row that is being filled, with accumulators P. -/
def aDrove (ms : List Nat) (p : Tab Bytes) : Drove :=
  { n := 2, k := 1, serial := 5, gen := 1, state := 1, group := 0, stream := 0, nextRow := 0, w := 4, closeFirst := 0, excl := [],
    members := ms.map (fun i => (i, { die := i / 30, grp := 1, mstate := 1, endRow := 3 })),
    use := .host, hdrOnFlash := true, slot := some 0, accP := p, accQ := [], accL := [], keys := [], closedAt := 0, closeEarly := false,
    rowDone := [], failedMembers := [] }
def droved (v : Drove) : Dev := { channel0 true 0 with drove := { DroveSt.init with droves := [(5, v)] } }
/-- LOC of the first IU of a page of block group 1 of a die. -/
def locOfPage (die page : Nat) : Nat := die + 4 * 2 ^ 12 + page * 2 ^ 32

theorem wit_ParityInstructions :
    (∀ r ∈ parityOps, ∀ x ∈ [(1, 7), (4096, 8), (4096, 7)],
      Ready (described 1 .v (parBytes 0 0 x.1 0 0x2000000 0) (busy 0 x.2) d0) 1 (fl 3 1 0 0) ((opR1 r.1).only [.shepherd, .drover] [.v])
      ∧ (ParDesc.ofBytes (parBytes 0 0 x.1 0 0x2000000 0)).invalid r.2.2 (d0.iuKib * 1024) = (x.1 == 1)
      ∧ ((described 1 .v [] (busy 0 x.2) d0).core 1).pars.length + ((described 1 .v [] (busy 0 x.2) d0).core 1).parDone.length = x.2)
    ∧ (∀ f ∈ [fun k => { k with parDone := [] }, fun (k : Core) => { k with parDone := [{ tag := 1, status := 0 }] }],
        Ready (described 1 .v [] f d0) 1 (fl 3 0 0 0) ({ opR1 0x84 with rs1 := false }.only [.shepherd, .drover] [.v]))
    ∧ (∀ q ∈ [ParDesc.ofBytes (parBytes 1 0 64 0x2000000 0x3FFFFC0 0)], q.mode = 1 ∧ inStaging q.src q.len = true ∧ inStaging q.dst q.len = true
        ∧ d0.marks = [])
    ∧ (∀ q ∈ [ParDesc.ofBytes (parBytes 1 0 4096 0 0x2000000 (locOfPage 0 0))], ∀ v ∈ [aDrove [0, 30] []],
        (droved v).locOf q = some (v, 0, 0, 0) ∧ inStaging q.dst q.len = true ∧ (droved v).iuParts = 1
        ∧ ((droved v).rebuildBy q.permits [] v 0 0 0).isSome = true ∧ (droved v).rebuildBy (fun _ => false) [] v 0 0 0 = none)
    ∧ (∀ q ∈ [ParDesc.ofBytes (parBytes 1 0 4096 0 0x2000000 (locOfPage 1 0))], ∀ v ∈ [aDrove [30] [], aDrove [30] [(0, [1])]],
        (droved v).locOf q = some (v, 30, 0, 0) ∧ q.mode = 1) := by
  unfold Ready Fetches; (repeat' apply And.intro) <;> decide +kernel

/-- Without data members every parity word recomputes to zero: equal to an accumulator that holds nothing, and not to one that holds 1. -/
theorem wit_ParityInstructions_verify :
    (∀ j, ((droved (aDrove [30] [])).levelWords [] (aDrove [30] []) 0 j).find? (fun e => e.1 == .p) = some (.p, zeros 4128)
      ∧ (droved (aDrove [30] [])).recompute [] (aDrove [30] []) 0 j .p = some (zeros 4128))
    ∧ ((droved (aDrove [30] [(0, [1])])).levelWords [] (aDrove [30] [(0, [1])]) 0 0).find? (fun e => e.1 == .p) = some (.p, [1])
    ∧ (droved (aDrove [30] [(0, [1])])).recompute [] (aDrove [30] [(0, [1])]) 0 0 .p = some (zeros 4128) ∧ [1] ≠ zeros 4128 :=
  ⟨fun _ => ⟨rfl, rfl⟩, rfl, rfl, by decide +kernel⟩

/-- The Fold at F or a core at V with a measurement descriptor. -/
def measures (c : Nat) (lv : Level) (b : Bytes) : Dev := described c lv b id d0

theorem wit_MeasureRequests :
    (∀ x ∈ [0, 4, 5], Ready (measures 1 .v (measBytes x 16 0x8001000 0)) 1 (fl 3 1 0 0) ((opR1 0xA0).only allKinds [.f, .v])
      ∧ (MeasDesc.ofBytes (measBytes x 16 0x8001000 0)).invalid true = (x != 4)) ∧ 0 < Config.measRing
    ∧ Ready (measures 0 .f (measBytes 1 16 0x81000 0x2000000)) 0 (fl 3 1 0 0) ((opR1 0xA0).only allKinds [.f, .v])
    ∧ (∀ x ∈ [MeasDesc.ofBytes (measBytes 1 16 0x81000 0x2000000)], x.invalid false = false ∧ inStaging x.result 48 = true
        ∧ d0.dig.firstIdx DigSlot.init (fun e => e.st == .free) 64 ≠ none
        ∧ (measures 0 .f []).rangeTrap 0 .f x.src x.len .load = none ∧ (measures 0 .f []).rangeTrap 0 .f x.result 48 .store = none)
    ∧ (∀ x ∈ [MeasDesc.ofBytes (measBytes 1 16 0x8001000 0), MeasDesc.ofBytes (measBytes 1 16 (2 ^ 48 - 8) 0)],
        ∀ d ∈ [{ measures 1 .v [] with fold := { FoldSt.init with inReset := false, meas := [{ core := 1, ticket := 1, desc := x }] } }],
          d.fold.inReset = false ∧ d.fold.halted = false ∧ (d.core 1).msgs.length < 16
          ∧ (d.rangeTrap 1 .v x.src x.len .load).isSome = (x.src != 0x8001000)) := by
  refine ⟨?_, Nat.succ_pos _, ?_⟩ <;> (unfold Ready Fetches; decide +kernel)

/-! ### Statements about configuration, commits, the Crook and modules -/

/-- A transaction of V firmware on Shepherd core 0 with staged fields and a phase. -/
def aTxn (staged : Tab Word) (ph : TxPhase) : Txn :=
  { handle := 3, ctx := { core := 1, inst := 0 }, ctrl := none, pen := none, budgetUs := 1000, start := 1, staged := staged, reads := [],
    phase := ph, order := 0, began := 0 }
/-- Shepherd core 0 with g1 and g2, and configuration state. -/
def txDev (x y : Nat) (ts : List Txn) (f : CfgSt → CfgSt) : Dev :=
  { one 1 .v [(1, BitVec.ofNat 64 x), (2, BitVec.ofNat 64 y)] with cfg := f { CfgSt.init with txns := ts } }
/-- Fields of channel 0: 4 is live, 1 quiescent and persistent; field 0x10 of a namespace block is read-only. -/
def lvId : Nat := cfgId 0x100 4
def qsId : Nat := cfgId 0x100 1
def roId : Nat := cfgId 0x200 0x10

theorem wit_ConfigurationAccess :
    (∀ op ∈ [0x90, 0x92], ∀ n ∈ [lvId, roId], Ready (txDev n 0 [] id) 1 (fl 3 1 0 0) (opR1 op) ∧ (txDev n 0 [] id).field n ≠ none ∧ n < 2 ^ 32)
    ∧ (∀ x ∈ [2 ^ 32 + lvId, cfgId 0x100 0], Ready (txDev x 0 [] id) 1 (fl 3 1 0 0) (opR1 0x90)
        ∧ (2 ^ 32 ≤ x ∨ d0.field x = none))
    ∧ (∀ x ∈ [(lvId, 15, [aTxn [] .opened]), (lvId, 15, []), (lvId, 16, []), (roId, 0, [])],
        Ready (txDev x.1 x.2.1 x.2.2 id) 1 (fl 0 1 2 0) { opR 0x91 with rd := false }
        ∧ ((txDev x.1 x.2.1 x.2.2 id).core 1).inTrap = false ∧ ((txDev x.1 x.2.1 x.2.2 id).core 1).level ≠ .o
        ∧ (txDev x.1 x.2.1 x.2.2 id).openTxn 1 = x.2.2.head?)
    ∧ (∀ i ∈ d0.field lvId, i.cls ≠ .ro ∧ d0.outOfLimits [] i lvId 15 = false ∧ d0.outOfLimits [] i lvId 16 = true)
    ∧ (∀ i ∈ d0.field roId, i.cls = .ro) ∧ d0.field lvId ≠ none ∧ d0.field roId ≠ none := by
  unfold Ready Fetches; (repeat' apply And.intro) <;> decide +kernel

theorem wit_Transactions :
    (∀ n ∈ [7, 8], Ready (txDev 0 0 (List.replicate n (aTxn [] .opened)) id) 1 (fl 3 1 0 0) ((opR1 0x98).only [.shepherd] [.v, .o])
      ∧ ((txDev 0 0 (List.replicate n (aTxn [] .opened)) id).cfg.txns.filter (fun t => t.phase == .opened)).length = n)
    ∧ (∀ d ∈ [txDev 3 0 [aTxn [] .opened] id], Ready d 1 (fl 0 1 0 0) ({ opR 0x9A with rd := false, rs2 := false }.only [.shepherd] [.v, .o])
        ∧ d.openTxn 1 = some (aTxn [] .opened))
    ∧ (∀ d ∈ [txDev 3 0 [aTxn [(lvId, 5)] .opened] (fun c => { c with versions := [(lvId, 2)] })],
        Ready d 1 (fl 3 1 0 0) ((opR1 0x99).only [.shepherd] [.v, .o]) ∧ d.openTxn 1 = some (aTxn [(lvId, 5)] .opened)
        ∧ d.txn 3 = some (aTxn [(lvId, 5)] .opened) ∧ d.mustWait (aTxn [(lvId, 5)] .waiting) = false ∧ d.needsCrook [lvId] = false
        ∧ 1 < d.version lvId)
    ∧ (∀ d ∈ [txDev 3 0 [aTxn [(lvId, 5)] .opened] id], CommitsAtOnce d (aTxn [(lvId, 5)] .waiting))
    ∧ (∀ d ∈ [txDev 4 0 [aTxn [] .opened] id], d.ownHandle 1 4 = none
        ∧ Ready d 1 (fl 3 1 0 0) ((opR1 0x99).only [.shepherd] [.v, .o])
        ∧ Ready d 1 (fl 0 1 0 0) ({ opR 0x9A with rd := false, rs2 := false }.only [.shepherd] [.v, .o])) := by
  unfold Ready Fetches CommitsAtOnce; (repeat' apply And.intro) <;> decide +kernel

/-- A core in TXC of transaction 3, which is in a phase. -/
def commits (staged : Tab Word) (ph : TxPhase) (due : List (Nat × Tab Word × Nat)) : Dev :=
  { d0 with cfg := { CfgSt.init with txns := [aTxn staged ph], due := due }, cores := [(1, { runs 1 .v [] with run := .inTxc 3 3 })] }

theorem wit_CommitSteps :
    (∀ d ∈ [commits [(lvId, 5)] .waiting []], d.txn 3 = some (aTxn [(lvId, 5)] .waiting) ∧ CommitsAtOnce d (aTxn [(lvId, 5)] .waiting)
      ∧ (d.core 1).run = .inTxc 3 3)
    ∧ (∀ d ∈ [commits [(qsId, 5)] (.draining [0x100]) []], d.txn 3 = some (aTxn [(qsId, 5)] (.draining [0x100]))
        ∧ d.cfg.txns.find? (fun t => match t.phase with
            | .draining l => l.contains 0x100
            | _ => false) = some (aTxn [(qsId, 5)] (.draining [0x100]))
        ∧ d.blockDrained 0x100 = true ∧ d.isPs qsId = true)
    ∧ (∀ d ∈ [commits [] .persisting []], d.txn 3 = some (aTxn [] .persisting) ∧ d.pwr.pf = .idle)
    ∧ (∀ d ∈ [commits [] (.applying [6]) [(6, [(cfgId 6 3, 2)], 3)]],
        d.cfg.due.filter (fun e => e.1 == 6) = [(6, [(cfgId 6 3, 2)], 3)] ∧ d.blockUp 6 = true ∧ d.nsBusy 6 = false
        ∧ Tab.wf ([(cfgId 6 3, 2)] : Tab Word) = true ∧ cfgBlock (cfgId 6 3) = 6)
    ∧ (∀ d ∈ [commits [] (.applying []) []], d.txn 3 = some (aTxn [] (.applying []))) := by
  unfold CommitsAtOnce; (repeat' apply And.intro) <;> decide +kernel

/-- A Crook command of controller 0 with a holder. -/
def crooked (action : Nat) (h : Option Nat) : Dev :=
  { holds [cmd 0 0xC4 [(10, action), (11, 600)]] ctrlUp d0 with crook := { CrookSt.init with holder := h } }

theorem wit_CrookCommands : (∀ a ∈ [0, 1, 2, 3], ∀ h ∈ [none, some 0, some 64], crookReady (crooked a h) 0 (cmd 0 0xC4 [(10, a), (11, 600)]) a
    ∧ (crooked a h).crook.holder = h)
    ∧ (∀ t ∈ [0, 5000000], ∀ d ∈ [{ crooked 1 (some 64) with now := 2000000, crook := { CrookSt.init with holder := some 64, leaseEnd := t } }],
      crookReady d 0 (cmd 0 0xC4 [(10, 1), (11, 600)]) 1 ∧ (d.now / 1000000 < d.crook.leaseEnd / 1000000 ↔ t = 5000000)) := by
  unfold crookReady; decide +kernel

/-- An HSS signature of one level with the smallest parameters R67 permits, its values zero. -/
def hssZero : Bytes := zeros 4 ++ zeros 4 ++ ([0, 0, 0, 8] : Bytes) ++ zeros 648 ++ ([0, 0, 0, 10] : Bytes) ++ zeros 120
/-- A module of one code section of 8 bytes for a level and core kind, signed once by a role with key IDs of zeros. -/
def aModule (level kind cid role : Nat) : Bytes :=
  leBytes 4 0x444D5842 ++ leBytes 2 1 ++ leBytes 2 0x40 ++ leBytes 4 1024 ++ leBytes 1 level ++ leBytes 1 kind ++ leBytes 2 1 ++ leBytes 4 cid
    ++ leBytes 4 0 ++ leBytes 8 0 ++ leBytes 4 0 ++ leBytes 4 4096 ++ leBytes 4 4096 ++ leBytes 4 0 ++ leBytes 4 0x58 ++ zeros 12
    ++ (leBytes 1 1 ++ leBytes 1 5 ++ zeros 2 ++ leBytes 4 0x50 ++ leBytes 4 0 ++ leBytes 4 8) ++ zeros 8
    ++ (leBytes 4 0x47535842 ++ leBytes 4 936 ++ leBytes 1 1 ++ zeros 7)
    ++ (leBytes 1 role ++ zeros 3 ++ leBytes 4 784 ++ zeros 32 ++ zeros 96 ++ hssZero)
/-- The owner's module. -/
def ownerModule : Bytes := aModule 3 2 0x80000001 2
/-- An Owned device whose Fold can append, with a module that has passed its signatures at this boot. -/
def ownedDev (seen : List Bytes) : Dev :=
  { d0 with
    fold := { FoldSt.init with otp := { OtpSt.init with vp := 0xFF }, ownerCtr := 3, ownerA := some { gen := 3, policy := 0, ecdsa := [], hss := [] },
                               alias1 := [1], inReset := false }
    nvme := { NvmeSt.init with seenModules := seen } }

theorem wit_RunModule :
    (∀ n ∈ [63, 64, 1024], ∀ d ∈ [holds [cmd 0 0xC1 [(10, n)]] ctrlUp (ownedDev [ownerModule])],
      d.adminReady 0 0xC1 = true ∧ d.moversHalted 0 = false ∧ runModuleBad (cmd 0 0xC1 [(10, n)]).dw = (n == 63))
    ∧ (holds [cmd 0 0xC1 [(10, 64)]] ctrlUp d0).checkModule (padTo 64 []) 64 0 true = 1
    ∧ (∀ x ∈ [{ cmd 0 0xC1 [(10, 1024)] with stage := .external, data := ownerModule }],
        ∀ d ∈ [{ holds [x] ctrlUp (ownedDev []) with cores := [(1, runs 1 .v [])] }],
          d.coreFree 1 = true ∧ d.pen 0 = some x ∧ x.data.take (x.dw 10) = ownerModule
          ∧ (d.appendEntry (moduleEntry 1 0 0 1 ownerModule) 0).2 = true
          ∧ ((d.appendEntry (moduleEntry 1 0 0 1 ownerModule) 0).1.raiseCounter (ModHeader.ofBytes ownerModule).componentId
              (ModHeader.ofBytes ownerModule).secver 1 0).2 = true) := by
  (repeat' apply And.intro) <;> decide +kernel

/-- The module check passes when the owner's key IDs are those of the module: the digest is opaque, so that they are is a premise. -/
theorem wit_RunModule_passes (h : (sha384 []).take 16 = zeros 16) :
    (ownedDev [ownerModule]).checkModule ownerModule 1024 0 true = 0 := by
  have hw : (ownedDev [ownerModule]).fold.owner = some { gen := 3, policy := 0, ecdsa := [], hss := [] } := by decide +kernel
  have ho : (ownedDev [ownerModule]).fold.ownerKid = some (zeros 16, zeros 16) := by
    unfold FoldSt.ownerKid
    rw [hw]
    show some ((sha384 []).take 16, (sha384 []).take 16) = _
    rw [h]
  unfold Dev.checkModule Dev.checkEnv
  dsimp only
  rw [ho]
  decide +kernel

/-! ### Statements about the links, controllers, queues and hurdles -/

/-- Module 11 with a state, the clocks started. -/
def mod11 (up : Bool) (n : Nat) : Dev := { d0 with hub := { mods := [(11, { up := up, attempts := n })], degraded := 0 }, clk := { ClkSt.init with started := true } }

theorem wit_DieLinkModules : (∀ n ∈ [0, 1, 2, 3], ((mod11 false n).ucie 11).up = false ∧ ((mod11 false n).ucie 11).attempts = n
    ∧ (mod11 false n).clk.started = true ∧ (mod11 false n).pwr.standby = false) ∧ ((mod11 true 0).ucie 11).up = true := by
  decide +kernel

/-- Link 0 up and PWROK high, with controller 0 as given and commands in pens. -/
def linked (xs : List PenSt) (k : CtrlSt) : Dev :=
  { holds xs k d0 with links := [(0, { LinkSt.init with rate := 4, width := 16 })], pins := { PinSt.init with pwrok := true } }

theorem wit_ControllerStates :
    (∀ d ∈ [linked [] CtrlSt.init], (d.ctrl 0).en = false ∧ (d.ctrl 0).online = true ∧ d.functionUp 0 = true ∧ (1 : W32).getLsbD 0 = true)
    ∧ (∀ d ∈ [linked [] ctrlUp], (d.ctrl 0).en = true ∧ d.functionUp 0 = true ∧ (d.link (d.linkOf 0)).width ≠ 0 ∧ d.pwr.standby = false)
    ∧ (∀ d ∈ [linked [cmd 0 0x0C []] { ctrlUp with aers := [0] }], ∀ e ∈ d.nvme.pens, e.2.ctrl = 0 → e.1 ∈ (d.ctrl 0).aers)
    ∧ (∀ d ∈ [linked [cmd 0 0x06 []] ctrlUp], ∃ e ∈ d.nvme.pens, e.2.ctrl = 0 ∧ e.1 ∉ (d.ctrl 0).aers)
    ∧ (∀ d ∈ [linked [] { ctrlUp with d3hot := true }], (d.ctrl 0).d3hot = true ∧ (d.link (d.linkOf 0)).width ≠ 0) := by
  (repeat' apply And.intro) <;> decide +kernel

theorem wit_PcieLinks :
    (∀ d ∈ [{ d0 with pins := { PinSt.init with pwrok := true, bifur := 1 } }], ∀ l ∈ [0, 1, 2], d.isLink l = true ∧ (d.link l).perst = false ∧ (d.link l).recentTo.length ≤ 16
      ∧ d.pwr.standby = false ∧ d.pwr.pf = .idle ∧ d.pins.pwrok = true ∧ 8 ≤ (if bitOf d.pins.bifur (l / 2) then 8 else 16))
    ∧ ((linked [] ctrlUp).link 0).width ≠ 0 := by
  (repeat' apply And.intro) <;> decide +kernel

/-- A submission and a completion queue of 4 entries, with their pointers. -/
def sq4 (head tail : Nat) : SqSt := { size := 4, cq := 0, prio := 0, head := head, tail := tail, base := 0, deleting := none }
def cq4 (head tail : Nat) : CqSt := { size := 4, iv := 0, ien := true, head := head, tail := tail, phase := true, base := 0, heldIrq := 0, heldUntil := 0 }
def queued (h t : Nat) (xs : List PenSt) : Dev := linked xs { ctrlUp with sqs := [(0, sq4 h t), (1, sq4 h t)], cqs := [(0, cq4 h t)] }

theorem wit_CommandQueues :
    (∀ d ∈ [queued 1 3 []], (d.ctrl 0).en = true ∧ d.evt.fatal = false ∧ (d.ctrl 0).sqs.get? 1 = some (sq4 1 3) ∧ (3 + 4 - 1) % 4 ≤ (0 + 4 - 1) % 4
      ∧ (d.ctrl 0).cqs.get? 0 = some (cq4 1 3) ∧ (3 + 4 - 1) % 4 ≤ (3 + 4 - 1) % 4 ∧ (d.ctrl 0).sqs.get? 2 = none ∧ (d.ctrl 0).aers = []
      ∧ d.mayFetch 0 0 = true ∧ d.takePen 0 true ≠ none ∧ d.mayFetch 0 1 = true)
    ∧ (∀ d ∈ [{ queued 1 3 [] with cfg := { CfgSt.init with applied := [(cfgId 0x600 1, 0), (cfgId 0x600 2, 0)] } }],
        d.takePen 0 false = none ∧ d.mayFetch 0 1 = true)
    ∧ (∀ sq ∈ [0, 1], ∀ d ∈ [linked [{ cmd sq 2 [] with walk := 0 }] ctrlUp], d.pen 0 = some { cmd sq 2 [] with walk := 0 }
        ∧ d.moversHalted 0 = false) := by
  (repeat' apply And.intro) <;> decide +kernel

/-- A read that waits for its hurdle. -/
def waitsHurdle (waits : List Nat) (walk : Nat) (ops : Nat × Nat) : Dev :=
  { linked [{ cmd 1 ops.1 [(1, ops.2)] with walk := walk, stage := .waiting }] ctrlUp with
    nvme := { (linked [{ cmd 1 ops.1 [(1, ops.2)] with walk := walk, stage := .waiting }] ctrlUp).nvme with
      hurdles := [(0, { fetch := 1, first := 0, last := 0, nsid := ops.2, cntlid := 0, kind := 1, state := 1, waits := waits, placedAt := 0,
                        longPosted := false })] } }

theorem wit_Hurdles :
    (∀ x ∈ [([], 1), ([9], 1), ([], 0)], (waitsHurdle x.1 x.2 (2, 1)).pen 0 = some { cmd 1 2 [(1, 1)] with walk := x.2, stage := .waiting }
      ∧ ((waitsHurdle x.1 x.2 (2, 1)).nvme.hurdles.get? 0).any (fun h => h.state == 1 && h.waits == x.1 && !h.longPosted) = true)
    ∧ (waitsHurdle [] 1 (0, 1)).heldChecks { cmd 1 0 [(1, 1)] with walk := 1, stage := .waiting } = 0
    ∧ (waitsHurdle [] 1 (2, 1)).heldChecks { cmd 1 2 [(1, 1)] with walk := 1, stage := .waiting } ≠ 0 := by
  (repeat' apply And.intro) <;> decide +kernel

/-! ### Statements about the I/O commands -/

/-- A namespace of 512-byte sectors with a key in slot 64. -/
def ns1 : NsSt :=
  { NsSt.init with exists_ := true, nsze := 64, ncap := 64, handles := [0],
                   key := { mode := 1, cur := 0, gens := [(0, { slot := 64, gstate := 1, startWsn := 0 })] } }
/-- Namespace 1, a host drove open with a data and a parity member, MAPC and DRAM in service. -/
def placer (xs : List PenSt) : Dev :=
  { linked xs ctrlUp with
    nvme := { (linked xs ctrlUp).nvme with ns := [(1, ns1)] },
    keys := { KeySt.init with slots := [(64, { st := .loaded, inUse := 0, content := 9 })] },
    drove := { DroveSt.init with droves := [(5, { aDrove [0, 30] [] with state := 2 })] },
    media := (channel0 true 0).media,
    mapc := { MapcSt.init with enable := true, state := 2 },
    integ := { IntegSt.init with dram := true },
    dram := { DramSt.init with chans := (List.range 4).map (fun i => (i, { DramChan.init with up := true })) } }
def job1 (st e : Nat) : IuJob := { diu := 0, liu := 0, entry := e, epoch := none, ticket := none, state := st, data := [], hmeta := [] }
/-- A command of namespace 1 at a stage. -/
def io (op : Nat) (st : PenStage) (l : List (Nat × Nat)) (js : List IuJob) : PenSt := { cmd 1 op ((1, 1) :: l) with stage := st, ius := js }
/-- The IU of a command as it is placed. -/
def onePlace : PlaceReq :=
  { nsid := 1, liu := 0, wsn := 0, data := [], hmeta := [], marked := false, raddle := false, stream := 0, use := .host,
    pen := some 0, onlyIf := none }
/-- A write of eight sectors with protection information to check, its data arriving. -/
def guarded : Dev :=
  { placer [io 1 .external [(12, 7 + 2 ^ 27), (15, 0xFFFF0000)] []] with
    nvme := { (placer [io 1 .external [(12, 7 + 2 ^ 27), (15, 0xFFFF0000)] []]).nvme with ns := [(1, { ns1 with lbaf := 1, pi := 1 })] } }
/-- What arrived for it, with guard bytes g. -/
def arrived (g : Byte) : List (Bytes × Bytes) :=
  (List.range 8).map (fun i => sectorOf { ns1 with lbaf := 1, pi := 1 } (7 + 2 ^ 27) (piReqOf { ns1 with lbaf := 1, pi := 1 }
    (io 1 .external [(12, 7 + 2 ^ 27), (15, 0xFFFF0000)] []).dw) (padTo 4096 []) (List.replicate 64 g) i)

theorem wit_WriteCommands :
    (∀ op ∈ [0, 1, 5, 8], (placer [io op .executing [(12, 7)] []]).held 0 op = some (io op .executing [(12, 7)] []))
    ∧ guarded.pen 0 = some (io 1 .external [(12, 7 + 2 ^ 27), (15, 0xFFFF0000)] []) ∧ guarded.moversHalted 0 = false ∧ guarded.postingStopped = false
    ∧ piStatus (piReqOf { ns1 with lbaf := 1, pi := 1 } (io 1 .external [(12, 7 + 2 ^ 27), (15, 0xFFFF0000)] []).dw) (arrived 1) ≠ 0
    ∧ piStatus (piReqOf { ns1 with lbaf := 1, pi := 1 } (io 1 .external [(12, 7 + 2 ^ 27), (15, 0xFFFF0000)] []).dw) (arrived 0) = 0
    ∧ (∀ e ∈ guarded.buildIus [] (io 1 .external [(12, 7 + 2 ^ 27), (15, 0xFFFF0000)] []) (arrived 0), e.2.isSome = true)
    ∧ (∀ e ∈ (placer []).buildIus [] (io 8 .executing [(12, 7)] []) ((List.range 8).map (fun _ => (zeros 512, []))), e.2.isSome = true)
    ∧ (∀ e ∈ [0, 2], (placer [io 1 .placeWait [] [job1 e 0]]).pen 0 = some (io 1 .placeWait [] [job1 e 0]))
    ∧ (placer []).cfgv 0x012 0x12 ≤ (placer []).freePm ((placer []).streamGroup ((placer []).streamOf (io 1 .placeWait [] [])))
    ∧ ((placer [io 1 .placeWait [] [job1 0 0]]).placeIu onePlace).2 = true
    ∧ (placer [io 9 .tombWait [] [job1 2 0]]).tombFull = false
    ∧ (∀ d ∈ [{ placer [] with cfg := { CfgSt.init with applied := [(cfgId 8 0x12, 0), (cfgId 0x012 0x12, 1001)] } }], d.tombFull = true
        ∧ d.freePm (d.streamGroup (d.streamOf (io 1 .placeWait [] []))) < d.cfgv 0x012 0x12)
    ∧ (io 9 .ready [(11, 0)] []).deallocates = false ∧ (io 9 .executing [(11, 4)] []).deallocates = true
    ∧ (∀ r ∈ (io 9 .executing [(11, 4)] []).ranges, ((placer []).wholeIus ns1 r.1 r.2).2 = 0) := by
  (repeat' apply And.intro) <;> decide +kernel

/-- The key of the staged unit's first codeword, and the map entry that names it. -/
def stagedKey : Nat := (channel0 true 0).unitKey 0 1 0 0
/-- A read whose IU was looked up, and one that waits for reconstruction. -/
def reads (j : IuJob) (us : List UnitSt) (rc : List (Nat × Option (Nat × Nat))) : Dev :=
  { placer [io 2 .media [] [j]] with drove := { (placer []).drove with units := us, recon := rc } }

theorem wit_ReadCommands :
    (∀ op ∈ [2, 0xC], ∀ d ∈ [placer [io op .executing [] []]], d.held 0 op = some (io op .executing [] [])
      ∧ d.readRange (io op .executing [] []) = (0, 0) ∧ d.underRepair (d.iuBase 1 + 0) = false ∧ (d.mapLookup (d.iuBase 1 + 0)).2 = some 0)
    ∧ (∀ d ∈ [{ placer [io 2 .executing [] []] with mapc := { (placer []).mapc with repairs := [(0, { valid := true, line := 0, word := 0 })] } }],
        d.underRepair (d.iuBase 1 + 0) = true)
    ∧ (∀ t ∈ [0, 1, 2, 3], entType (mapEntry t 0 stagedKey) = t ∧ entKey (mapEntry t 0 stagedKey) = stagedKey
        ∧ (reads (job1 0 (mapEntry t 0 stagedKey)) [] []).pen 0 = some (io 2 .media [] [job1 0 (mapEntry t 0 stagedKey)]))
    ∧ (∀ d ∈ [reads (job1 0 (mapEntry 1 0 0)) [] []], d.ownerOf (entKey (mapEntry 1 0 0) / 2 ^ 26) (d.unslot (entKey (mapEntry 1 0 0))).1 = none
        ∧ d.readable (entKey (mapEntry 1 0 0) / 2 ^ 26) = true ∧ d.moversHalted 0 = false ∧ d.postingStopped = false
        ∧ 0 < (d.nspace 1).lbaSize)
    ∧ (∀ d ∈ [reads (job1 1 (mapEntry 1 0 stagedKey)) [] []], (entKey (mapEntry 1 0 stagedKey), some (0, 0)) ∉ d.drove.recon)
    ∧ (∀ d ∈ [reads (job1 1 (mapEntry 1 0 stagedKey)) [UnitSt.new 5 0 0 64] [(stagedKey, none)]], d.drove.recon = [(stagedKey, none)]
        ∧ (d.readIu [stagedKey] stagedKey).isSome = true)
    ∧ (∀ r ∈ [0, 3], ({ io 2 .external [] [] with retries := r } : PenSt).retries < 2 ↔ r = 0) ∧ (placer []).cfgv 6 3 = 2 := by
  (repeat' apply And.intro) <;> decide +kernel

/-! ### Statements about the Admin commands -/

/-- An Admin command with its dwords in pen 0, controller 0 ready with a grant of 4 queues of each kind. -/
def asks (op : Nat) (l : List (Nat × Nat)) (f : CtrlSt → CtrlSt) (more : List PenSt) : Dev :=
  linked (cmd 0 op l :: more) (f { ctrlUp with granted := some (4, 4), cqs := [(0, cq4 0 0), (1, cq4 0 0)], sqs := [(0, sq4 0 0), (1, { sq4 0 0 with cq := 1 })] })
/-- A command of I/O queue 1 that waits for its hurdle. -/
def waits9 : PenSt := { cmd 1 2 [(1, 1)] with stage := .waiting, cid := 9 }

theorem wit_QueueCommands :
    (∀ d ∈ [asks 0x05 [(10, 2 + 65536 * 3), (11, 3)] id []], AdminAt d 0 (cmd 0 0x05 [(10, 2 + 65536 * 3), (11, 3)]) 0x05
      ∧ QueueFields (d.ctrl 0) (cmd 0 0x05 [(10, 2 + 65536 * 3), (11, 3)]) 2 (d.ctrl 0).grant.2 ∧ (d.ctrl 0).cqs.get? 2 = none ∧ 0 < d.vectors 0)
    ∧ (∀ d ∈ [asks 0x01 [(10, 2 + 65536 * 3), (11, 1 + 65536)] id []], AdminAt d 0 (cmd 0 0x01 [(10, 2 + 65536 * 3), (11, 1 + 65536)]) 0x01
      ∧ QueueFields (d.ctrl 0) (cmd 0 0x01 [(10, 2 + 65536 * 3), (11, 1 + 65536)]) 2 (d.ctrl 0).grant.1 ∧ (d.ctrl 0).sqs.get? 2 = none
      ∧ 1 ≤ (d.ctrl 0).grant.2 ∧ (d.ctrl 0).cqs.get? 1 ≠ none)
    ∧ (∀ b ∈ [false, true], ∀ d ∈ [asks 0x04 [(10, 1)] (fun c => { c with sqs := if b then c.sqs else [] }) []],
        AdminAt d 0 (cmd 0 0x04 [(10, 1)]) 0x04 ∧ (d.ctrl 0).cqs.get? 1 ≠ none ∧ (b = false → ∀ e ∈ (d.ctrl 0).sqs, e.1 = 0 ∨ e.2.cq ≠ 1)
        ∧ (b = true → ∃ e ∈ (d.ctrl 0).sqs, e.1 ≠ 0 ∧ e.2.cq = 1))
    ∧ (∀ d ∈ [asks 0x00 [(10, 1)] id []], AdminAt d 0 (cmd 0 0x00 [(10, 1)]) 0x00 ∧ (d.ctrl 0).sqs.get? 1 = some { sq4 0 0 with cq := 1 }
        ∧ ∀ e ∈ d.nvme.pens, e.2.ctrl ≠ 0 ∨ e.2.sq ≠ 1)
    ∧ (∀ d ∈ [asks 0x08 [(10, 1 + 65536 * 8)] id []], AdminAt d 0 (cmd 0 0x08 [(10, 1 + 65536 * 8)]) 0x08
        ∧ d.nvme.pens.find? (fun e => e.2.ctrl == 0 && e.2.sq == 1 && e.2.cid == 8 && d.isWaiting e.1 e.2) = none)
    ∧ (∀ d ∈ [{ asks 0x08 [(10, 1 + 65536 * 9)] id [waits9] with
                nvme := { (asks 0x08 [(10, 1 + 65536 * 9)] id [waits9]).nvme with
                          hurdles := [(1, { fetch := 1, first := 0, last := 0, nsid := 1, cntlid := 0, kind := 1, state := 1, waits := [],
                                            placedAt := 0, longPosted := false })] } }],
        AdminAt d 0 (cmd 0 0x08 [(10, 1 + 65536 * 9)]) 0x08
        ∧ d.nvme.pens.find? (fun e => e.2.ctrl == 0 && e.2.sq == 1 && e.2.cid == 9 && d.isWaiting e.1 e.2) = some (1, waits9)
        ∧ d.pen 1 = some waits9 ∧ CanPost d waits9)
    ∧ (∀ x ∈ [([], 15), ([], 16), ([(2, 0, 1)], 0)], ∀ d ∈ [asks 0x0C [] (fun c => { c with aes := x.1, aers := List.replicate x.2 3 }) []],
        AdminAt d 0 (cmd 0 0x0C []) 0x0C ∧ (d.ctrl 0).aes = x.1 ∧ (d.ctrl 0).aers.length = x.2)
    ∧ (∀ d ∈ [asks 0x0C [] (fun c => { c with cqs := [(1, { cq4 0 0 with heldIrq := 1 })] }) []],
        (d.ctrl 0).cqs.get? 1 = some { cq4 0 0 with heldIrq := 1 }) := by
  unfold AdminAt QueueFields CanPost; (repeat' apply And.intro) <;> decide +kernel

theorem wit_Features :
    (∀ v ∈ [1 + 2 ^ 31, 1, 5, 0xA, 0xB], ∀ d ∈ [asks 0x09 [(10, v), (11, 6)] id []],
      AdminAt d 0 (cmd 0 0x09 [(10, v), (11, 6)]) 0x09 ∧ d.moversHalted 0 = false)
    ∧ (∀ v ∈ [1, 2, 3, 5, 8, 0xA, 0xB, 0x10, 0x11], ∀ d ∈ [asks 0x0A [(10, v)] id []], AdminAt d 0 (cmd 0 0x0A [(10, v)]) 0x0A
        ∧ d.moversHalted 0 = false)
    ∧ (∀ g ∈ [none, some (4, 4)], ∀ d ∈ [asks 0x09 [(10, 7), (11, 3 + 65536 * 3)] (fun c => { c with granted := g }) []],
        AdminAt d 0 (cmd 0 0x09 [(10, 7), (11, 3 + 65536 * 3)]) 0x09 ∧ (d.ctrl 0).granted = g
        ∧ min 4 (min (d.cfgv 0x600 3) d.nvme.poolSq) ≠ 0 ∧ min 4 (min (d.cfgv 0x600 3) d.nvme.poolCq) ≠ 0)
    ∧ (∀ v ∈ [2, 2 + 2 ^ 31], ∀ d ∈ [asks 0x09 [(10, v), (11, 0)] id []], AdminAt d 0 (cmd 0 0x09 [(10, v), (11, 0)]) 0x09
        ∧ (d.modCtrl 0 (fun c => { c with reqPs := 0, opPs := 0 })).wantedState = d.wantedState) := by
  unfold AdminAt; (repeat' apply And.intro) <;> decide +kernel

theorem wit_LogsAndIdentify :
    (∀ lid ∈ [0xC0, 0xC1, 0xC2, 2], ∀ b ∈ [0, 32768], ∀ d ∈ [asks 0x02 [(10, lid + b)] id []],
      AdminAt d 0 (cmd 0 0x02 [(10, lid + b)]) 0x02 ∧ d.moversHalted 0 = false ∧ logLen (cmd 0 0x02 [(10, lid + b)]).dw ≤ 0x200000
      ∧ (lid < 0xC0 → logOff (cmd 0 0x02 [(10, lid + b)]).dw = 0) ∧ ((lid = 2 ∨ lid = 0xC1 ∨ lid = 0xC2) → (d.anyLog 0 lid 0).isSome = true)
      ∧ (lid = 0xC0 → d.anyLog 0 lid 0 = none))
    ∧ (∀ d ∈ [asks 0x02 [(10, 0xC0)] (fun c => { c with results := [{ inst := 0, check := 0, ending := 0, ecause := 0, status := 0, bytes := [] }] }) []], (d.anyLog 0 0xC0 0).isSome = true)
    ∧ (∀ cns ∈ [1, 2, 0x16], ∀ d ∈ [asks 0x06 [(10, cns)] id []], AdminAt d 0 (cmd 0 0x06 [(10, cns)]) 0x06 ∧ d.moversHalted 0 = false
      ∧ ((match d.identify 0 0 cns 0 with | .ok _ => true | .error _ => false) = (cns != 0x16))) := by
  unfold AdminAt; (repeat' apply And.intro) <;> decide +kernel

/-- An Admin command in pen 0 at a stage, with namespace 1, a Fold that can append and draw, and the Crook with a holder. -/
def nsAsks (op nsid : Nat) (l : List (Nat × Nat)) (stage : PenStage) (h : Option Nat) (ns : NsSt) : Dev :=
  { placer [{ cmd 0 op ((1, nsid) :: l) with stage := stage }] with
    nvme := { (placer [{ cmd 0 op ((1, nsid) :: l) with stage := stage }]).nvme with ns := [(1, ns)] },
    media := { (placer []).media with
               chans := [(0, { ChanSt.init with up := true, diemap := 3 })]
               dies := [(0, { DieSt.init with wl := 4, nblocks := 8 }), (1, { DieSt.init with wl := 40, nblocks := 64 })] },
    fold := { (ownedDev []).fold with healthy := true },
    crook := { CrookSt.init with holder := h } }
/-- The data of a create of 64 LBAs of format 0. -/
def create64 : Bytes := leBytes 8 64 ++ leBytes 8 64 ++ zeros 16
/-- A controller list that names CNTLID 2. -/
def list2 : Bytes := [1, 0, 2, 0]

theorem wit_NamespaceCommands :
    (∀ h ∈ [none, some 0], ∀ d ∈ [nsAsks 0x0D 0 [] .ready h ns1], AdminAt d 0 (cmd 0 0x0D []) 0x0D ∧ d.moversHalted 0 = false ∧ d.isPf 0 = true
      ∧ d.createBad (newNamespace create64) = 0 ∧ d.freeNsid = some 2 ∧ iuCountOf 64 512 d.iuKib = 8
      ∧ (∀ b ∈ [lowestFit (d.namespaces.map d.iuSpan) 8], b + 8 ≤ d.mapLimit ∧ (h = some 0 →
          ∀ r ∈ [d.ownCommit (some 0) (attachFields 2 0 0) 0], r.2 = 0
            ∧ (((r.1.setNspace 2 { newNamespace create64 with key := (r.1.nspace 2).key }).setSpan 2 b 8).newGeneration 2).isSome = true))
      ∧ d.capacityOk (d.iuUsed + 8) = true ∧ d.holdsCrook 0 = (h == some 0) ∧ (d.newGeneration 2).isSome = true ∧ d.cfg.due = [])
    ∧ (∀ h ∈ [none, some 0], ∀ d ∈ [nsAsks 0x0D 1 [(10, 1)] .ready h ns1], AdminAt d 0 (cmd 0 0x0D [(1, 1), (10, 1)]) 0x0D ∧ (d.nspace 1).exists_ = true
      ∧ d.attachSet 1 = 0 ∧ d.nsInUse [1] = false ∧ d.cfg.due = [] ∧ (d.nsDelete 1).isSome = true)
    ∧ (∀ d ∈ [nsAsks 0x15 1 [] .ready (some 0) ns1], AdminAt d 0 (cmd 0 0x15 [(1, 1)]) 0x15 ∧ (d.nspace 1).exists_ = true ∧ listed list2 = some [1]
      ∧ d.attached 1 1 = false ∧ d.nsBusy 0x200 = false ∧ (d.ctrl 1).en = false
      ∧ (d.ownCommitAs 0x20000 (some 0) (attachFields 1 2 0) 0).2 = 0
      ∧ (d.ownCommitAs 0x20000 (some 0) (attachFields 1 2 0) 0).1.cfg.due = [])
    ∧ (∀ d ∈ [{ nsAsks 0x15 1 [] .ready (some 0) ns1 with cfg := { CfgSt.init with committed := [(cfgId 0x200 1, 2)] } }], d.attached 1 1 = true)
    ∧ (∀ d ∈ [nsAsks 0x1C 0 [(10, 9 + 65536 * 3)] .ready (some 0) ns1], AdminAt d 0 (cmd 0 0x1C [(10, 9 + 65536 * 3)]) 0x1C ∧ d.isPf 0 = true
      ∧ (d.secondaries 0).contains 2 = true)
    ∧ (∀ h ∈ [none, some 0], ∀ d ∈ [nsAsks 0x80 1 [] .executing h ns1], d.heldAdmin 0 0x80 = some { cmd 0 0x80 [(1, 1)] with stage := .executing }
      ∧ formatBad 0 0 d.iuKib = 0 ∧ (d.reformatAll [1] 0 false).capacityOk (d.reformatAll [1] 0 false).iuUsed = true ∧ (d.nsRecord 1).isSome = true)
    ∧ (∀ a ∈ [1, 4], ∀ d ∈ [nsAsks 0x84 0 [(10, a)] .executing none ns1], d.heldAdmin 0 0x84 = some { cmd 0 0x84 [(10, a)] with stage := .executing }
      ∧ (d.changeKeys d.namespaces).any (fun r => r.2 == [(1, 0)]) = true)
    ∧ (∀ d ∈ [nsAsks 0x84 0 [(10, 4)] .executing none { ns1 with exists_ := false }], (d.changeKeys d.namespaces).any (fun r => r.2 == []) = true)
    ∧ (∀ a ∈ [0, 0xE8], ∀ d ∈ [nsAsks 0x81 0 [(10, a * 2 ^ 24)] .ready none ns1], AdminAt d 0 (cmd 0 0x81 [(10, a * 2 ^ 24)]) 0x81 ∧ d.secp 0 = a)
    ∧ leAt ([0x12, 0x95] : Bytes) 1 1 = 0x95
    ∧ (∀ a ∈ [0, 0xE8], ∀ t ∈ ([[], [(0, [0x12])]] : List (Tab Bytes)), ∀ d ∈ [{ nsAsks 0x82 0 [(10, a * 2 ^ 24), (11, 8)] .ready none ns1 with
          spdm := { d0.spdm with replies := t } }],
        AdminAt d 0 (cmd 0 0x82 [(10, a * 2 ^ 24), (11, 8)]) 0x82 ∧ d.secp 0 = a ∧ d.spdm.replies = t)
    ∧ (secInfo 0).isSome = true := by
  unfold AdminAt; (repeat' apply And.intro) <;> decide +kernel

/-- A Held reservation command of controller 0 in namespace 1 with a reservation state. -/
def reserves (op : Nat) (l : List (Nat × Nat)) (r : ResvSt) : Dev :=
  { placer [io op .executing l []] with nvme := { (placer [io op .executing l []]).nvme with ns := [(1, { ns1 with resv := r })] } }
/-- Two registrants, the first of controller 0 with key 5. -/
def mine : Registrant := { ctrl := 0, hostId := [], key := 5 }
def regs2 (h : Option Nat) (t : Nat) : ResvSt := { regs := [mine, { ctrl := 3, hostId := [], key := 6 }], holder := h, rtype := t, gen := 2, ptpl := false }
/-- Data of a reservation command: the current key and a new key. -/
def keys5 : Bytes := leBytes 8 5 ++ leBytes 8 7

theorem wit_ReservationCommands :
    (∀ op ∈ [0x0D, 0x11, 0x15], ∀ d ∈ [reserves op [(10, 0)] { regs2 none 0 with regs := [] }],
      d.resvCmd 0 op = some (io op .executing [(10, 0)] [], { regs2 none 0 with regs := [] }, none))
    ∧ (∀ a ∈ [1, 2], ∀ d ∈ [reserves 0x0D [(10, a)] (regs2 none 0)], d.resvCmd 0 0x0D = some (io 0x0D .executing [(10, a)] [], regs2 none 0, some mine)
      ∧ (regs2 none 0).holds mine = false)
    ∧ mine.key = leAt keys5 0 8 ∧ mine.key ≠ leAt (zeros 16) 0 8
    ∧ (∀ r ∈ [regs2 none 0, regs2 (some 3) 1], ∀ d ∈ [reserves 0x11 [(10, 256)] r],
        d.resvCmd 0 0x11 = some (io 0x11 .executing [(10, 256)] [], r, some mine) ∧ r.holds mine = false)
    ∧ (∀ d ∈ [reserves 0x15 [(10, 256)] (regs2 (some 0) 1)],
        d.resvCmd 0 0x15 = some (io 0x15 .executing [(10, 256)] [], regs2 (some 0) 1, some mine) ∧ (regs2 (some 0) 1).holds mine = true)
    ∧ (∀ b ∈ [0, 1], ∀ d ∈ [placer [io 0x0E .ready [(11, b)] []]], d.pen 0 = some (io 0x0E .ready [(11, b)] [])) := by
  (repeat' apply And.intro) <;> decide +kernel

/-! ### Statements about the Fold -/

/-- A signature set of a role, with the smallest HSS signature and key IDs of zeros. -/
def aSet (role : Nat) : Bytes := leBytes 1 role ++ zeros 3 ++ leBytes 4 784 ++ zeros 32 ++ zeros 96 ++ hssZero
/-- A lifecycle request of a type, the device and nonce of zeros, under an ownership counter. -/
def aRequest (type ctr : Nat) (payload : Bytes) (roles : List Nat) : Bytes :=
  leBytes 4 0x51524C46 ++ leBytes 2 1 ++ leBytes 1 type ++ zeros 1 ++ zeros 48 ++ leBytes 8 ctr ++ leBytes 4 payload.length
    ++ leBytes 4 (roundUp (0x48 + payload.length) 8) ++ padTo (roundUp (0x48 + payload.length) 8 - 0x48) payload
    ++ leBytes 4 0x47535842 ++ leBytes 4 (16 + 920 * roles.length) ++ leBytes 1 roles.length ++ zeros 7 ++ roles.flatMap aSet
/-- The payload of an enrolment or a transfer: no flags, a public key and an HSS key of one level. -/
def newKeys : Bytes := zeros 101 ++ ([0, 0, 0, 1, 0, 0, 0, 10, 0, 0, 0, 8] : Bytes) ++ zeros 40
/-- A request of each type, with the ownership counter it is made for. -/
def requests : List (Nat × Nat × Bytes) :=
  [(1, 2, aRequest 1 2 newKeys [3]), (2, 3, aRequest 2 3 newKeys [2, 3]), (3, 3, aRequest 3 3 [] [2]), (4, 3, aRequest 4 3 (zeros 4) [2]),
   (5, 3, aRequest 5 3 [] [2]), (6, 3, aRequest 6 3 (zeros 4) [1, 2]), (7, 3, aRequest 7 3 [] []), (8, 3, aRequest 8 3 (zeros 1) [2])]
/-- A command of a security protocol in pen 0, with a length, of a device that is Owned or Unowned by its counter, its nonce current. -/
def secures (op proto sp len ctr : Nat) (h : Option Nat) : Dev :=
  { holds [cmd 0 op [(10, proto * 2 ^ 24 + sp * 256), (11, len)]] ctrlUp (ownedDev []) with
    fold := { (ownedDev []).fold with otp := { OtpSt.init with vp := 0xFF, vendorKeys := zeros 192 }, ownerCtr := ctr,
                                      nonce := some (zeros 32, 0), scope := 1, healthy := true },
    crook := { CrookSt.init with holder := h } }

/-- What the opaque digests and signature checks would have to give: every digest begins with zeros, and every signature and point passes. -/
def CryptoAgrees : Prop :=
  (∀ m, (sha384 m).take 16 = zeros 16) ∧ (∀ k m s, Config.setEcdsaOk k m s = true) ∧ (∀ k m s, Config.setHssOk k m s = true)
    ∧ ∀ k, Config.ecdsaPointOk k = true

/-- The part of a request's checks that no opaque function decides. -/
def wellAsked (d : Dev) (r : LcReq) : Bool :=
  r.setsFormed && r.device == zeros 16 && d.nonceOk r.nonce && r.gen == d.fold.ownerCtr && d.fold.typeAccepted r.type
    && r.sets.map (fun s => s.role) == d.fold.rolesFor r.type
    && r.sets.all (fun s => hssPermitted s.hss && s.ecdsaKid == zeros 16 && s.lmsKid == zeros 16
        && (if s.role = 1 then d.fold.vendorPairs.contains (zeros 16, zeros 16) else if s.role = 2 then d.fold.owner.isSome else s.role == 3))
    && (if r.type = 1 ∨ r.type = 2 then r.payload.length == 153 && leAt r.payload 0 4 == 0 && hssKeyOk (sliceOf r.payload 0x65 52)
        else d.fold.payloadOk r)

theorem accepted_of_wellAsked (h : CryptoAgrees) (d : Dev) (b : Bytes) (r : LcReq) (hp : LcReq.parse b = some r) (hr : wellAsked d r = true) :
    d.lcCheck b = (0, some r) := by
  obtain ⟨h1, h2, h3, h4⟩ := h
  simp only [wellAsked, Bool.and_eq_true, beq_iff_eq] at hr
  obtain ⟨⟨⟨⟨⟨⟨⟨a1, a2⟩, a3⟩, a4⟩, a5⟩, a6⟩, a7⟩, a8⟩ := hr
  have hdev : d.fold.device = zeros 16 := h1 _
  have hk : ∀ o, d.fold.owner = some o → d.fold.ownerKid = some (zeros 16, zeros 16) := by
    intro o ho; simp [FoldSt.ownerKid, ho, h1]
  have hset : r.sets.all (setOk r.signed) = true := by simp [setOk, h2, h3]
  have hsig : r.sets.all (d.fold.signerOk r) = true := by
    rw [List.all_eq_true] at a7 ⊢
    intro s hs
    have := a7 s hs
    simp only [Bool.and_eq_true, beq_iff_eq] at this
    obtain ⟨⟨⟨b1, b2⟩, b3⟩, b4⟩ := this
    unfold FoldSt.signerOk LcReq.newKid
    rw [b1, b2, b3, h1, h1]
    by_cases c1 : s.role = 1
    · simp only [c1, if_true] at b4 ⊢; simpa using b4
    · by_cases c2 : s.role = 2
      · simp only [c2, if_true] at b4 ⊢
        obtain ⟨o, ho⟩ := Option.isSome_iff_exists.mp (by simpa using b4)
        simp [hk o ho]
      · simp only [c1, c2, if_false] at b4 ⊢; simpa using b4
  have hpay : d.fold.payloadOk r = true := by
    by_cases c : r.type = 1 ∨ r.type = 2
    · simp only [c, if_true, Bool.and_eq_true, beq_iff_eq] at a8
      obtain ⟨⟨p1, p2⟩, p3⟩ := a8
      rcases c with c | c <;> simp [FoldSt.payloadOk, c, p1, p2, p3, h4]
    · simpa [c] using a8
  simp [Dev.lcCheck, hp, a1, a2, hdev, a3, a4, a5, a6, hset, hsig, hpay]

theorem requests_wellAsked : ∀ row ∈ requests, ∀ d ∈ [secures 0x81 0xF0 2 row.2.2.length row.2.1 (some 0)],
    (LcReq.parse row.2.2).any (wellAsked d) = true := by
  decide +kernel

/-- A request of each type is accepted where the opaque functions agree. -/
theorem wit_LifecycleRequests_accepted (h : CryptoAgrees) : ∀ row ∈ requests, ∀ d ∈ [secures 0x81 0xF0 2 row.2.2.length row.2.1 (some 0)],
    (∃ r, d.lcCheck row.2.2 = (0, some r)) ∧ RequestAt d 0 (cmd 0 0x81 [(10, 0xF0 * 2 ^ 24 + 2 * 256), (11, row.2.2.length)]) row.1 row.2.2
      ∧ d.holdsCrook 0 = true := by
  intro row hrow d hd
  have hw := requests_wellAsked row hrow d hd
  obtain ⟨r, hp, hr⟩ : ∃ r, LcReq.parse row.2.2 = some r ∧ wellAsked d r = true := by
    cases hp : LcReq.parse row.2.2 with
    | none => simp [hp] at hw
    | some r => exact ⟨r, rfl, by simpa [hp] using hw⟩
  have hc := accepted_of_wellAsked h d _ r hp hr
  have hn : ∀ row ∈ requests, ∀ d ∈ [secures 0x81 0xF0 2 row.2.2.length row.2.1 (some 0)],
      d.pen 0 = some (cmd 0 0x81 [(10, 0xF0 * 2 ^ 24 + 2 * 256), (11, row.2.2.length)]) ∧ d.adminReady 0 0x81 = true ∧ d.secp 0 = 0xF0 ∧ d.spsp 0 = 2
        ∧ d.isPf 0 = true ∧ leAt row.2.2 6 1 = row.1 ∧ d.holdsCrook 0 = true ∧ (d.changeKeys d.namespaces).isNone = false := by decide +kernel
  obtain ⟨n1, n2, n3, n4, n5, n6, n7, n8⟩ := hn row hrow d hd
  refine ⟨⟨r, hc⟩, ⟨n1, n2, n3, n4, n5, n6, ?_, ?_⟩, n7⟩
  · rfl
  · unfold Dev.eraseWaits; rw [hc]; simp [n8]

theorem wit_LifecycleRequests : ∀ t ∈ [1, 2, 3, 4, 5, 6, 7, 8], ∀ h ∈ [none, some 0], ∀ d ∈ [secures 0x81 0xF0 2 7 3 h],
    RequestAt d 0 (cmd 0 0x81 [(10, 0xF0 * 2 ^ 24 + 2 * 256), (11, 7)]) t (zeros 6 ++ [BitVec.ofNat 8 t]) ∧ d.holdsCrook 0 = (h == some 0)
      ∧ d.lcCheck (zeros 6 ++ [BitVec.ofNat 8 t]) = (2, none) := by
  unfold RequestAt; decide +kernel

theorem wit_LifecycleReads :
    (∀ sp ∈ [1, 3, 4, 5, 6], ∀ d ∈ [secures 0x82 0xF0 sp 512 3 none], d.pen 0 = some (cmd 0 0x82 [(10, 0xF0 * 2 ^ 24 + sp * 256), (11, 512)])
      ∧ d.adminReady 0 0x82 = true ∧ d.secp 0 = 0xF0 ∧ d.spsp 0 = sp ∧ d.isPf 0 = true ∧ d.drbgOk = true ∧ d.fold.nonce = some (zeros 32, 0))
    ∧ d0.fold.lc = 0 ∧ (ownedDev []).fold.lc ≠ 0
    ∧ (∀ t ∈ [0, 2], ∀ d ∈ [{ d0 with fold := { FoldSt.init with tapOpen := t } }], bitOf d.fold.tapOpen 1 = (t == 2))
    ∧ (∀ x ∈ [none, some (0, 1, [1])], ∀ d ∈ [{ secures 0x81 1 1 512 3 none with
          tcg := { d0.tcg with session := x, active := true }, nvme := { (secures 0x81 1 1 512 3 none).nvme with ns := [(1, ns1)] } }],
        d.pen 0 = some (cmd 0 0x81 [(10, 2 ^ 24 + 256), (11, 512)]) ∧ d.adminReady 0 0x81 = true ∧ d.secp 0 = 1 ∧ d.tcg.session = x
        ∧ d.tcg.active = true ∧ d.nsOk 1 = true) := by
  (repeat' apply And.intro) <;> decide +kernel

/-- The device with key slots, whose Fold is out of reset and draws. -/
def keyed (l : Tab KeySlot) (u : Option UnwrapOp) (b : Bytes) : Dev :=
  { d0 with
    keys := { KeySt.init with slots := l, uop := u }
    fold := { FoldSt.init with inReset := false, healthy := true }
    mem := memSetRun (scratchBase 0) b [] }
def aSlot (st : SlotState) : KeySlot := { st := st, inUse := 0, content := 9 }
def anUnwrap : UnwrapOp := { op := 1, gen := 0, slot := 64, kek := 0, nsid := 1, startWsn := 0, src := 0, dst := 0, bad := true }

theorem wit_KeyStoreCommands :
    (∀ st ∈ [SlotState.loaded, SlotState.clearing], ∀ d ∈ [keyed [(64, aSlot st)] none []], d.keys.busy = false ∧ (d.slot 64).st = st ∧ (d.slot 64).inUse = 0
      ∧ d.keys.cmdSlot < 16384 ∧ (d.keys.caches.get [] 3).contains 64 = false ∧ kekSlot 64 = false ∧ d.fold.inReset = false)
    ∧ kekSlot 16368 = true
    ∧ (∀ op ∈ [1, 2, 3, 4], ∀ d ∈ [keyed [] none [BitVec.ofNat 8 op]], d.keys.uop = none ∧ (d.unwrapDesc 0).op = op)
    ∧ (∀ d ∈ [keyed [] (some anUnwrap) []], d.keys.uop = some anUnwrap)
    ∧ (∀ d ∈ [{ keyed [(64, aSlot .loaded)] none [] with
          nvme := { NvmeSt.init with ns := [(1, { ns1 with key := { mode := 1, cur := 1, gens := [(0, { slot := 64, gstate := 2, startWsn := 0 })] } })] } }],
        (d.keyBind 1).gens.get? 0 = some { slot := 64, gstate := 2, startWsn := 0 } ∧ d.genBlocks 1 0 = 0 ∧ d.keys.busy = false
        ∧ (d.slot 64).st = .loaded)
    ∧ (∀ f ∈ [none, some 5], ∀ d ∈ [{ d0 with fold := { FoldSt.init with failedAt := f } }], d.fold.failedAt = f ∧ d.now ≤ 5 + 100000000)
    ∧ (∀ ok ∈ [false, true], ∀ d ∈ [{ keyed [] none [] with aes := { dies := [(1, { AesDie.init with rngOk := ok, late := true, halted := false })], misses := [], stalls := [] } }],
        (d.aesDie 1).halted = false ∧ (d.aesDie 1).rngOk = ok ∧ (d.aesDie 1).late = true ∧ d.drbgOk = true) := by
  (repeat' apply And.intro) <;> decide +kernel

/-- The device with digest slot 3 of Shepherd core 0 in a state. -/
def digs (st : DigState) : Dev := { d0 with dig := [(3, { DigSlot.init with st := st, owner := coreIdOf 1 })] }

theorem wit_DigestEngines :
    d0.dig.firstIdx DigSlot.init (fun x => x.st == .free) 64 = some 0
    ∧ (∀ d ∈ [{ d0 with dig := (List.range 64).map (fun i => (i, { DigSlot.init with st := .held })) }],
        d.dig.firstIdx DigSlot.init (fun x => x.st == .free) 64 = none)
    ∧ (∀ st ∈ [DigState.held, .opened, .finishing, .done, .error], OwnsDigest (digs st) 1 3 st)
    ∧ (∀ a ∈ [0, 1], (({ (digs .held).dslot 3 with alg := bitsOf a 3 0, hmac := bitOf a 4, keyLen := bitsOf a 12 5, outLen := bitsOf a 19 13 } : DigSlot).ctlOk
        = (a == 1)))
    ∧ ((digs .opened).dslot 3).owner ≠ coreIdOf 2
    ∧ (∀ op ∈ [1, 2, 3, 4, 5, 6], ∀ d ∈ [keyed [] none [BitVec.ofNat 8 op]], (d.pkaDesc 0).op = op ∧ d.pka.ec = none ∧ d.pka.hbs = none)
    ∧ (∀ x ∈ [(false, none, some (d0.pkaDesc 0)), (true, some (d0.pkaDesc 0), none)],
        ∀ d ∈ [{ d0 with pka := { d0.pka with ec := x.2.1, hbs := x.2.2 } }], (if x.1 then d.pka.ec else d.pka.hbs) = some (d0.pkaDesc 0)) := by
  unfold OwnsDigest; (repeat' apply And.intro) <;> decide +kernel

/-! ### Statements about boot, firmware and the store -/

/-- Shepherd firmware signed by a vendor key, and an Owned device where it passed its signatures at this boot. -/
def shepherdModule : Bytes := aModule 2 2 2 1
def vendorDev : Dev :=
  { ownedDev [shepherdModule] with
    fold := { (ownedDev []).fold with otp := { OtpSt.init with vp := 0xFF, vendorKeys := zeros 192 }, stage := 9 },
    crook := { CrookSt.init with holder := some 0 } }
/-- The image in slot 0 of the store; the slots of the other kinds and the spare hold an image of length 0. -/
def slotted : Dev :=
  [858, 918, 868, 898, 926].foldl (fun d x => d.norProgram (x * 65536) (zeros 512)) (vendorDev.norProgram (878 * 65536) shepherdModule)

theorem wit_TallyAndBoot :
    (∀ a ∈ [[], [1]], ∀ d ∈ [{ ownedDev [] with fold := { (ownedDev []).fold with alias1 := a } }], d.canAppend = (a == [1]) ∧ d.fold.lms.take.isSome = true)
    ∧ (∀ d ∈ [{ d0 with fold := { FoldSt.init with lms := { gen := 0, next := 0, cur := 16384, lim := 16777216, builtTo := 0 } } }],
        d.fold.lms.builtTo = d.fold.lms.cur / 32768 ∧ 16384 ≤ d.fold.lms.cur % 32768)
    ∧ (∀ x ∈ [0, 0xFF], ∀ d ∈ [{ d0 with fold := { FoldSt.init with stage := 1, otp := { OtpSt.init with decom := BitVec.ofNat 8 x } },
                                          clk := { ClkSt.init with started := true } }],
        d.fold.halted = false ∧ d.pwr.pf = .idle ∧ d.evt.seqn = .none ∧ fieldWeak d.fold.otp.vp = false ∧ fieldWeak d.fold.otp.decom = false
        ∧ (d.fold.lc = 0 ∨ d.fold.lc = 3))
    ∧ (∀ d ∈ [{ slotted with fold := { slotted.fold with stage := 7 }, integ := { IntegSt.init with dram := true },
                             hub := { mods := (List.range 12).map (fun i => (i, { up := true, attempts := 1 })), degraded := 0 } }],
        d.fold.halted = false ∧ d.modulesTrained = true ∧ d.pwr.pf = .idle ∧ d.evt.seqn = .none ∧ d.runSlot 2 3 = some 0)
    ∧ (∀ d ∈ [{ linked [] { ctrlUp with rdy := false } with fold := { FoldSt.init with stage := 8 } }], d.mapc.rbPhase = 0 ∧ d.evt.fatal = false
        ∧ d.pwr.pf = .idle ∧ (∃ e ∈ d.nvme.ctrls, e.2.en = true ∧ e.2.rdy = false) ∧ d.nvme.ctrls.wf = true) := by
  (repeat' apply And.intro) <;> decide +kernel

/-- A firmware command with its dwords in pen 0 on a device. -/
def updates (op : Nat) (l : List (Nat × Nat)) (own : Option Nat) (d : Dev) : Dev :=
  holds [cmd 0 op l] ctrlUp { d with ilu := { d.ilu with dlOwner := own, dlLen := 1024 } }
/-- The package of that one module, in the download buffer. -/
def packaged : Dev := vendorDev.putBytes vendorDev.dlBase shepherdModule
/-- What the slot writes of a commit come to. -/
def written (d : Dev) (k : Nat) (fails : TallyFails) (ts : List (Nat × Nat × Bytes)) : Dev × Bool :=
  ts.foldl (fun (acc : Dev × Bool) t => if acc.2 then acc.1.writeSlot t.1 t.2.1 t.2.2 (k + 1) .done fails else acc) (d, true)
/-- An activation of slot 0 that has some cores left, its command waiting in pen 0. -/
def activates (cs : List Nat) (al : Bytes) : Dev :=
  { holds [{ cmd 0 0x10 [(10, 3 * 8 + 1)] with stage := .external }] ctrlUp slotted with
    ilu := { slotted.ilu with act := some { pen := 0, slot := 0, cores := cs, step := 0 } },
    fold := { slotted.fold with alias1 := al } }

theorem wit_FirmwareUpdate_ready :
    (∀ x ∈ [(0, none), (1024, some 0)], ∀ d ∈ [updates 0x11 [(10, 1023), (11, x.1)] x.2 d0], d.pen 0 = some (cmd 0 0x11 [(10, 1023), (11, x.1)])
      ∧ d.adminReady 0 0x11 = true ∧ d.ilu.dlOwner = x.2)
    ∧ (∀ ca ∈ [0, 1, 2, 3], ∀ fs ∈ [0, 1, 3], ∀ d ∈ [updates 0x10 [(10, ca * 8 + fs)] (some 0) packaged],
        d.pen 0 = some (cmd 0 0x10 [(10, ca * 8 + fs)]) ∧ d.fwReady 0 ca = true ∧ d.holdsCrook 0 = true) := by
  (repeat' apply And.intro) <;> decide +kernel

/-- A download buffer that was filled reads back. -/
theorem updates_bytes (op : Nat) (l : List (Nat × Nat)) (own : Option Nat) (v : Dev) (b : Bytes) (w : memWf v.mem = true) (h : b.length = 1024) :
    (updates op l own (v.putBytes v.dlBase b)).bytes (updates op l own (v.putBytes v.dlBase b)).dlBase
      (updates op l own (v.putBytes v.dlBase b)).ilu.dlLen = b := by
  have h1 : (updates op l own (v.putBytes v.dlBase b)).ilu.dlLen = b.length := h.symm
  rw [h1]
  exact Dev.bytes_putBytes w _ b

theorem wit_FirmwareUpdate_package :
    (∀ d ∈ [updates 0x10 [(10, 2)] (some 0) packaged], d.bytes d.dlBase d.ilu.dlLen = shepherdModule)
    ∧ packageOf 12 shepherdModule = some [shepherdModule] ∧ packageShape [shepherdModule] = true
    ∧ (∀ d ∈ [updates 0x10 [(10, 2)] (some 0) packaged], d.packageFail [shepherdModule] = none
        ∧ d.targets 2 [shepherdModule] = some [(2, 1, shepherdModule)]) := by
  refine ⟨fun d hd => ?_, by decide +kernel, by decide +kernel, by decide +kernel⟩
  rw [List.mem_singleton] at hd
  rw [hd]
  exact updates_bytes _ _ _ _ _ (by decide +kernel) (by decide +kernel)

theorem wit_FirmwareUpdate_written :
    (∀ ca ∈ [0, 1], ∀ d ∈ [updates 0x10 [(10, ca * 8 + 2)] (some 0) packaged],
        (written d 0 0 [(2, 1, shepherdModule)]).2 = true ∧ (written d 0 2 [(2, 1, shepherdModule)]).2 = false) := by
  (repeat' apply And.intro) <;> decide +kernel

theorem wit_FirmwareUpdate_activation :
    (∀ fs ∈ [1, 2], ∀ d ∈ [updates 0x10 [(10, 2 * 8 + fs)] none slotted], d.fwReady 0 2 = true ∧ (d.fwActRefused 0).isNone = (fs == 1)) := by
  (repeat' apply And.intro) <;> decide +kernel

theorem wit_FirmwareUpdate_live :
    (∀ cs ∈ [[], [({ cid := 2, secver := 0, ckind := 2, slot := 0, signers := 0, units := 0xFF, digest := [] } : CompEnt)]],
        ∀ d ∈ [updates 0x10 [(10, 3 * 8 + 1)] none { slotted with fold := { slotted.fold with comps := cs } }],
        d.fwReady 0 3 = true ∧ d.fold.stage = 9 ∧ d.mapc.rbPhase = 0 ∧ d.fwActRefused 0 = none
        ∧ (((d.passingKinds 0).flatMap (fun k => ((kindUnits k).filter (fun u => d.fold.slotNow k u != some 0)).map (unitCore k))) == []) = (cs != [])) := by
  (repeat' apply And.intro) <;> decide +kernel

theorem wit_FirmwareUpdate_core :
    (∀ x ∈ [([1], [1]), ([1, 2], [1]), ([1], [])], ∀ d ∈ [activates x.1 x.2], d.pwr.pf = .idle
        ∧ d.ilu.act = some { pen := 0, slot := 0, cores := x.1, step := 0 } ∧ (d.core 1).modRun = none
        ∧ d.pen 0 = some { cmd 0 0x10 [(10, 3 * 8 + 1)] with stage := .external }
        ∧ ((d.abandonTxns (fun y => y.core == 1)).appendEntry
            ((d.abandonTxns (fun y => y.core == 1)).actEntry { pen := 0, slot := 0, cores := x.1, step := 0 } 2 0 0 []) 0).2 = (x.2 == [1])) := by
  (repeat' apply And.intro) <;> decide +kernel

/-- The store with a state of port 0, an erase, a program, and due work. -/
def stored (f : IluSt → IluSt) (seq : IluSeq) : Dev :=
  { d0 with ilu := f { IluSt.init with ports := [(0, { IluPort.init with seq := seq })] } }
/-- An erase of port 0. -/
def anErase (susp expl : Bool) : IluErase := { port := 0, sector := 900, since := 0, suspended := susp, explicit := expl }

theorem wit_StoreController :
    (∀ q ∈ [IluSeq.idle, .key1, .unlocked], ∀ d ∈ [stored id q], d.iluTakes 0 0 = true ∧ (d.ilu.port 0).seq = q)
    ∧ (∀ d ∈ [stored id .unlocked], d.ilu.erase = none
        ∧ StoreTakes d 0 0 { code := 1, units := 1, addr := 900 * 65536, data := 0 }
        ∧ StoreTakes d 0 0 { code := 5, units := 0, addr := 900 * 65536, data := 0xF0 }
        ∧ StoreTakes d 0 0 { code := 2, units := 0, addr := 900 * 65536, data := 0xD0 })
    ∧ (∀ x ∈ [(false, false), (true, false), (false, true)], ∀ d ∈ [stored (fun i => { i with erase := some (anErase x.1 x.2), suspPending := x.2 }) .unlocked],
        d.iluTakes 0 0 = true ∧ (d.ilu.port 0).seq = .unlocked ∧ d.ilu.erase = some (anErase x.1 x.2) ∧ d.ilu.suspPending = x.2
        ∧ d.ilu.rstHold = false ∧ d.ilu.pfHold = false)
    ∧ (∀ d ∈ [stored (fun i => { i with prog := some { port := 0, cmd := { code := 1, units := 1, addr := 900 * 65536, data := 0 }, done := 0 } }) .idle],
        d.ilu.prog.isSome = true)
    ∧ (∀ d ∈ [stored (fun i => { i with moveDue := true, reerase := [900] }) .idle], d.ilu.moveDue = true ∧ d.ilu.erase = none ∧ d.ilu.reerase = [900]) := by
  unfold StoreTakes; (repeat' apply And.intro) <;> decide +kernel

/-- In each of them the array is free. -/
theorem wit_StoreFree (f : IluSt → IluSt) (seq : IluSeq) (h : ∀ i, (f i).prog = i.prog ∧ (f i).rstHold = i.rstHold ∧ (f i).pfHold = i.pfHold
    ∧ (f i).ports = i.ports) : StoreFree (stored f seq) := by
  obtain ⟨h1, h2, h3, h4⟩ := h { IluSt.init with ports := [(0, { IluPort.init with seq := seq })] }
  refine ⟨h1, h2, h3, fun q => ?_⟩
  simp only [stored, IluSt.port, h4]
  simp only [Tab.get]
  split
  · rfl
  · rfl

/-! ### Statements about events, resets, power-fail and tampers -/

/-- A record of a class, and the device with a source's FIFO of records. -/
def aRec (cls : Nat) : EvRec := { seq := 0, ltime := 0, obj := 0, arg := 0, cond := 1, cls := cls, flags := 0, postedAt := 0 }
def srced (src : Nat) (l : List EvRec) (hist : Nat) (handling : Bool) : Dev :=
  { d0 with evt := { EvtSt.init with srcs := [(src, { SrcSt.init with fifo := l, hist := List.replicate hist (aRec 0), handling := handling })] } }

theorem wit_EventRecords :
    (∀ n ∈ [0, 63, 64], ∀ d ∈ [srced 3 [aRec 2] n true], (d.src 3).hist.length = n ∧ (d.src 3).fifo = [aRec 2] ∧ (d.src 3).handling = true
      ∧ handlerOf 3 = some 1) := by
  decide +kernel

theorem wit_EventHandling :
    (∀ b ∈ [false, true], ∀ c ∈ [2, 3], ∀ d ∈ [srced 3 [aRec c] 0 b], (d.src 3).fifo = [aRec c] ∧ (d.src 3).handling = b ∧ d.evt.fatal = false)
    ∧ handlerOf 3 = some 1 ∧ handlerOf 3 ≠ some 2 ∧ (srced 3 [] 0 false).src 3 = { SrcSt.init with handling := false }
    ∧ (∀ b ∈ [false, true], ∀ d ∈ [srced 3 (List.replicate 8 (aRec 2)) 0 b], 8 ≤ (d.src 3).fifo.length ∧ (d.src 3).handling = b)
    ∧ 3 ∈ sources ∧ (∃ q ∈ sources, handlerOf q = some 1) ∧ handlerOf 1000 = none := by
  (repeat' apply And.intro) <;> decide +kernel

/-- A device that runs, its Collie armed, with a reset sequence. -/
def collied (q : ResetSeq) (f : IluSt → IluSt) : Dev :=
  { d0 with
    evt := { EvtSt.init with collieArmed := true, seqn := q }
    pins := { PinSt.init with pwrok := true }
    clk := { ClkSt.init with started := true, hold := false }
    fold := { FoldSt.init with stage := 9, inReset := false }
    ilu := f IluSt.init }

theorem wit_CollieAndResets :
    (∀ d ∈ [collied .none id], d.evt.collieArmed = true ∧ d.collieStill = false ∧ d.evt.seqn = .none ∧ d.pwr.pf = .idle ∧ d.pwr.standby = false
      ∧ d.fold.stage ≠ 0 ∧ d.journalHeld = false)
    ∧ (∀ d ∈ [{ collied .none id with drove := { DroveSt.init with units := [UnitSt.new 5 0 0 64] }, mapc := { MapcSt.init with rbPhase := 0 } }],
        d.journalHeld = true)
    ∧ (∀ d ∈ [collied (.collieHold 400000000 0) id], d.ilu.prog = none ∧ d.ilu.erase = none)
    ∧ (∀ d ∈ [collied (.collieHold 400000000 0) (fun i => { i with prog := some { port := 0, cmd := { code := 1, units := 1, addr := 0, data := 0 }, done := 0 } })],
        d.ilu.prog ≠ none)
    ∧ (∀ q ∈ [ResetSeq.warmDue 2, .foldDue false, .foldDue true], ∀ d ∈ [collied q id], d.evt.seqn = q ∧ d.pwr.pf = .idle ∧ d.pwr.standby = false)
    ∧ (∀ d ∈ [{ collied .none id with cores := [(0, { Core.init 0 with run := .halted })] }], (d.core 0).run = .halted)
    ∧ (∀ d ∈ [{ collied .none id with pwr := { PwrSt.init with pf := .waiting } }], d.pwr.pf = .waiting ∧ d.pins.pwrok = true
        ∧ d.pins.pwrfailLow = false ∧ d.pwr.tripHold = false)
    ∧ d0.pins.pwrok = false ∧ d0.pwr.pf ≠ .dumping := by
  (repeat' apply And.intro) <;> decide +kernel

theorem wit_PowerFailAndTampers :
    (∀ b ∈ [false, true], ∀ h ∈ [false, true], ∀ d ∈ [{ collied .none id with pwr := { PwrSt.init with standby := b },
                                                                                clk := { ClkSt.init with started := true, hold := h } }],
        d.pins.pwrfailLow = false ∧ d.pwr.pf = .idle ∧ d.pwr.standby = b ∧ d.pins.pwrok = true ∧ d.clk.hold = h ∧ d.pwr.tripHold = false)
    ∧ (∀ t ∈ [false, true], ∀ d ∈ [{ collied .none id with pwr := { PwrSt.init with pf := .dumping, tripHold := t } }], d.pwr.pf = .dumping)
    ∧ (∀ s ∈ [0, 9], ∀ d ∈ [{ collied .none id with pins := { PinSt.init with pwrok := true, pwrfailLow := true }, fold := { FoldSt.init with stage := s } }],
        d.pins.pwrfailLow = true ∧ d.clk.started = true ∧ d.fold.stage = s ∧ d.pwr.pf = .idle)
    ∧ (∀ d ∈ [{ collied .none id with fold := { FoldSt.init with stage := 1 } }], d.fold.stage = 1 ∧ d.fold.halted = false)
    ∧ (∀ n ∈ [0, 2, 3], ∀ d ∈ [{ collied .none id with thm := { ThmSt.init with sensors := [(0, { Sensor.init with samples := [0], hot := n })] } }],
        (n = 3 → ∃ x ∈ d.thm.valid, 3 ≤ x.hot) ∧ (n ≠ 3 → ∀ x ∈ d.thm.valid, x.hot < 3))
    ∧ (∀ d ∈ [{ collied .none id with thm := { ThmSt.init with coolSince := some 7 }, pwr := { PwrSt.init with pf := .waiting, tripHold := true } }],
        d.thm.coolSince = some 7 ∧ d.pwr.tripHold = true ∧ d.pwr.pf = .waiting)
    ∧ ∀ b ∈ [false, true], wakePatternOk b ([20, 100, 200, 20, 200].map (fun n => (BitVec.ofNat 12 n).toNat)) = true
    ∧ (∀ d ∈ [{ collied .none id with pwr := { PwrSt.init with current := 2, mgmtUp := false } }], 2 ≤ d.pwr.current ∧ d.pwr.mgmtUp = false
        ∧ bitOf (d.cfgv 0x00A 3) 0 = true) := by
  (repeat' apply And.intro) <;> decide +kernel

/-! ### Statements about power states, clocks and temperatures -/

/-- An entry or exit from a current to a target state, after a step, with commands in pens. -/
def powers (f : PwrSt → PwrSt) (xs : List PenSt) : Dev := { linked xs ctrlUp with pwr := f PwrSt.init }
def enters (cur tgt step : Nat) (susp : Bool) (p : PwrSt) : PwrSt :=
  { p with current := cur, target := tgt, entering := true, step := step, suspended := susp }
/-- A controller whose autonomous transitions are on, its table naming state 3 after 100 ms, and NOPPME set. -/
def autonomous : CtrlSt :=
  { ctrlUp with features := [(0x0C, 1), (0x11, 1)], featData := [(0x0C, leBytes 8 (3 * 8 + 100 * 256))] }

theorem wit_PowerStates :
    (∀ n ∈ List.range 9, ∀ t ∈ [1, 2], ∀ xs ∈ [[], [cmd 1 2 []]], ∀ d ∈ [powers (enters 0 t n false) xs],
      d.pwr.entering = true ∧ d.pwr.suspended = false ∧ d.pwr.standby = false ∧ d.pwr.current < d.pwr.target ∧ d.pwr.pf = .idle ∧ d.pwr.step = n
      ∧ d.ioPens = (xs != []) ∧ d.anyDieOp = false)
    ∧ (∀ d ∈ [powers (enters 0 3 2 true) []], d.pwr.entering = true ∧ d.pwr.suspended = true ∧ d.ioPens = false)
    ∧ (∀ d ∈ [powers (enters 3 0 0 false) []], d.pwr.entering = true ∧ d.pwr.standby = false ∧ d.pwr.target ≤ d.pwr.current)
    ∧ (powers id []).padDead 200 = false ∧ (powers id []).padDead 224 = true ∧ (powers id []).pwr.standby = false
    ∧ (powers (fun p => { p with standby := true }) []).pwr.standby = true
    ∧ (∀ d ∈ [linked [] autonomous], (d.ctrl 0).en = true ∧ (d.ctrl 0).d3hot = false ∧ bitOf ((d.ctrl 0).features.get 0 0x0C) 0 = true
        ∧ d.apstEntry 0 = (3, 100))
    ∧ (∀ u ∈ [none, some 5], ∀ d ∈ [{ linked [] { autonomous with reqPs := 3 } with pwr := { PwrSt.init with current := 3, noppUntil := u } }],
        d.pwr.standby = false ∧ 2 ≤ d.pwr.current ∧ d.pwr.entering = false ∧ d.noppme = true ∧ d.pwr.noppUntil = u)
    ∧ (∀ b ∈ [false, true], ∀ d ∈ [{ d0 with links := [(0, { LinkSt.init with width := 4, l12 := b })] }], (d.link 0).width ≠ 0 ∧ (d.link 0).l12 = b)
    ∧ (d0.link 0).width = 0 := by
  (repeat' apply And.intro) <;> decide +kernel

/-- Clocks after power-on with both crystals. -/
def clk1 : ClkSt :=
  { ClkSt.init with started := true, fioEn := true, x0En := true, x1En := true, fioRdy := true, x0Rdy := true, x1Rdy := true, pllaRdy := true,
                    pllbRdy := true, root := 0, refA := 0, refB := 2, hold := false }
def clked (f : ClkSt → ClkSt) : Dev := { d0 with clk := f clk1, pins := { PinSt.init with pwrok := true } }
/-- Gate state of block 40. -/
def gated (st : GateState) : Dev := clked (fun c => { c with gates := [(40, { st := st, since := 0, held := 0 })] })

theorem wit_Clocks :
    (clked (fun c => { c with hold := true })).clk.hold = true
    ∧ (∀ d ∈ [clked id], d.clk.hold = false ∧ d.clk.root = 0 ∧ d.clk.pllReady 1 = true ∧ d.clk.rootRef ≠ srcRef 0 ∧ d.clk.rootRef = srcRef 1
        ∧ d.clk.srcReady 2 = true ∧ d.clk.started = true ∧ d.clk.fioRdy = true ∧ d.clk.rootRef ≠ 2 ∧ d.clk.pllRef d.clk.standby = 2
        ∧ d.clk.pllReady d.clk.standby = true ∧ d.clk.fioEn = true ∧ d.clk.x0En = true ∧ d.clk.x1En = true ∧ (true && d.clk.fioRdy) = true)
    ∧ (∀ d ∈ [clked (fun c => { c with pllbRdy := false, x1Rdy := false, fioRdy := true })], d.clk.pllReady 1 = false ∧ d.clk.srcReady 1 = false
        ∧ d.clk.pllReady d.clk.standby = false)
    ∧ (∀ d ∈ [clked (fun c => { c with refA := 2, fioEn := false })], d.clk.rootRef = 2 ∧ d.clk.fioEn = false)
    ∧ (∀ d ∈ [clked (fun c => { c with hold := true, pllbRdy := false })], d.clk.srcReady (d.clk.pllRef 1) = true ∧ d.clk.hold = true ∧ 1 = d.clk.standby
        ∧ d.clk.pllRef 1 = 2 ∧ d.pwr.pfLatched = false)
    ∧ (∀ d ∈ [clked (fun c => { c with started := false })], d.pins.pwrok = true ∧ d.clk.started = false)
    ∧ (∀ st ∈ [GateState.running, .draining, .gated, .waking], ((gated st).gate 40).st = st)
    ∧ (clked id).cfgv 0x00B 3 ≠ 0
    ∧ (∀ d ∈ [{ gated .running with cfg := { CfgSt.init with applied := [(cfgId 0x00B 3, 0)] } }], d.cfgv 0x00B 3 = 0 ∧ (d.gate 40).st = .running) := by
  (repeat' apply And.intro) <;> decide +kernel

/-- Sensor 1 with samples, a level, and a die reading. -/
def warms (samples : List Int) (bad good lvl : Nat) (fault : Bool) : Dev :=
  { d0 with thm := { ThmSt.init with sensors := [(1, { Sensor.init with samples := samples, bad := bad, good := good, fault := fault })], level := lvl } }

theorem wit_Temperatures :
    (∀ d ∈ [warms [0] 3 0 0 false], d.pwr.standby = false ∧ (d.sensor 1).samples.length < 8 ∧ 3 ≤ (d.sensor 1).bad)
    ∧ (warms (List.replicate 8 0) 0 0 0 false).sensor 1 = { Sensor.init with samples := List.replicate 8 0 }
    ∧ (∀ g ∈ [999, 1000], ((warms [0] 0 g 0 true).sensor 1).good = g)
    ∧ (warms [1000] 0 0 3 false).threshold 3 ≤ (warms [1000] 0 0 3 false).thm.compositeOf
    ∧ (∀ l ∈ [0, 1, 2, 3], ∀ d ∈ [warms [0] 0 0 l false], d.thm.level = l ∧ (∀ n ∈ [1, 2, 3], d.thm.compositeOf < d.threshold n) ∧ d.thm.allIgnored = false
        ∧ (0 < l → d.thm.compositeOf < d.threshold l - (d.cfgv 0x013 4 : Int) * 8))
    ∧ (warms [0] 0 0 0 true).thm.allIgnored = true
    ∧ (0 : Int) < (d0.cfgv 0x013 5 : Int) - 3 := by
  (repeat' apply And.intro) <;> decide +kernel

/-! ### Statements about the Walk ring and management -/

/-- Characters of a frame for a destination from a source. -/
def frameTo (dest src : Nat) : List (BitVec 10) := frameChars (frameBytes dest src [])
/-- Station 9 on the ring, with captured frames and state. -/
def joinedDev (n : Nat) (standby : Bool) (f : WalkSt → WalkSt) : Dev :=
  { d0 with pins := { PinSt.init with pwrok := true, walkAddr := 9 }, pwr := { PwrSt.init with standby := standby },
            walk := f { WalkSt.init with joined := true, rx := List.replicate n { ok := true, station := 3, packet := [] } } }

theorem wit_WalkRing :
    (∀ n ∈ [0, 2], ∀ b ∈ [false, true], ∀ d ∈ [joinedDev n b id], d.walk.joined = true ∧ d.pwr.standby = b ∧ d.walk.rx.length = n ∧ d.station = 9)
    ∧ (∀ x ∈ [(9, 3), (4, 9), (4, 3), (0xFF, 3)], frameByte (frameTo x.1 x.2) 1 = some x.1 ∧ frameByte (frameTo x.1 x.2) 2 = some x.2)
    ∧ (∀ d ∈ [joinedDev 0 false (fun w => { w with probeAt := some 0 })], frameByte (frameTo 9 9) 1 = some d.station
        ∧ frameByte (frameTo 9 9) 2 = some d.station ∧ frameOk (frameTo 9 9) false = true ∧ frameByte (frameTo 9 9) 3 = some 0 ∧ d.walk.probeAt ≠ none)
    ∧ (∀ l ∈ [[], [[1]]], ∀ d ∈ [joinedDev 0 false (fun w => { w with tx := l })], d.walk.tx = l ∧ d.walkMayTx = true ∧ d.walk.probeAt = none)
    ∧ (∀ n ∈ [2, 3], ∀ d ∈ [joinedDev 0 false (fun w => { w with probeAt := some 0, probes := n })], d.walk.probeAt = some 0 ∧ d.walk.probes = n
        ∧ d.walkMayTx = true)
    ∧ (∀ d ∈ [joinedDev 0 false (fun w => { w with joined := false })], d.walk.joined = false ∧ d.pins.pwrok = true ∧ d.cfgv 0x00D 1 = 1 ∧ d.padOn 201 = true)
    ∧ d0.pins.pwrok = false
    ∧ (∀ b ∈ [false, true], (joinedDev 0 false (fun w => { w with i3c := b })).walk.i3c = b) := by
  (repeat' apply And.intro) <;> decide +kernel

/-- A device at a management level, its management path up, with messages waiting. -/
def manages (lv : Nat) (l : List MgmtMsg) : Dev :=
  { d0 with
    pins := { PinSt.init with pwrok := true, walkAddr := 9 }
    cores := if lv = 3 then [(1, runs 1 .v [])] else if lv = 2 then [(0, runs 0 .f [])] else []
    fold := { FoldSt.init with inReset := false, halted := true }
    walk := { WalkSt.init with msgs := l } }
/-- A message of a type with a body. -/
def aMsg (path : MPath) (mtype : Nat) (body : Bytes) : MgmtMsg := { path := path, station := 3, src := 8, tag := 1, mtype := mtype, body := body }
/-- Bodies: an MCTP control request; an NVMe-MI request of a type and opcode. -/
def control (code op e : Nat) : Bytes := [0x80, BitVec.ofNat 8 code, BitVec.ofNat 8 op, BitVec.ofNat 8 e]
def mi (nmimt op : Nat) : Bytes := [0, BitVec.ofNat 8 (8 * nmimt), 0, 0, BitVec.ofNat 8 op, 0, 0, 0]

theorem wit_ManagementMessages :
    (∀ t ∈ [0, 1, 4], ∀ b ∈ [([1, 0, 8, 0xC1, BitVec.ofNat 8 t] ++ (if t = 4 then (mi 1 0).drop 1 else control 2 0 0) : Bytes)],
      ∀ d ∈ [{ manages 3 [] with walk := { WalkSt.init with eidI3c := 7 } }], d.pwr.standby = false ∧ d.padOn 201 = true ∧ 5 ≤ b.length ∧ leAt b 0 1 % 16 = 1
        ∧ leAt b 1 1 = 0 ∧ bitOf (leAt b 3 1) 7 = true ∧ bitOf (leAt b 3 1) 6 = true ∧ b.length ≤ 4228 ∧ d.walk.msgs = [] ∧ leAt b 4 1 % 128 = t
        ∧ (t ≠ 1 → (aMsg .i3c t (if t = 4 then b.drop 4 else b.drop 5)).unserved = false))
    ∧ (∀ d ∈ [{ manages 3 [] with walk := { WalkSt.init with rx := [{ ok := false, station := 3, packet := [] }] } }], d.pwr.standby = false
        ∧ d.padOn 201 = true ∧ d.walk.rx = [{ ok := false, station := 3, packet := [] }] ∧ d.walk.msgs = [])
    ∧ (∀ c ∈ [1, 2, 3, 4, 5], ∀ o ∈ [0, 2], NextControl (manages 3 [aMsg .walk 0 (control c o 7)]).sweep (aMsg .walk 0 (control c o 7)) c)
    ∧ (∀ c ∈ [0, 1, 2, 3, 4, 5, 0xC0, 0xC1], ∀ lv ∈ [1, 2, 3], NextMi (manages lv [aMsg .i3c 4 (mi 1 c)]).sweep (aMsg .i3c 4 (mi 1 c)) c
        ∧ (manages lv [aMsg .i3c 4 (mi 1 c)]).sweep.mgmtLevel = lv)
    ∧ (∀ d ∈ [(manages 3 [aMsg .i3c 4 (mi 1 0xC0)]).sweep], d.cfgv 0x00A 3 ≠ 0 ∧ d.enabledCtrls = [])
    ∧ (∀ c ∈ [2, 9], ∀ d ∈ [(manages 3 [aMsg .i3c 4 (mi 2 c)]).sweep], d.nextMsg = some (aMsg .i3c 4 (mi 2 c)) ∧ d.lcTunnel (aMsg .i3c 4 (mi 2 c)) = false
        ∧ d.mgmtLevel = 3)
    ∧ (manages 3 []).walk.i3c = false ∧ (manages 3 []).mgmtLevel ≠ 0
    ∧ (∀ op ∈ [0x1D, 0x1E], ∀ d ∈ [{ linked [cmd 0 op []] ctrlUp with cores := [(1, runs 1 .v [])] }], d.pen 0 = some (cmd 0 op [])
        ∧ d.adminReady 0 op = true ∧ d.moversHalted 0 = false ∧ (d.core 1).run ≠ .inReset) := by
  unfold NextControl NextMi; (repeat' apply And.intro) <;> decide +kernel

/-- A Decommissioned device with messages that wait. -/
def gone (l : List MgmtMsg) : Dev :=
  { manages 1 l with fold := { (manages 1 l).fold with otp := { (manages 1 l).fold.otp with decom := 0xFF }, lcValid := true } }

theorem wit_SpdmResponder :
    (∀ c ∈ [0x84, 0xE1, 0xE3, 0x81, 0x82, 0x83, 0xE0, 0x86, 0x85], leAt ([0x12, BitVec.ofNat 8 c, 0, 0] : Bytes) 1 1 = c
      ∧ (∀ lv ∈ [1, 2, 3], ∀ p ∈ [MPath.walk, .i3c], ∀ d ∈ [(manages lv [aMsg p 5 [0x12, BitVec.ofNat 8 c, 0, 0]]).sweep],
          d.nextMsg = some (aMsg p 5 [0x12, BitVec.ofNat 8 c, 0, 0]) ∧ d.mgmtLevel = lv ∧ d.fold.lc ≠ 3)
      ∧ (∀ d ∈ [(gone [aMsg .walk 5 [0x12, BitVec.ofNat 8 c, 0, 0]]).sweep],
          d.nextMsg = some (aMsg .walk 5 [0x12, BitVec.ofNat 8 c, 0, 0]) ∧ d.mgmtLevel = 1 ∧ d.fold.lc = 3)
      ∧ SpdmRow (c, if c = 0x84 then fun v m => .getVersion v m else if c = 0xE1 then fun v m => .getCapabilities v m
          else if c = 0xE3 then fun v m => .negotiateAlgorithms v m else if c = 0x81 then fun v m => .getDigests v m
          else if c = 0x82 then fun v m => .getCertificate v m else if c = 0x83 then fun v m => .challenge v m
          else if c = 0xE0 then fun v m => .getMeasurements v m else if c = 0x86 then fun v m => .chunkGet v m else fun v m => .chunkSend v m))
    ∧ (∀ d ∈ [{ secures 0x81 0xE8 0 16 3 none with cores := [(0, runs 0 .f [])] }], d.sweep.pen 0 =
          some (cmd 0 0x81 [(10, 0xE8 * 2 ^ 24), (11, 16)]) ∧ d.sweep.adminReady 0 0x81 = true ∧ d.sweep.secp 0 = 0xE8 ∧ d.sweep.fold.inReset = false
        ∧ (d.sweep.core 0).released = true)
    ∧ (∀ x ∈ [[], [5]], ∀ d ∈ [{ d0 with spdm := { d0.spdm with displaced := x } }], d.spdm.displaced.contains 5 = (x == [5])
        ∧ (d.spdm.conn 5).phase = 0) := by
  unfold SpdmRow
  refine ⟨fun c hc => ?_, by decide +kernel, by decide +kernel⟩
  simp only [List.mem_cons, List.not_mem_nil, or_false] at hc
  rcases hc with rfl | rfl | rfl | rfl | rfl | rfl | rfl | rfl | rfl <;> exact ⟨by decide +kernel, by decide +kernel, by decide +kernel, by simp⟩

/-! ### Statements about the dies -/

/-- An operation of die 0 with a stage, flags, and changes. -/
def dop (op flags : Nat) (st : OpStage) (f : DieOp → DieOp) : DieOp :=
  f { anOp op 0 with desc := { (anOp op 0).desc with flags := flags, len := 4096 }, stage := st }
/-- Channel 0 up with operations of die 0, its AES die seeded. -/
def diesOf (l : List DieOp) : Dev :=
  { channel0 true 0 with
    now := 10 ^ 9
    media := { (channel0 true 0).media with dies := [(0, { DieSt.init with wl := 4, nblocks := 8, ops := l })] }
    aes := { dies := [(0, { AesDie.init with rngOk := true, halted := false, starved := false })], misses := [], stalls := [] } }
/-- A core and a Drover that run, and state of a Drover's rings. -/
def droverDev (d : Dev) (f : DrvSt → DrvSt) : Dev :=
  { d with cores := [(9, runs 9 .v [])], media := { d.media with drvs := [(0, f DrvSt.init)] } }
/-- A work item that erases a block group of a die, and the ring that holds it. -/
def eraseItem (die : Nat) : Bytes := leBytes 1 4 ++ zeros 1 ++ leBytes 2 die ++ zeros 6 ++ leBytes 1 15 ++ zeros 53
def worked (up : Bool) (n die : Nat) : Dev :=
  droverDev { channel0 up n with mem := memSetRun (workAddr 0 0) (eraseItem die) [] } (fun v => { v with workTail := 1 })
/-- A program of a work item whose data has been transferred. -/
def aJob : WorkJob := { item := { WorkItem.ofBytes (eraseItem 0) with kind := 2, ticket := 5 }, kind := .unit 5 0 0, epoch := none, posted := true, released := false }

theorem wit_DieOperations :
    (∀ op ∈ [1, 2, 4], ∀ d ∈ [diesOf [dop op 0 .queued id]], FrontOp d 0 (dop op 0 .queued id) [] ∧ d.mayStart 0 (dop op 0 .queued id) = true)
    ∧ (∀ op ∈ [2, 4], ∀ d ∈ [diesOf [dop op 0 .queued id, dop 1 0 .queued id]], FrontOp d 0 (dop op 0 .queued id) [dop 1 0 .queued id]
        ∧ (dop 1 0 .queued id).desc.isRead = true ∧ (dop op 0 .queued id).isPE = true ∧ (dop op 0 .queued id).bypassed < d.cfgv 0x100 6
        ∧ d.mayStart 0 (dop 1 0 .queued id) = true ∧ d.mayStart 0 (dop op 0 .queued id) = true)
    ∧ (∀ op ∈ [1, 2, 3, 4], ∀ t ∈ [false, true], ∀ o ∈ [dop op 0 .running (fun o => { o with transferred := t })], ∀ d ∈ [diesOf [o]],
        FrontOp d 0 o [] ∧ o.active = true ∧ o.desc.isProgram = (op == 2 || op == 3) ∧ o.desc.ldpcBypass = false ∧ o.desc.len = 4096 ∧ o.desc.rlset = 0
        ∧ 1 ≤ d.cfgv 0x100 4)
    ∧ (∀ op ∈ [2, 4], ∀ o ∈ [dop op 8 .running id], ∀ d ∈ [diesOf [o, dop 1 0 .queued id]], o.desc.suspendable = true
        ∧ FrontOp d 0 o [dop 1 0 .queued id] ∧ o.startedAt + d.cfgv 0x100 (if o.desc.isProgram then 7 else 8) * 1000 ≤ d.now ∧ d.maySuspend 0 o = true)
    ∧ (∀ st ∈ [OpStage.suspending, .suspended], ∀ d ∈ [diesOf [dop 2 0 st id]], FrontOp d 0 (dop 2 0 st id) [] ∧ d.suspendedRead 0 (dop 2 0 st id) = none)
    ∧ (∀ d ∈ [{ d0 with media := { d0.media with chans := [(0, { ChanSt.init with release := [7] })] } }], (d.chan 0).release = [7])
    ∧ (∀ d ∈ [droverDev d0 id], (d.chan 0).up = false ∧ (d.core (droverOf 0)).released = true ∧ d.padOn (corePad (droverOf 0)) = true)
    ∧ (∀ m ∈ [2, 7], ∀ d ∈ [{ channel0 true 0 with
            media := { (channel0 true 0).media with chans := [(0, { ChanSt.init with up := true, onfiRate := m })] } }], (d.chan 0).up = true
        ∧ (d.trainRates 0 = if m = 7 then [7, 6, 5, 4, 3] else [2]))
    ∧ (∀ x ∈ [(true, 0, 0), (true, 8, 1), (false, 0, 3)], ∀ d ∈ [worked x.1 x.2.1 0], (d.core 9).released = true ∧ d.padOn (corePad 9) = true
        ∧ (d.drv 0).quiesced = false ∧ d.pwr.pfEvt = false ∧ (d.drv 0).held = [] ∧ (d.drv 0).workHead ≠ (d.drv 0).workTail
        ∧ workInvalid (d.bytes (workAddr 0 0) 64) = false ∧ d.markedRun (workAddr 0 0) 64 = false
        ∧ d.fopStatus 0 ((WorkItem.ofBytes (d.bytes (workAddr 0 0) 64)).fop false) = x.2.2)
    ∧ (∀ o ∈ [dop 2 0 .running (fun o => { o with origin := .work 5, transferred := true })],
        ∀ d ∈ [{ diesOf [o] with media := { (diesOf [o]).media with jobs := [aJob] } }], d.media.jobs = [aJob] ∧ (d.drv 0).early = [] ∧ d.dieOps 0 = [o]
          ∧ o.desc.isProgram = true) := by
  unfold FrontOp; (repeat' apply And.intro) <;> decide +kernel

/-! ### Statements about the droves, the map cache and collection -/

/-- n channels, spread over the four flash dies, in rising order. -/
def spread {α : Type} (n : Nat) (f : Nat → α) : List α := (List.range 4).flatMap (fun q => (List.range ((n + 3 - q) / 4)).map (fun i => f (32 * q + i)))
/-- n channels of one die of 20 block groups each, namespace 1 present, with drove state. -/
def wide (n : Nat) (f : DroveSt → DroveSt) : Dev :=
  { linked [] ctrlUp with
    nvme := { (linked [] ctrlUp).nvme with ns := [(1, ns1)] }
    media := { d0.media with chans := spread n (fun c => (c, { ChanSt.init with up := true, diemap := 1 })),
                             dies := spread n (fun c => (32 * c, { DieSt.init with wl := 4, nblocks := 80 })) }
    cfg := { CfgSt.init with applied := [(cfgId 7 5, 24)] }
    drove := f DroveSt.init }
/-- Drove 5 with a state and changes. -/
def drv5 (st : Nat) (f : Drove → Drove) (s : DroveSt) : DroveSt := { s with droves := [(5, f { aDrove [0, 1, 30] [] with state := st })] }
/-- A failed parity unit of drove 5, and the drove that waits for it. -/
def failedUnit : UnitSt := { UnitSt.new 5 0 30 64 with folded := true, issued := true, ticket := none }
def parityFails (x : Drove) : Drove :=
  { x with failedMembers := [(30, 4)],
           members := [(0, { die := 0, grp := 1, mstate := 1, endRow := 3 }), (30, { die := 32, grp := 1, mstate := 2, endRow := 3 })] }

/-- A lamb slot of a drove that is gone. -/
def aLamb (r : Bool) : LambSlot := { serial := 9, row := 0, gen := 0, parity := [], spares := [], headers := [], released := r }

theorem wit_DrovesAndJournal :
    (∀ n ∈ [9, 11], ∀ d ∈ [wide n id], d.mayForm 0 .host = true
      ∧ (8 ≤ (d.selectMembers (d.streamGroup 0) (d.cfgv 7 4 + (d.cfgv 7 2 + 1)) false).length - (d.cfgv 7 2 + 1) ↔ n = 11))
    ∧ (wide 9 (drv5 2 id)).mayForm 0 .host = false
    ∧ (∀ st ∈ [1, 2, 3, 4], ∀ d ∈ [wide 3 (drv5 st id)], (d.drv? 5).any (fun x => x.serial == 5 && x.state == st) = true ∧ d.lambFree [] ≠ none
        ∧ d.drove.stopped = false ∧ (∀ u ∈ d.drove.units, u.serial = 5 → u.success = true))
    ∧ (∀ b ∈ [false, true], ∀ d ∈ [wide 3 (drv5 2 (fun x => { x with rowDone := if b then [0, 1] else [0] }))],
        (d.drv? 5).any (fun x => x.state == 2 && x.active == [0, 1] && decide (∀ i ∈ x.active, i ∈ x.rowDone) == b) = true
        ∧ (b = true → (d.drv? 5).any (fun x => (d.lambFree ((x.dataIdx ++ x.parityIdx).map (fun i => (x.member i).die / 32))).isSome) = true))
    ∧ (∀ d ∈ [wide 3 (fun s => { drv5 2 parityFails s with units := [failedUnit] })],
        (d.drv? 5).any (fun x => x.failedMembers == [(30, 4)] && (x.member 30).mstate == 2 && decide (x.excl.length < 3)
          && x.dataIdx.all (fun j => (x.member j).mstate != 3 && (x.member j).mstate != 4)) = true
        ∧ d.drove.units.filter (fun v => v.serial == 5 && v.member == 30 && v.failed) = [failedUnit])
    ∧ (∀ r ∈ [false, true], ∀ d ∈ [wide 3 (fun s => { s with lamb := [(0, aLamb r)] })],
        d.lambBlock 0 = some (0, 2) ∧ 0 < d.lambBlocks
        ∧ d.drove.lamb.filter (fun e => decide (d.lambPer ≠ 0) && e.1 / d.lambPer == 0) = d.drove.lamb ∧ d.drove.stopped = false)
    ∧ (∀ x ∈ [([], []), ([(2, 0)], []), ([(2, 0)], [({ type := 1, reason := 0, die := 0, grp := 2, slc := true, count := 0, serial := 0, createdAt := 0 } : ElogRec)])],
        ∀ d ∈ [wide 3 (fun s => { s with lamb := [(0, aLamb true)], begunBlks := x.1, elog := { s.elog with pending := x.2 } })],
          d.blkState 0 2 ≠ 4 ∧ (d.drove.begunBlks.get? 2 = none ↔ x.1 = []) ∧ d.begun 0 2 = (x.1 != [] && x.2 == [])
          ∧ (∀ e ∈ d.drove.lamb, e.2.released = true ∧ e.2.headers = []) ∧ ∀ e ∈ d.drove.droves, e.2.hdrOnFlash = true)
    ∧ (∀ r ∈ [0, 1, 2], ∀ d ∈ [{ wide 3 id with mapc := { MapcSt.init with rbPhase := r } }], d.mapc.rbPhase = r ∧ d.drove.fixed = none
        ∧ d.ilu.newestDesc = none)
    ∧ (∀ b ∈ [false, true], ∀ d ∈ [wide 3 (fun s => { s with replayDone := b })], d.drove.replayDone = b ∧ d.drove.stopped = false
        ∧ d.drove.replayUnits = []) := by
  (repeat' apply And.intro) <;> decide +kernel

/-- The map cache with a state, lines and repair slots, DRAM in service. -/
def caches (st : Nat) (l : Tab MapLine) (r : Tab RepairSlot) : Dev :=
  { linked [] ctrlUp with mapc := { MapcSt.init with enable := st == 1, state := st, lines := l, repairs := r } }
/-- A line of 160 bytes in a state. -/
def aLine (n : Nat) (st : LineState) (next : Option Nat) : MapLine := { line := n, st := st, data := zeros 160, marks := [], next := next, prefetch := false }
/-- The way that line 3 may use first. -/
def way3 : Nat := (waysOf (setOf 3)).headD 0

theorem wit_MapCache :
    (∀ st ∈ [0, 1], ∀ l ∈ [LineState.clean, .dirty, .filling, .evicting], ∀ d ∈ [caches st [(way3, aLine 3 l (some 9))] []], d.mapc.state = st
      ∧ d.diuOk 100 = true ∧ (∀ o ∈ d.mapc.waiting, lineOf o.diu ≠ lineOf 100) ∧ d.underRepair 100 = false
      ∧ (∀ w ∈ entryWords 100, d.marked (lineAddr (lineOf 100) + 8 * w) = false) ∧ ofLe (d.bytes (entryAddr 100) 5) = 0
      ∧ d.setOff (setOf (lineOf 100)) = false ∧ d.findLine (lineOf 100) = some way3 ∧ (d.way way3).st = l ∧ (d.way way3).marks = []
      ∧ d.mapc.waiting = [] ∧ d.dramMarks 3 = [] ∧ (d.way way3).next = some 9)
    ∧ (∀ st ∈ [0, 1, 2], ∀ d ∈ [caches st [] []], d.mapc.state = st ∧ d.mapc.lines = [] ∧ d.mapc.lines.wf = true ∧ d.mapc.waiting = [])
    ∧ ((caches 2 [(way3, aLine 3 .dirty none)] []).way way3).next = none
    ∧ (∀ d ∈ [{ caches 0 [] [] with mem := memSetRun (entryAddr 100) (leBytes 5 (mapEntry 1 0 77)) [] }],
        entNames (ofLe (d.bytes (entryAddr 100) 5)) 77 = true ∧ entNames (ofLe (d.bytes (entryAddr 100) 5)) 78 = false)
    ∧ (∀ b ∈ [false, true], ∀ d ∈ [caches 1 [] [(2, { valid := b, line := 0, word := 0 })]], (d.repairSlot 2).valid = b ∧ d.mapc.waiting = []) := by
  (repeat' apply And.intro) <;> decide +kernel

/-- A collection cycle of drove 5 at a step. -/
def aCycle (step : Nat) : GcCycle := { group := 0, victim := 5, step := step, copies := [], dests := [5], epoch := 0, wear := false }
/-- An erase-log record. -/
def anElog (t : Nat) : ElogRec := { type := 1, reason := 0, die := 0, grp := 0, slc := false, count := 0, serial := 0, createdAt := t }
/-- Block state of block group 9 of die 0. -/
def block9 (st : Nat) (f : DroveSt → DroveSt) : Dev :=
  { wide 3 f with mem := memSetRun ((wide 3 id).blkAddr 0 9) [BitVec.ofNat 8 st] [] }

/-- A WEAR_SPREAD of 100, and erases of one block group. -/
def worn (e : Nat) : Dev :=
  { wide 3 id with
    cfg := { CfgSt.init with applied := [(cfgId 7 5, 24), (cfgId 0x011 1, 100)] }
    mem := memSetRun ((wide 3 id).blkAddr 0 12 + 12) [BitVec.ofNat 8 e] [] }

theorem wit_Collection :
    (∀ st ∈ [5, 6], ∀ d ∈ [wide 3 (drv5 st id)], d.drove.stopped = false ∧ d.mapc.rbPhase = 0 ∧ d.cyclesOn = true ∧ d.drove.cycles = []
      ∧ (d.chooseVictim 0).isSome = (st == 6))
    ∧ (wide 3 (fun s => { s with stopped := true })).drove.stopped = true
    ∧ (∀ st ∈ [2, 5], ∀ n ∈ [2, 3, 4, 6], ∀ d ∈ [wide 3 (fun s => { drv5 st (fun x => { x with w := 0 }) s with cycles := [aCycle n] })], d.cycle? 5 = some (aCycle n)
        ∧ (d.drv? 5).any (fun x => x.serial == 5 && x.state == st && d.liveEntries [] x == [] && d.liveTombs x == [] && d.validSum x == 0
            && (x.dataIdx ++ x.parityIdx).all (fun i => d.blkState (x.member i).die (x.member i).grp == 0)) = true
        ∧ d.drove.stopped = false ∧ d.epochDrained 0 = true ∧ d.repairsUsed = 0)
    ∧ (∀ n ∈ [0, 1], ∀ d ∈ [wide 3 (fun s => { s with epochCounts := [(0, n)] })], d.epochCount 0 = n ∧ d.epochDrained 0 = (n == 0)
        ∧ d.epochCount (d.drove.epoch + 1) = 0)
    ∧ (∀ d ∈ [wide 3 (fun s => { s with epochCounts := [(1, 1)] })], d.epochCount (d.drove.epoch + 1) ≠ 0)
    ∧ (∀ d ∈ [{ wide 3 (fun s => { s with elog := { s.elog with pending := [anElog 0] } }) with now := 10 ^ 15 }], d.drove.stopped = false ∧ d.elogDue = true
        ∧ (d.elogProgram (fun copy => elogPage 1 copy d.drove.elog.seq d.drove.elog.base 1 0 0 0 0 ((anElog 0).toBytes))).2 = true)
    ∧ (wide 3 id).elogDue = false ∧ (wide 3 id).drove.elog.census = false ∧ (wide 3 id).drove.elog.pending = []
    ∧ (∀ b ∈ [[], [(9, 0)]], ∀ d ∈ [block9 1 (fun s => { s with begunBlks := b })], d.drove.stopped = false ∧ d.diePresent 0 = true ∧ d.dieFailed 0 = false
        ∧ 9 < d.dieGroups 0 ∧ d.blkState 0 9 = 1 ∧ d.media.jobs = [] ∧ d.drove.begunBlks = b ∧ d.blkNamed 0 9 = false ∧ d.begun 0 9 = (b != []))
    ∧ (∀ b ∈ [[], [(9, 5)]], ∀ d ∈ [block9 1 (fun s => { s with retireMarks := b })], d.drove.retireMarks = b ∧ d.blkState 0 9 ≠ 4 ∧ d.drove.stopped = false
        ∧ d.ownerOf 0 9 = none ∧ d.dieFailed 0 = false ∧ d.drove.elog.pending = [])
    ∧ (∀ e ∈ [0, 75, 90, 200], ∀ d ∈ [worn e], d.cfgv 0x011 1 = 100 ∧ d.wearSpread 0 = e) := by
  (repeat' apply And.intro) <;> decide +kernel

/-- Channel 0 with a die that is lost, a Fold that can append, and declarations that wait. -/
def declares (lost : Bool) (auto : Nat) (pend : List Nat) : Dev :=
  { ownedDev [] with
    media := { d0.media with chans := [(0, { ChanSt.init with up := true, diemap := 1 })],
                             dies := [(0, { DieSt.init with wl := 4, nblocks := 80, lost := lost })] }
    cfg := { CfgSt.init with applied := [(cfgId 0x014 1, BitVec.ofNat 64 auto)] }
    drove := { DroveSt.init with declPending := pend } }
/-- A drove whose member 0 waits for a rebuild, a spare die on another channel, and passes. -/
def pooled (st auto : Nat) (f : DroveSt → DroveSt) : Dev :=
  { wide 3 (fun s => f (drv5 st memberFails s)) with
    cfg := { CfgSt.init with applied := [(cfgId 7 5, 24), (cfgId 0x014 0x10, BitVec.ofNat 64 auto), (cfgId 0x014 0x22, 2), (cfgId 0x014 0x140, 1)] } }
where
  memberFails (x : Drove) : Drove :=
    { x with members := [(0, { die := 0, grp := 1, mstate := 4, endRow := 0xFFFF }), (30, { die := 1024, grp := 1, mstate := 2, endRow := 0xFFFF })] }
def aPass (v : Bool) : RebuildPass := { serial := 5, member := 0, die := 2048, grp := 12, row := 4, verified := v }

theorem wit_MemberFailures :
    (∀ l ∈ [false, true], ∀ a ∈ [0, 1], ∀ p ∈ [[], [0]], ∀ d ∈ [declares l a p], d.declWanted 0 = (if l then 1 else 0)
      ∧ d.committed (cfgId 0x100 3) = 0 ∧ d.cfgv 0x014 1 = a ∧ d.drove.declPending = p ∧ d.dieLinkDown 0 = false)
    ∧ (∀ d ∈ [declares true 1 [0]], (d.ownCommit none [(cfgId 0x100 3, 1)] 0).2 = 0 ∧ (d.ownCommit none [(cfgId 0x100 3, 1)] 2).2 ≠ 0)
    ∧ (∀ d ∈ [declares true 1 []], ∀ e ∈ d.drove.droves, ∀ i ∈ e.2.dataIdx ++ e.2.parityIdx, (e.2.member i).die / 32 ≠ 0)
    ∧ (∀ a ∈ [0, 1], ∀ d ∈ [pooled 5 a id], d.drove.stopped = false ∧ d.rebuilds 0 = (a == 1) ∧ d.rebuildOn = true ∧ d.mapc.rbPhase = 0
        ∧ d.drove.passes = [] ∧ 0 < d.cfgv 0x014 0x22 ∧ d.nextRebuild 0 = d.drv? 5 ∧ (d.drv? 5).any (fun x => x.serial == 5 && x.group == 0) = true)
    ∧ (∀ v ∈ [false, true], ∀ d ∈ [pooled 5 1 (fun s => { s with passes := [aPass v] })], d.drove.passes = [aPass v] ∧ (d.drv (2048 / 128)).quiesced = false
        ∧ (d.drv? 5).any (fun x => decide (x.w ≤ 4)) = true ∧ d.lambFree [] ≠ none)
    ∧ (pooled 4 1 id).drv? 5 ≠ none
    ∧ (∀ b ∈ [false, true], ∀ d ∈ [{ d0 with cores := [(9, { runs 9 .v [] with e14 := b })] }], d.quiesceDroves 0 = []
        ∧ (∀ e ∈ d.media.dies, e.1 / 128 = 0 → e.2.ops = []) ∧ d.media.jobs = [] ∧ (d.core 9).e14 = b ∧ (d.drv 0).quiescing = false)
    ∧ (∀ d ∈ [{ d0 with media := { d0.media with drvs := [(0, { DrvSt.init with quiescing := true })] } }], (d.drv 0).quiescing = true
        ∧ (d.drv 0).quiesced = false ∧ d.quiesceDroves 0 = []) := by
  (repeat' apply And.intro) <;> decide +kernel

/-- A DRAM channel up, with changes. -/
def dramUp (f : DramChan → DramChan) : Dev :=
  { placer [] with dram := { (placer []).dram with chans := [(0, f { DramChan.init with up := true }), (1, { DramChan.init with up := true })] },
                   clk := { ClkSt.init with started := true } }

/-- A device with one unit in staging, whose only codeword holds user data, and the state of a staging bank and a DRAM channel. -/
def stagedOne (st : Nat) : Dev :=
  { dramUp id with drove := { (dramUp id).drove with units := [{ UnitSt.new 5 0 0 3 with cws := [(0, { padCw with spare := spareBytes 7 1 1 0 [] })] }] },
                   pwr := { (dramUp id).pwr with pads := if st = 0 then [] else [(185, st), (221, st)] } }
/-- The worked example of Table 12-15: an uncorrectable word of a staged unit marks its IU, which leaves staging as zeros with RADDLE set. -/
theorem test_staged_mark :
    ((stagedOne 0).markStaged (stagingBase + 4088)).drove.units.map (fun u => (u.markedIus 1, spTag (((u.raddled 1).cws.get padCw 0).spare))) = [([0], 64)]
      ∧ ((stagedOne 0).markStaged (stagingBase + 4096)).drove.units.map (fun u => u.markedIus 1) = [[]] := by decide +kernel

theorem wit_DramAndRegisters :
    (∀ b ∈ [false, true], ∀ d ∈ [dramUp (fun c => { c with up := b })], (d.dch 0).up = b ∧ dramBase + 4096 < dramBase + d.dramSize
      ∧ (dramDecode d.pins.dramCfg d.dram.order dramBase).ch = 0 ∧ d.pad 221 = 0 ∧ d.grazeOn = true ∧ (d.dch 0).due = false ∧ (d.dch 0).failed = false
      ∧ (d.dch 0).busy = false ∧ (∀ e ∈ d.dram.chans, e.2.startQueued = false) ∧ 0 < dramChannels d.pins.dramCfg ∧ d.clk.started = true)
    ∧ (∃ c ∈ (dramUp id).dramPresent, ((dramUp id).dch c).up = true)
    ∧ (∀ d ∈ [dramUp (fun c => { c with due := true })], (d.dch 0).due = true ∧ ∀ e ∈ d.dram.chans, e.2.busy = false)
    ∧ (∀ b ∈ [false, true], ∀ d ∈ [{ dramUp id with integ := { IntegSt.init with sram := b, dram := b } }], d.pwr.standby = false ∧ d.pins.dramCfg < 6
        ∧ d.integ.sram = b ∧ d.integ.dram = b ∧ (∀ n ∈ d.dramPresent, (d.dch n).up = true))
    ∧ (∀ st ∈ [0, 1], ∀ d ∈ [stagedOne st], inStaging stagingBase 1 = true ∧ (d.stagedAt stagingBase).isSome = true
        ∧ d.pad (sramPad stagingBase) = st ∧ d.pad 221 = st ∧ d.grazeOn = true)
    ∧ d0.clk.started = false
    ∧ (∀ b ∈ [false, true], ∀ d ∈ [{ d0 with integ := { IntegSt.init with passStart := some 7, nandLate := b } }], d.integ.passStart = some 7
        ∧ d.integ.nandLate = b)
    ∧ (∀ d ∈ [one 1 .v []], (d.core 1).released = true ∧ d.reachesReg 1 .v 0x20050000 = true ∧ (d.regGet 1 .v 0x20050000).isSome = true
        ∧ d.reachesReg 1 .v 0x20010000 = false)
    ∧ (d0.core 1).released = false := by
  (repeat' apply And.intro) <;> decide +kernel

theorem wit_MemoryStaysCanonical : memoryCanonical State.reset ∧ ∃ t, step State.reset = .next t := ⟨rfl, _, rfl⟩

/-! ### What WellFormed refuses -/

theorem smoke_commandFetch : (Instr.commandFetch 0 1 (List.replicate 15 0) []).wellFormed = false
    ∧ (Instr.commandFetch 0 1 (List.replicate 16 0) []).wellFormed = true := by decide +kernel
theorem smoke_commandFetch_ranges : (Instr.commandFetch 0 1 (List.replicate 16 0) (zeros 4097)).wellFormed = false := by decide +kernel
theorem smoke_linkTrained : (Instr.linkTrained 0 0 4).wellFormed = false ∧ (Instr.linkTrained 0 5 4).wellFormed = false
    ∧ (Instr.linkTrained 0 4 3).wellFormed = false ∧ (Instr.linkTrained 0 4 16).wellFormed = true := by decide +kernel
theorem smoke_shutdownNotification : (Instr.shutdownNotification 0 0).wellFormed = false ∧ (Instr.shutdownNotification 0 3).wellFormed = false
    ∧ (Instr.shutdownNotification 0 2).wellFormed = true := by decide +kernel
theorem smoke_basicManagementCommand : (Instr.basicManagementCommand 1).wellFormed = false
    ∧ (Instr.basicManagementCommand 8).wellFormed = true := by decide +kernel
theorem smoke_generationRelease : (Instr.generationRelease 0 1).wellFormed = false ∧ (Instr.generationRelease 1025 1).wellFormed = false
    ∧ (Instr.generationRelease 1024 1).wellFormed = true := by decide +kernel
/-- A die that answered on an index of its channel. -/
def aDie (i : Fin 32) : DieInfo := { index := i, ready := true, supported := true, ident := 1, wordLines := 4, blocks := 8, onfi := 7, ext := 0 }
theorem smoke_channelBringUp : (Instr.channelBringUp 0 [aDie 3, aDie 3] 0).wellFormed = false
    ∧ (Instr.channelBringUp 0 [aDie 3, aDie 4] 0).wellFormed = true := by decide +kernel
theorem smoke_dataPointerWalkEnd (x : SglDesc) : (Instr.dataPointerWalkEnd 0 (.sgl [List.replicate 257 x] [])).wellFormed = false
    ∧ (Instr.dataPointerWalkEnd 0 (.sgl [] [x, x])).wellFormed = false ∧ (Instr.dataPointerWalkEnd 0 (.sgl [[x]] [x])).wellFormed = true :=
  ⟨rfl, rfl, rfl⟩
theorem smoke_mctpPacket : (Instr.mctpPacket (.i3c (zeros 3))).wellFormed = false ∧ (Instr.mctpPacket (.i3c (zeros 69))).wellFormed = false
    ∧ (Instr.mctpPacket (.i3c (zeros 68))).wellFormed = true := by decide +kernel
theorem smoke_walkFrame : (Instr.walkFrameReceive (List.replicate 76 0) false).wellFormed = false
    ∧ (Instr.walkFrameRemove (List.replicate 76 0) false).wellFormed = false ∧ (Instr.walkFrameRemove (List.replicate 75 0) false).wellFormed = true := by
  decide +kernel
theorem smoke_wakePattern : (Instr.wakePattern 0 [20, 20, 20, 20]).wellFormed = false
    ∧ (Instr.wakePattern 0 [20, 20, 20, 20, 20]).wellFormed = true := by decide +kernel
theorem smoke_tallyAppend : (Instr.tallyAppend { Entry.blank 256 with detail := 0 } 0).wellFormed = false
    ∧ (Instr.tallyAppend { Entry.blank 5 with cntlid := 65536 } 0).wellFormed = false ∧ (Instr.tallyAppend (Entry.blank 5) 0).wellFormed = true := by
  decide +kernel
theorem smoke_tcgMethod : (Instr.tcgMethod 0 (.installKek 0 (zeros 31))).wellFormed = false
    ∧ (Instr.tcgMethod 0 (.injectKey 1 0 (zeros 71))).wellFormed = false ∧ (Instr.tcgMethod 0 (.authenticate 0 [])).wellFormed = false
    ∧ (Instr.tcgMethod 0 (.authenticate 14 [])).wellFormed = false ∧ (Instr.tcgMethod 0 (.setPin 0 [])).wellFormed = false
    ∧ (Instr.tcgMethod 0 (.enableAuthority 0 true)).wellFormed = false ∧ (Instr.tcgMethod 0 (.startSession 0 14 [])).wellFormed = false
    ∧ (Instr.tcgMethod 0 (.startSession 0 0 [])).wellFormed = true ∧ (Instr.tcgMethod 0 (.installKek 0 (zeros 32))).wellFormed = true := by decide +kernel
theorem smoke_provisioning : (Instr.provisioning (zeros 17) [] [] [] [] []).wellFormed = false
    ∧ (Instr.provisioning [] (zeros 193) [] [] [] []).wellFormed = false ∧ (Instr.provisioning [] [] (zeros 1025) [] [] []).wellFormed = false
    ∧ (Instr.provisioning (zeros 16) (zeros 192) (zeros 1024) [] [] []).wellFormed = true := by decide +kernel

/-! ### One step on small states -/

/-- The device after a command, put to a test. -/
def after (c : Instr) (d : Dev) (p : Dev → Bool) : Bool :=
  match exec c (st d) with
  | .next s => p s.dev && s.pending == []
  | _ => false
/-- Register 3 of core 1 after an instruction, and the next pc. -/
def puts (c : Instr) (d : Dev) (v : Word) : Bool := after c d (fun e => (e.core 1).reg 3 == v && (e.core 1).pc == (d.core 1).pc + 8)
/-- Core 1 with g1 and g2. -/
def r12 (x y : Word) : Dev := one 1 .v [(1, x), (2, y)]

theorem test_no_words : decodeTableWord 64 0x9848000000000000 = none := rfl
theorem test_add_wraps : puts (.add 1 (fl 3 1 2 0)) (r12 (-1) 2) 1 = true := by decide +kernel
theorem test_sub_borrow : puts (.sub 1 (fl 3 1 2 0)) (r12 1 2) (-1) = true := by decide +kernel
theorem test_sra_keeps_sign : puts (.sra 1 (fl 3 1 2 0)) (r12 (-16) 66) (-4) = true := by decide +kernel
theorem test_slt_signed : puts (.slt 1 (fl 3 1 2 0)) (r12 (-1) 1) 1 = true := by decide +kernel
theorem test_sltu_unsigned : puts (.sltu 1 (fl 3 1 2 0)) (r12 (-1) 1) 0 = true := by decide +kernel
theorem test_mulh_signed : puts (.mulh 1 (fl 3 1 2 0)) (r12 (-1) 2) (-1) = true := by decide +kernel
theorem test_mulhu_unsigned : puts (.mulhu 1 (fl 3 1 2 0)) (r12 (-1) 2) 1 = true := by decide +kernel
theorem test_div_by_zero : puts (.div 1 (fl 3 1 2 0)) (r12 7 0) (-1) = true := by decide +kernel
theorem test_div_overflow : puts (.div 1 (fl 3 1 2 0)) (r12 0x8000000000000000 (-1)) 0x8000000000000000 = true := by decide +kernel
theorem test_rem_sign : puts (.rem 1 (fl 3 1 2 0)) (r12 (-7) 2) (-1) = true := by decide +kernel
theorem test_remu_zero : puts (.remu 1 (fl 3 1 2 0)) (r12 7 0) 7 = true := by decide +kernel
theorem test_clz : puts (.clz 1 (fl 3 1 0 0)) (r12 1 0) 63 = true := by decide +kernel
theorem test_ctz_zero : puts (.ctz 1 (fl 3 1 0 0)) (r12 0 0) 64 = true := by decide +kernel
theorem test_bswap : puts (.bswap 1 (fl 3 1 0 0)) (r12 0x0102030405060708 0) 0x0807060504030201 = true := by decide +kernel
theorem test_addi_negative : puts (.addi 1 (fl 3 1 0 (-5))) (r12 3 0) (-2) = true := by decide +kernel
theorem test_g0_discards : after (.addi 1 (fl 0 1 0 5)) (r12 3 0) (fun e => (e.core 1).reg 0 == 0) = true := by decide +kernel
/-- The first branch of Table 3-15: an offset of −1 goes back one word. -/
theorem test_beq_back : after (.beq 1 (fl 0 9 0 (-1))) (one 1 .v []) (fun e => (e.core 1).pc == BitVec.ofNat 64 (scratchBase 1) - 8) = true := by
  decide +kernel
/-- The end of chapter 3's example: CSET with no transaction open raises the transaction-state trap with its own word. -/
theorem test_cset_no_transaction : after (.cset 1 (fl 0 11 10 0)) (one 1 .v [(11, 0x01200040), (10, 5)])
    (fun e => (e.core 1).ecause == 0x010006 && (e.core 1).etval == 0x9102D40000000000) = true := by decide +kernel
theorem test_store_little_endian : after (.sw 1 (fl 0 1 2 0)) (r12 0x8001FF8 0x11223344)
    (fun e => e.byte 0x8001FF8 == 0x44 && e.byte 0x8001FFB == 0x11 && e.byte 0x8001FFC == 0) = true := by decide +kernel
theorem test_lb_sign : puts (.lb 1 (fl 3 1 0 0)) { r12 0x8001FF8 0 with mem := memSetRun 0x8001FF8 [0x80] [] } (-128) = true := by decide +kernel
theorem test_amoadd_returns_old : after (.amoadd 1 (fl 3 1 2 0)) { r12 0x8001FF8 5 with mem := memSetRun 0x8001FF8 [9] [] }
    (fun e => (e.core 1).reg 3 == 9 && e.byte 0x8001FF8 == 14) = true := by decide +kernel
/-- The statistics module of chapter 2: its layout is right, and 446,464 bytes are the most arguments it leaves room for. -/
def statistics : ModHeader × List Sect :=
  ({ magic := 0x444D5842, format := 1, hdrsize := 0x40, totalLen := 0x2940, level := 3, coreKind := 2, nsect := 3, componentId := 0x80000001, secver := 0,
     build := 0, entry := 0, span := 0x3000, stack := 0x10000, flags := 0, signedLen := 0x1CB8 },
   [{ type := 1, perm := 5, res := 0, fileOff := 0x70, loadOff := 0, size := 0x1A40 },
    { type := 3, perm := 3, res := 0, fileOff := 0x1AB0, loadOff := 0x2000, size := 0x200 },
    { type := 5, perm := 0, res := 0, fileOff := 0x1CB0, loadOff := 0, size := 8 }])
theorem test_example_module : sectionsBad statistics.1 statistics.2 = false ∧ spanBad statistics.1 statistics.2 446464 = false
    ∧ spanBad statistics.1 statistics.2 446465 = true := by decide +kernel
/-- The board of chapter 10: seven summary rows of 1,024 word lines. -/
theorem test_summary_rows : summaryLines 1024 = 7 := by decide +kernel
/-- The die of chapter 0's example: channel 77 is served by core 19's Drover and stands on paddock 78. -/
theorem test_locate_die : 2485 / 32 = 77 ∧ droverOf 77 = 9 + 19 ∧ chanPad 77 = 78 := by decide +kernel
/-- The check values of the two CRCs over the nine digits, as their definitions are commonly published. -/
theorem test_crc_values : crc16 [0x31, 0x32, 0x33, 0x34, 0x35, 0x36, 0x37, 0x38, 0x39] = 0x29B1
    ∧ crc32c [0x31, 0x32, 0x33, 0x34, 0x35, 0x36, 0x37, 0x38, 0x39] = 0xE3069283 := by decide +kernel
theorem test_idle_tick : ∃ t, step State.reset = .next t ∧ t.dev.now = 4 ∧ t.pending = [] := ⟨_, rfl, rfl, rfl⟩
theorem test_step_takes_front : ∃ t, step { pending := [.crookLeaseExpiry, .zeroize], dev := d0 } = .next t ∧ t.pending = [.zeroize] := ⟨_, rfl, rfl⟩
theorem test_crook_acquire : after (.crookAcquire 0) (crooked 1 none) (fun e => e.crook.holder == some 0) = true := by decide +kernel
theorem test_crook_refuses_other : after (.crookAcquire 0)
    { crooked 1 (some 64) with crook := { CrookSt.init with holder := some 64, leaseEnd := 1000000 } } (fun e => e.crook.holder == some 64) = true := by
  decide +kernel
theorem test_crook_lapsed_granted : after (.crookAcquire 0) (crooked 1 (some 64)) (fun e => e.crook.holder == some 0 && e.crook.expired == 1) = true := by
  decide +kernel
theorem test_pet : after (.pet 0xC011) (collied .none id) (fun e => e.evt.collieArmed && e.evt.colliePet == 0) = true := by decide +kernel
theorem test_gate_drains : after (.gate 40) (gated .running) (fun e => (e.gate 40).st == .draining) = true := by decide +kernel
theorem test_die_starts : after (.arrayOperationStart 0) (diesOf [dop 4 0 .queued id]) (fun e => (e.dieOps 0).map (fun o => o.stage) == [.running]) = true := by
  decide +kernel
theorem test_take : after (.take 1 3) (srced 3 [aRec 2] 0 false) (fun e => (e.src 3).handling && (e.src 3).head == some (aRec 2)) = true := by decide +kernel
theorem test_key_clear : after (.keyClear 64) (keyed [(64, aSlot .loaded)] none []) (fun e => (e.slot 64).st == .clearing && e.keys.busy) = true := by
  decide +kernel
theorem test_map_lookup : after (.mapcLookup 100) (caches 0 [] []) (fun e => e.mapc.answer == some (100, 0, false) && e.mapc.lookups == 1) = true := by
  decide +kernel
theorem test_walk_repeats : after (.walkFrameReceive (frameTo 4 3) false) (joinedDev 0 false id) (fun e => e.outputs == [.walkFrame (frameTo 4 3)]) = true := by
  decide +kernel
theorem test_set_endpoint : after .setEndpointId (manages 3 [aMsg .i3c 0 (control 1 0 7)]) (fun e => e.walk.eidI3c == 7 && e.walk.msgs == []) = true := by
  decide +kernel

end Sys2Proof.Tests
end

section
/-! Laws of commands and tables: a command that applies one function to the device, and what a table lists after an erase or a write to a
key it lists. -/

namespace Sys2Proof.Machine

open Sys2Proof.Safety

/-- A command that applies `f` to the device does what holds of `f`'s result. -/
theorem does_of_exec {c : Instr} {s : State} {f : Dev → Dev} {P : Dev → Prop} (h : exec c s = s.apply f) (hp : P (f s.dev)) : Does c s P :=
  ⟨f s.dev, h, hp⟩

/-- A command that applies `f` to the device gives `f`'s result. -/
theorem gives_of_exec {c : Instr} {s : State} {f : Dev → Dev} {d : Dev} (h : exec c s = s.apply f) (hd : f s.dev = d) : Gives c s d :=
  hd ▸ h

/-- A fold keeps a part of the device that each of its steps keeps. -/
theorem Dev.foldl_keeps {α β : Type} (p : Dev → β) (f : Dev → α → Dev) (hf : ∀ d a, p (f d a) = p d) (l : List α) (d : Dev) :
    p (l.foldl f d) = p d := by
  induction l generalizing d with
  | nil => rfl
  | cons a l ih => rw [List.foldl_cons, ih, hf]

/-! ### Tables -/

@[simp] theorem Tab.get_erase_same {α : Type} (d : α) (k : Nat) (t : Tab α) : (t.erase k).get d k = d := by
  induction t with
  | nil => rfl
  | cons e t ih =>
    by_cases h : e.1 = k
    · simpa [Tab.erase, h] using ih
    · simpa [Tab.erase, Tab.get, h] using ih

theorem Tab.get_erase_other {α : Type} (d : α) {k j : Nat} (h : j ≠ k) (t : Tab α) : (t.erase k).get d j = t.get d j := by
  induction t with
  | nil => rfl
  | cons e t ih =>
    by_cases hk : e.1 = k
    · simpa [Tab.erase, Tab.get, hk, h.symm] using ih
    · simp only [Tab.erase, List.filter_cons, bne_iff_ne.mpr hk, if_true, Tab.get] at ih ⊢
      rw [ih]

/-- What a table lists after a write is the written value or what it listed. -/
theorem Tab.mem_set {α : Type} {k : Nat} {v : α} {t : Tab α} {e : Nat × α} (h : e ∈ t.set k v) : e = (k, v) ∨ e ∈ t := by
  induction t with
  | nil => exact .inl (by simpa [Tab.set] using h)
  | cons x t ih =>
    unfold Tab.set at h
    split at h
    · simpa using h
    · split at h
      · exact (List.mem_cons.mp h).imp id (List.mem_cons_of_mem x)
      · rcases List.mem_cons.mp h with rfl | h
        · exact .inr List.mem_cons_self
        · exact (ih h).imp id (List.mem_cons_of_mem x)

/-- The keys of a table in its form rise. -/
theorem Tab.keys_pairwise {α : Type} {t : Tab α} (w : t.wf = true) : t.keys.Pairwise (· < ·) := by
  induction t with
  | nil => exact List.Pairwise.nil
  | cons x t ih =>
    cases t with
    | nil => exact List.pairwise_singleton _ _
    | cons y t =>
      obtain ⟨hxy, ht⟩ : x.1 < y.1 ∧ Tab.wf (y :: t) = true := by
        simpa only [Tab.wf, Bool.and_eq_true, decide_eq_true_eq] using w
      have later := ih ht
      refine List.pairwise_cons.mpr ⟨fun k hk => ?_, later⟩
      rcases List.mem_cons.mp hk with rfl | hk
      · exact hxy
      · exact Nat.lt_trans hxy ((List.pairwise_cons.mp later).1 k hk)

/-- A write to a listed key of a table in its form lists the same keys. -/
theorem Tab.keys_set {α : Type} {k : Nat} (v : α) {t : Tab α} (w : t.keys.Pairwise (· < ·)) (h : k ∈ t.keys) : (t.set k v).keys = t.keys := by
  induction t with
  | nil => simp [Tab.keys] at h
  | cons x t ih =>
    obtain ⟨hx, ht⟩ := List.pairwise_cons.mp w
    unfold Tab.set
    rcases List.mem_cons.mp h with rfl | h
    · simp [Tab.keys]
    · have hlt : x.1 < k := hx k h
      rw [if_neg (by omega), if_neg (by omega)]
      exact congrArg (x.1 :: ·) (ih ht h)

/-- In a table in its form a write leaves no other value at its key. -/
theorem Tab.mem_set_of_wf {α : Type} {k : Nat} {v : α} {t : Tab α} (w : t.keys.Pairwise (· < ·)) {e : Nat × α} (h : e ∈ t.set k v)
    (hk : e.1 = k) : e = (k, v) := by
  induction t with
  | nil => simpa [Tab.set] using h
  | cons x t ih =>
    obtain ⟨hx, ht⟩ := List.pairwise_cons.mp w
    have later : ∀ y ∈ t, x.1 < y.1 := fun y hy => hx y.1 (List.mem_map_of_mem hy)
    unfold Tab.set at h
    split at h
    · rcases List.mem_cons.mp h with h | h
      · exact h
      · rcases List.mem_cons.mp h with rfl | h
        · omega
        · have := later e h; omega
    · split at h
      · rcases List.mem_cons.mp h with h | h
        · exact h
        · have := later e h; omega
      · rcases List.mem_cons.mp h with rfl | h
        · omega
        · exact ih ht h

end Sys2Proof.Machine
end

section
/-! Die links (R16 to R18): what setting a module, a DEGRADED bit or a link's end leaves, and the statement about a module's training. -/

namespace Sys2Proof.Machine

open Sys2Proof.Safety

/-- Adding a clear bit's weight sets the bit. -/
theorem bitOf_add_pow {v x : Nat} (h : bitOf v x = false) : bitOf (v + 2 ^ x) x = true := by
  simp only [bitOf, Nat.shiftRight_eq_div_pow, beq_eq_false_iff_ne, beq_iff_eq, Nat.add_div_right _ (Nat.two_pow_pos x)] at h ⊢
  omega

@[simp] theorem Dev.ucie_setUcie (d : Dev) (m : Nat) (x : UcieMod) : (d.setUcie m x).ucie m = x := by
  simp [Dev.ucie, Dev.setUcie]

theorem Dev.ucie_setUcie_other (d : Dev) {m j : Nat} (h : j ≠ m) (x : UcieMod) : (d.setUcie m x).ucie j = d.ucie j := by
  simp [Dev.ucie, Dev.setUcie, Tab.get_set_other _ _ h]

/-- Device fatal leaves everything but the events, the drove engine and the NVMe front end. -/
theorem Dev.enterFatal_eq (d : Dev) (cause source : Nat) :
    d.enterFatal cause source = { d with evt := (d.enterFatal cause source).evt, drove := (d.enterFatal cause source).drove,
                                         nvme := (d.enterFatal cause source).nvme } := by
  unfold Dev.enterFatal; split <;> rfl

/-- A record of class 0 to 2 changes the events alone. -/
theorem Dev.post_eq (d : Dev) (src obj arg cond : Nat) {cls : Nat} (h : cls ≠ 3) :
    d.post src obj arg cond cls = { d with evt := (d.post src obj arg cond cls).evt } := by
  have hc : ∀ a b c, (if cls < 2 then none else fatalCauseOf cls cond src a b c) = none := fun a b c => by simp [fatalCauseOf, h]
  unfold Dev.post
  simp only [hc]
  rfl

theorem Dev.setDegraded_of_set {d : Dev} {m : Nat} (h : bitOf d.hub.degraded (moduleLink m) = true) : d.setDegraded m = d := if_pos h

theorem Dev.setDegraded_of_clear {d : Dev} {m : Nat} (h : bitOf d.hub.degraded (moduleLink m) = false) :
    d.setDegraded m =
      ({ d with hub := { d.hub with degraded := d.hub.degraded + 2 ^ moduleLink m } } : Dev).post 0x000 m (d.ucie m).attempts 0x06 2 :=
  if_neg (Bool.eq_false_iff.mp h)

/-- Setting a DEGRADED bit changes the events and the DEGRADED bits alone. -/
theorem Dev.setDegraded_eq (d : Dev) (m : Nat) :
    d.setDegraded m = { d with evt := (d.setDegraded m).evt, hub := { d.hub with degraded := (d.setDegraded m).hub.degraded } } := by
  cases h : bitOf d.hub.degraded (moduleLink m) with
  | true => rw [Dev.setDegraded_of_set h]
  | false => rw [Dev.setDegraded_of_clear h, Dev.post_eq _ _ _ _ _ (by decide)]

@[simp] theorem Dev.ucie_setDegraded (d : Dev) (m j : Nat) : (d.setDegraded m).ucie j = d.ucie j := by
  rw [Dev.setDegraded_eq]; rfl

theorem Dev.setDegraded_sets (d : Dev) (m : Nat) : bitOf (d.setDegraded m).hub.degraded (moduleLink m) = true := by
  cases h : bitOf d.hub.degraded (moduleLink m) with
  | true => rwa [Dev.setDegraded_of_set h]
  | false =>
    rw [Dev.setDegraded_of_clear h, Dev.post_eq _ _ _ _ _ (by decide)]
    exact bitOf_add_pow h

/-- A link whose modules are all down for good changes no die-link state. -/
theorem Dev.linkAllDown_hub (d : Dev) (x : Nat) : (d.linkAllDown x).hub = d.hub := by
  unfold Dev.linkAllDown
  split
  · rfl
  · split
    · rw [Dev.enterFatal_eq]
    · rfl

@[simp] theorem Dev.ucie_linkAllDown (d : Dev) (x j : Nat) : (d.linkAllDown x).ucie j = d.ucie j := by
  rw [Dev.ucie, Dev.linkAllDown_hub]; rfl

theorem Dev.ucieTrain_idle (d : Dev) (m : Nat) (ok : Bool) (h : (d.ucie m).up = true ∨ 3 ≤ (d.ucie m).attempts) : d.ucieTrain m ok = d :=
  if_pos (h.imp id .inl)

/-- A module that may train tries once (R16). -/
theorem Dev.ucieTrain_tries (d : Dev) (m : Nat) (ok : Bool) (hup : (d.ucie m).up = false) (hn : (d.ucie m).attempts < 3)
    (hclk : d.clk.started = true) (hstb : d.pwr.standby = false) :
    d.ucieTrain m ok =
      if ok then d.setUcie m { d.ucie m with up := true }
      else if (d.ucie m).attempts + 1 < 3 then d.setUcie m { d.ucie m with attempts := (d.ucie m).attempts + 1 }
      else ((d.setUcie m { d.ucie m with attempts := (d.ucie m).attempts + 1 }).setDegraded m).linkAllDown (moduleLink m) := by
  have hidle : ¬ ((d.ucie m).up ∨ 3 ≤ (d.ucie m).attempts ∨ !d.clk.started ∨ d.pwr.standby) := by
    simp [hup, hclk, hstb]; omega
  exact if_neg hidle

theorem exec_ucieModuleTraining (m : Fin 12) (ok : Bool) (s : State) :
    exec (.ucieModuleTraining m ok) s = s.apply fun d => d.ucieTrain m.val ok := rfl

theorem exec_ucieModuleFail (m : Fin 12) (s : State) :
    exec (.ucieModuleFail m) s =
      s.apply fun d => if (d.ucie m.val).up then (d.setUcie m.val { up := false, attempts := 0 }).setDegraded m.val else d := rfl

/-- Settles O22, by the cases of a training: the module trains, fails an attempt that is not the last, or fails the third. -/
theorem dieLinkModules : Obligations.DieLinkModules := by
  refine ⟨fun m s hup hn hclk hstb => ?_, fun m ok s h => ?_, fun m s hup => ?_⟩
  · have tries := fun ok => Dev.ucieTrain_tries s.dev m.val ok hup hn hclk hstb
    refine ⟨gives_of_exec (exec_ucieModuleTraining m true s) (tries true), fun h2 => ?_, fun h2 => ?_⟩
    · refine gives_of_exec (exec_ucieModuleTraining m false s) ?_
      rw [tries, if_neg Bool.false_ne_true, if_pos (by omega)]
    · have last : s.dev.ucieTrain m.val false =
          ((s.dev.setUcie m.val { s.dev.ucie m.val with attempts := 3 }).setDegraded m.val).linkAllDown (moduleLink m.val) := by
        rw [tries, if_neg Bool.false_ne_true, if_neg (by omega), h2]
      refine does_of_exec (exec_ucieModuleTraining m false s) ?_
      simp only [last, Dev.ucie_linkAllDown, Dev.ucie_setDegraded, Dev.ucie_setUcie, Dev.linkAllDown_hub, true_and]
      exact ⟨hup, Dev.setDegraded_sets _ _, fun j hj => Dev.ucie_setUcie_other _ hj _⟩
  · exact gives_of_exec (exec_ucieModuleTraining m ok s) (Dev.ucieTrain_idle _ _ _ h)
  · refine does_of_exec (exec_ucieModuleFail m s) ?_
    simp only [hup, if_true, Dev.ucie_setDegraded, Dev.ucie_setUcie, true_and]
    refine ⟨Dev.setDegraded_sets _ _, ?_, ?_⟩
    · rw [Dev.setDegraded_eq]; rfl
    · rw [Dev.setDegraded_eq]; rfl

end Sys2Proof.Machine
end

section
/-! The map cache (R216, R330, R351 to R359): how each of its functions behaves, and the statement about its rows. -/

namespace Sys2Proof.Machine

open Sys2Proof.Safety

/-! ### Ways -/

@[simp] theorem Dev.setWay_mem (d : Dev) (k : Nat) (w : MapLine) : (d.setWay k w).mem = d.mem := rfl
@[simp] theorem Dev.setWay_state (d : Dev) (k : Nat) (w : MapLine) : (d.setWay k w).mapc.state = d.mapc.state := rfl
@[simp] theorem Dev.setWay_waiting (d : Dev) (k : Nat) (w : MapLine) : (d.setWay k w).mapc.waiting = d.mapc.waiting := rfl
@[simp] theorem Dev.setWay_answer (d : Dev) (k : Nat) (w : MapLine) : (d.setWay k w).mapc.answer = d.mapc.answer := rfl

@[simp] theorem Dev.touchWay_mem (d : Dev) (k : Nat) : (d.touchWay k).mem = d.mem := rfl
@[simp] theorem Dev.touchWay_waiting (d : Dev) (k : Nat) : (d.touchWay k).mapc.waiting = d.mapc.waiting := rfl
@[simp] theorem Dev.touchWay_answer (d : Dev) (k : Nat) : (d.touchWay k).mapc.answer = d.mapc.answer := rfl
@[simp] theorem Dev.touchWay_lines (d : Dev) (k : Nat) : (d.touchWay k).mapc.lines = d.mapc.lines := rfl
@[simp] theorem Dev.touchWay_way (d : Dev) (k j : Nat) : (d.touchWay k).way j = d.way j := rfl

theorem Dev.setWay_lines {d : Dev} {k : Nat} {w : MapLine} (h : w.st ≠ .invalid) : (d.setWay k w).mapc.lines = d.mapc.lines.set k w := if_neg h

/-- A way reads as the line put there, and as an Invalid one where an Invalid one was put. -/
theorem Dev.way_setWay {d : Dev} {k : Nat} {w : MapLine} (h : w.st ≠ .invalid) : (d.setWay k w).way k = w := by
  rw [Dev.way, Dev.setWay_lines h, Tab.get_set_same]

@[simp] theorem Dev.way_setWay_init (d : Dev) (k : Nat) : (d.setWay k MapLine.init).way k = MapLine.init := Tab.get_erase_same ..

theorem Dev.findLine_some {d : Dev} {l k : Nat} (h : d.findLine l = some k) : (d.way k).st ≠ .invalid ∧ (d.way k).line = l := by
  simpa using List.find?_some h

@[simp] theorem Dev.writeLine_mem (d : Dev) (l : Nat) (b : Bytes) (ms : List Nat) : (d.writeLine l b ms).mem = memSetRun (lineAddr l) b d.mem :=
  Dev.foldl_keeps Dev.mem (fun d w => d.mark (lineAddr l + 8 * w)) (fun _ _ => rfl) ms _

@[simp] theorem Dev.writeLine_mapc (d : Dev) (l : Nat) (b : Bytes) (ms : List Nat) : (d.writeLine l b ms).mapc = d.mapc :=
  Dev.foldl_keeps Dev.mapc (fun d w => d.mark (lineAddr l + 8 * w)) (fun _ _ => rfl) ms _

/-! ### Operations -/

/-- With none waiting there is nothing to serve. -/
theorem Dev.mapcServe_of_none {d : Dev} (h : d.mapc.waiting = []) : d.mapcServe = d := by
  unfold Dev.mapcServe
  rw [h, List.foldl_nil, ← h]

theorem Dev.fieldReset_congr {a b : Dev} (hp : a.pins = b.pins) (id : Nat) : a.fieldReset id = b.fieldReset id := by
  rw [Dev.fieldReset, hp, Dev.fieldReset]

theorem Dev.applied_congr {a b : Dev} (hc : a.cfg = b.cfg) (hp : a.pins = b.pins) (id : Nat) : a.applied id = b.applied id := by
  rw [Dev.applied, hc, Dev.fieldReset_congr hp, Dev.applied]

theorem Dev.chanEmpty_congr {a b : Dev} (hm : a.media = b.media) (c : Nat) : a.chanEmpty c = b.chanEmpty c := by
  rw [Dev.chanEmpty, hm, Dev.chanEmpty]

theorem Dev.padDead_congr {a b : Dev} (hm : a.media = b.media) (hc : a.cfg = b.cfg) (hp : a.pins = b.pins) (p : Nat) :
    a.padDead p = b.padDead p := by
  rw [Dev.padDead, Dev.padDead, Dev.chanEmpty_congr hm, Dev.cfgv, Dev.applied_congr hc hp, Dev.cfgv, hp]

/-- A paddock's state follows from the dies found, the configuration, the straps and the paddocks alone. -/
theorem Dev.pad_congr {a b : Dev} (hm : a.media = b.media) (hc : a.cfg = b.cfg) (hp : a.pins = b.pins) (hw : a.pwr = b.pwr) (p : Nat) :
    a.pad p = b.pad p := by
  rw [Dev.pad, Dev.padDead_congr hm hc hp, hw, Dev.pad]

theorem sat_eq_min (bound v : Nat) : sat bound v = min bound v := rfl

/-- The device with `n` lookups counted and no answer yet. -/
def Dev.counted (d : Dev) (n : Nat) : Dev := { d with mapc := { d.mapc with lookups := n, answer := none } }

@[simp] theorem Dev.counted_mem (d : Dev) (n : Nat) : (d.counted n).mem = d.mem := rfl
@[simp] theorem Dev.counted_lookups (d : Dev) (n : Nat) : (d.counted n).mapc.lookups = n := rfl
@[simp] theorem Dev.counted_lines (d : Dev) (n : Nat) : (d.counted n).mapc.lines = d.mapc.lines := rfl
@[simp] theorem Dev.counted_state (d : Dev) (n : Nat) : (d.counted n).mapc.state = d.mapc.state := rfl
@[simp] theorem Dev.counted_bytes (d : Dev) (n a l : Nat) : (d.counted n).bytes a l = d.bytes a l := rfl
@[simp] theorem Dev.counted_marked (d : Dev) (n a : Nat) : (d.counted n).marked a = d.marked a := rfl
@[simp] theorem Dev.counted_way (d : Dev) (n k : Nat) : (d.counted n).way k = d.way k := rfl
@[simp] theorem Dev.counted_underRepair (d : Dev) (n u : Nat) : (d.counted n).underRepair u = d.underRepair u := rfl
@[simp] theorem Dev.counted_setOff (d : Dev) (n x : Nat) : (d.counted n).setOff x = d.setOff x := by
  simp only [Dev.setOff, Dev.pad_congr (a := d.counted n) (b := d) rfl rfl rfl rfl]
@[simp] theorem Dev.counted_findLine (d : Dev) (n l : Nat) : (d.counted n).findLine l = d.findLine l := rfl

/-- MAPC takes an operation that it has counted. -/
def Dev.mapcTake (d : Dev) (r : MapcReq) : Dev :=
  if d.mapc.waiting.any (fun o => lineOf o.diu == lineOf r.diu) then d.mapcQueue r
  else if (d.mapcTry r).2 then (d.mapcTry r).1 else (d.mapcTry r).1.mapcQueue r

theorem Dev.mapcIssue_eq (d : Dev) (r : MapcReq) : d.mapcIssue r = (d.counted (sat 0xFFFFFFFF (d.mapc.lookups + 1))).mapcTake r := rfl

/-- An operation that none on its line holds back, and that is served at once, leaves what serving it leaves. -/
theorem Dev.mapcTake_served {d e : Dev} {r : MapcReq} (hw : ∀ o ∈ d.mapc.waiting, lineOf o.diu ≠ lineOf r.diu)
    (h : d.mapcTry r = (e, true)) : d.mapcTake r = e := by
  have hfree : d.mapc.waiting.any (fun o => lineOf o.diu == lineOf r.diu) = false := by simpa using hw
  simp [Dev.mapcTake, hfree, h]

@[simp] theorem Dev.mapcAnswer_answer (d : Dev) (r : MapcReq) (e : Nat) :
    (d.mapcAnswer r e).mapc.answer = some (r.diu, e, (r.writes e).isSome) := rfl
@[simp] theorem Dev.mapcAnswer_mem (d : Dev) (r : MapcReq) (e : Nat) : (d.mapcAnswer r e).mem = d.mem := rfl
@[simp] theorem Dev.mapcAnswer_lookups (d : Dev) (r : MapcReq) (e : Nat) : (d.mapcAnswer r e).mapc.lookups = d.mapc.lookups := rfl
@[simp] theorem Dev.mapcAnswer_lines (d : Dev) (r : MapcReq) (e : Nat) : (d.mapcAnswer r e).mapc.lines = d.mapc.lines := rfl

theorem MapcReq.writes_lookup (diu e : Nat) : MapcReq.writes { diu := diu, op := 0, new := 0, old := 0 } e = none := rfl

theorem MapcReq.writes_update (diu v e : Nat) : MapcReq.writes { diu := diu, op := 1, new := v, old := 0 } e = some v := rfl

/-- A conditional update writes exactly where the entry names its source slot. -/
theorem MapcReq.writes_conditional (diu v e : Nat) (src : BitVec 38) :
    MapcReq.writes { diu := diu, op := 2, new := v, old := src.toNat } e = if entNames e src.toNat then some v else none := by
  have hkey : entKey src.toNat = src.toNat := by
    simp only [entKey, bitsOf, Nat.shiftRight_zero]
    exact Nat.mod_eq_of_lt src.isLt
  simp [MapcReq.writes, hkey]

/-- An operation meets a disabled cache, no repair and no marked word of its entry. -/
structure DirectReady (d : Dev) (r : MapcReq) : Prop where
  ready : MapReady d r.diu
  disabled : d.mapc.state = 0
  unmarked : ∀ w ∈ entryWords r.diu, d.marked (lineAddr (lineOf r.diu) + 8 * w) = false

theorem Dev.mapcTry_disabled {d : Dev} {r : MapcReq} (hs : d.mapc.state = 0) (hr : d.underRepair r.diu = false) :
    d.mapcTry r = d.mapcDirect r :=
  (if_neg (Bool.eq_false_iff.mp hr)).trans (if_pos (.inl hs))

/-- An operation that meets a disabled cache is served from DRAM: its answer, and the entry it writes (R357). -/
theorem Dev.mapcTake_direct {d : Dev} {r : MapcReq} (h : DirectReady d r) {e : Nat} (he : e = ofLe (d.bytes (entryAddr r.diu) 5)) (n : Nat) :
    (d.counted n).mapcTake r = match r.writes e with
      | some v => ((d.counted n).mapcAnswer r e).putBytes (entryAddr r.diu) (leBytes 5 v)
      | none => (d.counted n).mapcAnswer r e := by
  obtain ⟨⟨_, hw, hrep⟩, hs, hm⟩ := h
  have hnone : (entryWords r.diu).find? (fun w => d.marked (lineAddr (lineOf r.diu) + 8 * w)) = none :=
    List.find?_eq_none.mpr fun w hw => Bool.eq_false_iff.mp (hm w hw)
  refine Dev.mapcTake_served hw ((Dev.mapcTry_disabled (by simpa using hs) (by simpa using hrep)).trans ?_)
  simp only [Dev.mapcDirect, Dev.counted_marked, hnone, Dev.counted_bytes, ← he]
  cases r.writes e <;> rfl

theorem Dev.mapcTake_direct_writes {d : Dev} {r : MapcReq} (h : DirectReady d r) {e v : Nat} (he : e = ofLe (d.bytes (entryAddr r.diu) 5))
    (hv : r.writes e = some v) (n : Nat) :
    MapAnswered ((d.counted n).mapcTake r) r.diu e true
      ∧ ((d.counted n).mapcTake r).mem = memSetRun (entryAddr r.diu) (leBytes 5 v) d.mem := by
  rw [Dev.mapcTake_direct h he, hv]
  simp [MapAnswered, hv, Dev.putBytes]

theorem Dev.mapcTake_direct_reads {d : Dev} {r : MapcReq} (h : DirectReady d r) {e : Nat} (he : e = ofLe (d.bytes (entryAddr r.diu) 5))
    (hv : r.writes e = none) (n : Nat) :
    MapAnswered ((d.counted n).mapcTake r) r.diu e false ∧ ((d.counted n).mapcTake r).mem = d.mem
      ∧ ((d.counted n).mapcTake r).mapc.lookups = n := by
  rw [Dev.mapcTake_direct h he, hv]
  simp [MapAnswered, hv]

/-- An operation meets an enabled cache that holds its line in way k, clean or dirty and unmarked, and no repair. -/
structure HitReady (d : Dev) (k : Nat) (r : MapcReq) : Prop where
  ready : MapReady d r.diu
  enabled : d.mapc.state = 1
  on : d.setOff (setOf (lineOf r.diu)) = false
  found : d.findLine (lineOf r.diu) = some k
  valid : (d.way k).st = .clean ∨ (d.way k).st = .dirty
  unmarked : (d.way k).marks = []

/-- An operation that meets its line in a way is served there (R352). -/
theorem Dev.mapcTake_hit {d : Dev} {k : Nat} {r : MapcReq} (h : HitReady d k r) (n : Nat) :
    (d.counted n).mapcTake r = (d.counted n).mapcHit k r := by
  obtain ⟨⟨_, hw, hrep⟩, hs, hoff, hk, hst, hm⟩ := h
  have hready : ¬ ((d.way k).st = .filling ∨ (d.way k).st = .evicting) := by
    rcases hst with h | h <;> simp [h]
  refine Dev.mapcTake_served hw ?_
  simp [Dev.mapcTry, hrep, hs, hoff, hk, hready, hm]

theorem Dev.mapcTake_hit_reads {d : Dev} {k : Nat} {r : MapcReq} (h : HitReady d k r)
    (hv : r.writes (entryIn (d.way k).data r.diu) = none) (n : Nat) :
    MapAnswered ((d.counted n).mapcTake r) r.diu (entryIn (d.way k).data r.diu) false ∧ ((d.counted n).mapcTake r).mem = d.mem
      ∧ ((d.counted n).mapcTake r).mapc.lines = d.mapc.lines := by
  simp [Dev.mapcTake_hit h, Dev.mapcHit, hv, MapAnswered]

theorem Dev.mapcTake_hit_writes {d : Dev} {k v : Nat} {r : MapcReq} (h : HitReady d k r)
    (hv : r.writes (entryIn (d.way k).data r.diu) = some v) (n : Nat) :
    MapAnswered ((d.counted n).mapcTake r) r.diu (entryIn (d.way k).data r.diu) true ∧ ((d.counted n).mapcTake r).mem = d.mem
      ∧ ((d.counted n).mapcTake r).way k = { d.way k with data := entryPut (d.way k).data r.diu v, st := .dirty } := by
  simp [Dev.mapcTake_hit h, Dev.mapcHit, hv, MapAnswered, Dev.way_setWay]

/-! ### Fills and write-backs (R355, R356) -/

theorem Dev.fillReturn_of_not_filling {d : Dev} {l k : Nat} (hk : d.findLine l = some k) (h : (d.way k).st ≠ .filling) : d.fillReturn l = d := by
  simp [Dev.fillReturn, hk, h]

/-- An unmarked fill leaves its line Clean with DRAM's bytes. -/
theorem Dev.fillReturn_clean {d : Dev} {l k : Nat} (hw : d.mapc.waiting = []) (hk : d.findLine l = some k) (h : (d.way k).st = .filling)
    (hm : d.dramMarks l = []) :
    (d.fillReturn l).way k = { d.way k with st := .clean, data := d.bytes (lineAddr l) 160, prefetch := false }
      ∧ (d.fillReturn l).mem = d.mem := by
  have hfill : d.fillReturn l =
      (if (d.way k).prefetch then d.setWay k { d.way k with st := .clean, data := d.bytes (lineAddr l) 160, prefetch := false }
        else (d.setWay k { d.way k with st := .clean, data := d.bytes (lineAddr l) 160, prefetch := false }).touchWay k).mapcServe := by
    simp [Dev.fillReturn, hk, h, hm]
  rw [hfill]
  split
  · rw [Dev.mapcServe_of_none (by simpa using hw)]
    exact ⟨Dev.way_setWay (by simp), rfl⟩
  · rw [Dev.mapcServe_of_none (by simpa using hw), Dev.touchWay_way]
    exact ⟨Dev.way_setWay (by simp), rfl⟩

theorem Dev.writebackAccepted_of_not_evicting {d : Dev} {l k : Nat} (hk : d.findLine l = some k) (h : (d.way k).st ≠ .evicting) :
    d.writebackAccepted l = d := by
  simp [Dev.writebackAccepted, hk, h]

theorem Dev.evictNext_of_not_disabling {d : Dev} (h : d.mapc.state ≠ 2) : d.evictNext = d := if_pos (.inl h)

/-- The line that a way takes once its write-back is accepted: the one that waited for it fills, else it is Invalid. -/
def MapLine.refilled (w : MapLine) : MapLine :=
  match w.next with
  | some n => { line := n, st := .filling, data := [], marks := [], next := none, prefetch := w.prefetch }
  | none => MapLine.init

/-- With nothing waiting and the cache not Disabling, an accepted write-back stores its line and frees or refills its way. -/
theorem Dev.writebackAccepted_evicting {d : Dev} {l k : Nat} (hw : d.mapc.waiting = []) (hs : d.mapc.state ≠ 2) (hk : d.findLine l = some k)
    (h : (d.way k).st = .evicting) :
    d.writebackAccepted l = (d.writeLine (d.way k).line (d.way k).data (d.way k).marks).setWay k (d.way k).refilled := by
  have hwb : d.writebackAccepted l =
      ((d.writeLine (d.way k).line (d.way k).data (d.way k).marks).setWay k (d.way k).refilled).mapcServe.evictNext := by
    simp only [Dev.writebackAccepted, hk, h, MapLine.refilled]
    cases (d.way k).next <;> rfl
  rw [hwb, Dev.mapcServe_of_none (by simpa using hw), Dev.evictNext_of_not_disabling (by simpa using hs)]

@[simp] theorem Dev.way_setWay_refilled (d : Dev) (k : Nat) (w : MapLine) : (d.setWay k w.refilled).way k = w.refilled := by
  cases h : w.next with
  | some n => exact Dev.way_setWay (by simp [MapLine.refilled, h])
  | none => simp [MapLine.refilled, h]

/-! ### Enable, flush and clean (R357, R358) -/

/-- The cache as clearing ENABLE leaves it before its first eviction: Disabling, with the lines to write back. -/
def Dev.disabling (d : Dev) : Dev :=
  { d with mapc := { d.mapc with
      enable := false, state := 2
      lines := Tab.mapVals (fun _ w => { w with next := none })
        (d.mapc.lines.filter (fun e => e.2.st == LineState.dirty || e.2.st == LineState.evicting)) } }

theorem Dev.mapcDisable_enabled {d : Dev} (hs : d.mapc.state = 1) (hw : d.mapc.waiting = []) : d.mapcDisable = d.disabling.evictNext := by
  have henabled : d.mapcDisable = d.disabling.mapcServe.evictNext := if_neg (by simp [hs])
  rw [henabled, Dev.mapcServe_of_none (d := d.disabling) hw]

theorem Dev.disabling_lines {d : Dev} {e : Nat × MapLine} (h : e ∈ d.disabling.mapc.lines) : e.2.st = .dirty ∨ e.2.st = .evicting := by
  obtain ⟨x, hx, rfl⟩ := List.mem_map.mp h
  simpa using (List.mem_filter.mp hx).2

/-- The next eviction replaces at most one way, by an evicting line. -/
theorem Dev.evictNext_cases (d : Dev) : d.evictNext = d ∨ ∃ k w, w.st = LineState.evicting ∧ d.evictNext = d.setWay k w := by
  unfold Dev.evictNext
  split
  · exact .inl rfl
  · split
    · exact .inr ⟨_, _, rfl, rfl⟩
    · exact .inl rfl

/-- Clearing ENABLE with nothing waiting keeps only the lines to write back. -/
theorem Dev.mapcDisable_keeps {d : Dev} (hs : d.mapc.state = 1) (hw : d.mapc.waiting = []) :
    d.mapcDisable.mapc.enable = false ∧ d.mapcDisable.mapc.state = 2
      ∧ (∀ e ∈ d.mapcDisable.mapc.lines, e.2.st = .dirty ∨ e.2.st = .evicting) ∧ d.mapcDisable.mem = d.mem := by
  rw [Dev.mapcDisable_enabled hs hw]
  rcases d.disabling.evictNext_cases with h | ⟨k, w, hev, h⟩
  · rw [h]
    exact ⟨rfl, rfl, fun _ => Dev.disabling_lines, rfl⟩
  · rw [h]
    refine ⟨rfl, rfl, fun e he => ?_, rfl⟩
    rw [Dev.setWay_lines (by simp [hev])] at he
    rcases Tab.mem_set he with rfl | he
    · exact .inr hev
    · exact Dev.disabling_lines he

/-- One line cleaned: written back, its way left Clean. -/
def Dev.cleanWay (d : Dev) (e : Nat × MapLine) : Dev := (d.writeLine e.2.line e.2.data e.2.marks).setWay e.1 { e.2 with st := .clean }

theorem Dev.cleanWay_lines (d : Dev) (e : Nat × MapLine) :
    (d.cleanWay e).mapc.lines = d.mapc.lines.set e.1 { e.2 with st := .clean } := by
  rw [Dev.cleanWay, Dev.setWay_lines (by simp), Dev.writeLine_mapc]

/-- Cleaning listed ways keeps the keys listed, and a line it leaves dirty was dirty and not among them. -/
theorem Dev.foldl_cleanWay_lines (l : List (Nat × MapLine)) (d : Dev) (w : d.mapc.lines.keys.Pairwise (· < ·))
    (hl : ∀ e ∈ l, e.1 ∈ d.mapc.lines.keys) :
    (l.foldl Dev.cleanWay d).mapc.lines.keys = d.mapc.lines.keys
      ∧ ∀ e ∈ (l.foldl Dev.cleanWay d).mapc.lines, e.2.st = .dirty → e ∈ d.mapc.lines ∧ e ∉ l := by
  induction l generalizing d with
  | nil => exact ⟨rfl, fun e he _ => ⟨he, List.not_mem_nil⟩⟩
  | cons x l ih =>
    have keys : (d.cleanWay x).mapc.lines.keys = d.mapc.lines.keys := by
      rw [Dev.cleanWay_lines, Tab.keys_set _ w (hl x List.mem_cons_self)]
    obtain ⟨hkeys, hdirty⟩ := ih (d.cleanWay x) (keys ▸ w) fun e he => keys ▸ hl e (List.mem_cons_of_mem x he)
    refine ⟨hkeys.trans keys, fun e he hst => ?_⟩
    obtain ⟨hin, hout⟩ := hdirty e he hst
    rw [Dev.cleanWay_lines] at hin
    have hne : e.1 ≠ x.1 := fun hx => by simp [Tab.mem_set_of_wf w hin hx] at hst
    refine ⟨(Tab.mem_set hin).resolve_left fun hx => hne (by rw [hx]), fun hmem => ?_⟩
    rcases List.mem_cons.mp hmem with rfl | hmem
    · exact hne rfl
    · exact hout hmem

/-- CLEAN of an enabled cache leaves as many lines and none dirty. -/
theorem Dev.mapcClean_enabled {d : Dev} (hs : d.mapc.state = 1) (w : d.mapc.lines.wf = true) :
    d.mapcClean.mapc.cleanDone = true ∧ (∀ e ∈ d.mapcClean.mapc.lines, e.2.st ≠ .dirty)
      ∧ d.mapcClean.mapc.lines.length = d.mapc.lines.length := by
  have henabled : d.mapcClean = { (d.mapc.lines.filter (fun e => e.2.st == LineState.dirty)).foldl Dev.cleanWay d with
      mapc := { ((d.mapc.lines.filter (fun e => e.2.st == LineState.dirty)).foldl Dev.cleanWay d).mapc with cleanDone := true } } :=
    if_neg (by simp [hs])
  obtain ⟨hkeys, hdirty⟩ := Dev.foldl_cleanWay_lines (d.mapc.lines.filter (fun e => e.2.st == LineState.dirty)) d
    (Tab.keys_pairwise w) fun e he => List.mem_map_of_mem (List.mem_filter.mp he).1
  rw [henabled]
  refine ⟨rfl, fun e he hst => ?_, by simpa [Tab.keys] using congrArg List.length hkeys⟩
  obtain ⟨hin, hout⟩ := hdirty e he hst
  exact hout (List.mem_filter.mpr ⟨hin, by simpa using hst⟩)

/-! ### Repairs (R330, R356) -/

/-- A slot released with nothing waiting changes no other slot and no other part of the device. -/
theorem Dev.repairRelease_of_none {d : Dev} (hw : d.mapc.waiting = []) (k : Nat) :
    d.repairRelease k = { d with mapc := { d.mapc with repairs := d.mapc.repairs.erase k } } :=
  Dev.mapcServe_of_none (d := { d with mapc := { d.mapc with repairs := d.mapc.repairs.erase k } }) hw

theorem Dev.repairSlot_repairRelease {d : Dev} (hw : d.mapc.waiting = []) (k : Nat) :
    (d.repairRelease k).repairSlot k = RepairSlot.init := by
  rw [Dev.repairRelease_of_none hw]
  exact Tab.get_erase_same ..

theorem Dev.repairSlot_repairRelease_other {d : Dev} (hw : d.mapc.waiting = []) {k j : Nat} (h : j ≠ k) :
    (d.repairRelease k).repairSlot j = d.repairSlot j := by
  rw [Dev.repairRelease_of_none hw]
  exact Tab.get_erase_other _ h _

theorem Dev.mapRepair_of_free {d : Dev} {k : Nat} (bad : List Nat) (h : (d.repairSlot k).valid = false) : d.mapRepair k bad = d.rebuildMeta := by
  have hfree : (d.rebuildMeta.repairSlot k).valid = false := h
  simp [Dev.mapRepair, hfree]

/-- A repair rewrites entries in DRAM and ends their marks, then releases its slot. -/
theorem Dev.mapRepair_releases {d : Dev} {k : Nat} (bad : List Nat) (h : (d.repairSlot k).valid = true) :
    ∃ e : Dev, d.mapRepair k bad = e.repairRelease k ∧ e.mapc = d.mapc ∧ e.drove = d.drove := by
  have hused : (d.rebuildMeta.repairSlot k).valid = true := h
  simp only [Dev.mapRepair, hused, Bool.not_true, Bool.false_eq_true, if_false]
  exact ⟨_, rfl, Dev.foldl_keeps Dev.mapc _ (by intros; rfl) _ _, Dev.foldl_keeps Dev.drove _ (by intros; rfl) _ _⟩

/-! ### The statement -/

theorem exec_mapcLookup (diu : BitVec 36) (s : State) :
    exec (.mapcLookup diu) s =
      s.apply fun d => if d.diuOk diu.toNat then d.mapcIssue { diu := diu.toNat, op := 0, new := 0, old := 0 } else d := rfl

theorem exec_mapcUpdate (diu : BitVec 36) (entry : BitVec 40) (s : State) :
    exec (.mapcUpdate diu entry) s =
      s.apply fun d => if d.diuOk diu.toNat then d.mapcIssue { diu := diu.toNat, op := 1, new := entry.toNat, old := 0 } else d := rfl

theorem exec_mapcConditionalUpdate (diu : BitVec 36) (entry : BitVec 40) (source : BitVec 38) (s : State) :
    exec (.mapcConditionalUpdate diu entry source) s =
      s.apply fun d =>
        if d.diuOk diu.toNat then d.mapcIssue { diu := diu.toNat, op := 2, new := entry.toNat, old := source.toNat } else d := rfl

theorem exec_mapCacheFillReturn (line : BitVec 31) (s : State) :
    exec (.mapCacheFillReturn line) s = s.apply fun d => d.fillReturn line.toNat := rfl

theorem exec_mapCacheWritebackAccepted (line : BitVec 31) (s : State) :
    exec (.mapCacheWritebackAccepted line) s = s.apply fun d => d.writebackAccepted line.toNat := rfl

theorem exec_mapcEnableClear (s : State) : exec .mapcEnableClear s = s.apply Dev.mapcDisable := rfl

theorem exec_mapcEnableSet (s : State) : exec .mapcEnableSet s = s.apply Dev.mapcEnable := rfl

theorem exec_mapcFlushDone (s : State) : exec .mapcFlushDone s = s.apply Dev.mapcFlushDone := rfl

theorem exec_clean (s : State) : exec .clean s = s.apply Dev.mapcClean := rfl

theorem exec_repairRelease (k : Fin 4) (s : State) : exec (.repairRelease k) s = s.apply fun d => d.repairRelease k.val := rfl

theorem exec_mapRepair (k : Fin 4) (bad : List (BitVec 38)) (s : State) :
    exec (.mapRepair k bad) s = s.apply fun d => d.mapRepair k.val (bad.map BitVec.toNat) := rfl

/-- A command that gives MAPC an operation on a DIU within the map does what holds of MAPC once it has counted and taken it. -/
theorem does_of_taken {c : Instr} {s : State} {r : MapcReq} {P : Dev → Prop} (hok : s.dev.diuOk r.diu = true)
    (h : exec c s = s.apply fun d => if d.diuOk r.diu then d.mapcIssue r else d)
    (hp : P ((s.dev.counted (min 0xFFFFFFFF (s.dev.mapc.lookups + 1))).mapcTake r)) : Does c s P := by
  refine does_of_exec h ?_
  rwa [hok, if_pos rfl, Dev.mapcIssue_eq, sat_eq_min]

/-- The operations of a disabled cache (R357). -/
theorem does_mapc_disabled (diu : BitVec 36) (entry : BitVec 40) (source : BitVec 38) (s : State) (e : Nat) (hr : MapReady s.dev diu.toNat)
    (hs : s.dev.mapc.state = 0) (hm : ∀ w ∈ entryWords diu.toNat, s.dev.marked (lineAddr (lineOf diu.toNat) + 8 * w) = false)
    (he : e = ofLe (s.dev.bytes (entryAddr diu.toNat) 5)) :
    (Does (.mapcLookup diu) s fun d => MapAnswered d diu.toNat e false ∧ d.mem = s.dev.mem
      ∧ d.mapc.lookups = min 0xFFFFFFFF (s.dev.mapc.lookups + 1))
    ∧ (Does (.mapcUpdate diu entry) s fun d => MapAnswered d diu.toNat e true
      ∧ d.mem = memSetRun (entryAddr diu.toNat) (leBytes 5 entry.toNat) s.dev.mem)
    ∧ (entNames e source.toNat = true → Does (.mapcConditionalUpdate diu entry source) s fun d => MapAnswered d diu.toNat e true
      ∧ d.mem = memSetRun (entryAddr diu.toNat) (leBytes 5 entry.toNat) s.dev.mem)
    ∧ (entNames e source.toNat = false → Does (.mapcConditionalUpdate diu entry source) s fun d => MapAnswered d diu.toNat e false
      ∧ d.mem = s.dev.mem) := by
  have direct : ∀ op new old, DirectReady s.dev { diu := diu.toNat, op := op, new := new, old := old } := fun _ _ _ => ⟨hr, hs, hm⟩
  refine ⟨?_, ?_, fun hn => ?_, fun hn => ?_⟩
  · exact does_of_taken hr.1 (exec_mapcLookup diu s) (Dev.mapcTake_direct_reads (direct ..) he (MapcReq.writes_lookup ..) _)
  · exact does_of_taken hr.1 (exec_mapcUpdate diu entry s) (Dev.mapcTake_direct_writes (direct ..) he (MapcReq.writes_update ..) _)
  · have writes := (MapcReq.writes_conditional diu.toNat entry.toNat e source).trans (if_pos hn)
    exact does_of_taken hr.1 (exec_mapcConditionalUpdate diu entry source s) (Dev.mapcTake_direct_writes (direct ..) he writes _)
  · have keeps := (MapcReq.writes_conditional diu.toNat entry.toNat e source).trans (if_neg (Bool.eq_false_iff.mp hn))
    exact does_of_taken hr.1 (exec_mapcConditionalUpdate diu entry source s)
      ((Dev.mapcTake_direct_reads (direct ..) he keeps _).imp_right And.left)

/-- The operations on a line in a clean or dirty way (R352). -/
theorem does_mapc_hit (diu : BitVec 36) (entry : BitVec 40) (s : State) (k : Nat) (hr : MapReady s.dev diu.toNat) (hs : s.dev.mapc.state = 1)
    (hoff : s.dev.setOff (setOf (lineOf diu.toNat)) = false) (hk : s.dev.findLine (lineOf diu.toNat) = some k)
    (hst : (s.dev.way k).st = .clean ∨ (s.dev.way k).st = .dirty) (hm : (s.dev.way k).marks = []) :
    (Does (.mapcLookup diu) s fun d => MapAnswered d diu.toNat (entryIn (s.dev.way k).data diu.toNat) false ∧ d.mem = s.dev.mem
      ∧ d.mapc.lines = s.dev.mapc.lines)
    ∧ (Does (.mapcUpdate diu entry) s fun d => MapAnswered d diu.toNat (entryIn (s.dev.way k).data diu.toNat) true ∧ d.mem = s.dev.mem
      ∧ d.way k = { s.dev.way k with data := entryPut (s.dev.way k).data diu.toNat entry.toNat, st := .dirty }) := by
  have hit : ∀ op new old, HitReady s.dev k { diu := diu.toNat, op := op, new := new, old := old } := fun _ _ _ => ⟨hr, hs, hoff, hk, hst, hm⟩
  constructor
  · exact does_of_taken hr.1 (exec_mapcLookup diu s) (Dev.mapcTake_hit_reads (hit ..) (MapcReq.writes_lookup ..) _)
  · exact does_of_taken hr.1 (exec_mapcUpdate diu entry s) (Dev.mapcTake_hit_writes (hit ..) (MapcReq.writes_update ..) _)

/-- The return of a fill and the acceptance of a write-back (R355). -/
theorem does_fill_writeback (line : BitVec 31) (s : State) (k : Nat) (hw : s.dev.mapc.waiting = []) (hs : s.dev.mapc.state = 1)
    (hk : s.dev.findLine line.toNat = some k) :
    ((s.dev.way k).st = .filling → s.dev.dramMarks line.toNat = [] → Does (.mapCacheFillReturn line) s fun d =>
      d.way k = { s.dev.way k with st := .clean, data := s.dev.bytes (lineAddr line.toNat) 160, prefetch := false } ∧ d.mem = s.dev.mem)
    ∧ ((s.dev.way k).st ≠ .filling → Gives (.mapCacheFillReturn line) s s.dev)
    ∧ ((s.dev.way k).st = .evicting → (s.dev.way k).marks = [] → Does (.mapCacheWritebackAccepted line) s fun d =>
      d.mem = memSetRun (lineAddr line.toNat) (s.dev.way k).data s.dev.mem
      ∧ (∀ n, (s.dev.way k).next = some n → (d.way k).st = .filling ∧ (d.way k).line = n)
      ∧ ((s.dev.way k).next = none → (d.way k).st = .invalid))
    ∧ ((s.dev.way k).st ≠ .evicting → Gives (.mapCacheWritebackAccepted line) s s.dev) := by
  refine ⟨fun hst hm => ?_, fun hst => ?_, fun hst _ => ?_, fun hst => ?_⟩
  · exact does_of_exec (exec_mapCacheFillReturn line s) (Dev.fillReturn_clean hw hk hst hm)
  · exact gives_of_exec (exec_mapCacheFillReturn line s) (Dev.fillReturn_of_not_filling hk hst)
  · refine does_of_exec (exec_mapCacheWritebackAccepted line s) ?_
    rw [Dev.writebackAccepted_evicting hw (by rw [hs]; decide) hk hst, (Dev.findLine_some hk).2, Dev.way_setWay_refilled]
    refine ⟨by simp, fun n hn => ?_, fun hn => ?_⟩
    · simp [MapLine.refilled, hn]
    · simp [MapLine.refilled, hn, MapLine.init]
  · exact gives_of_exec (exec_mapCacheWritebackAccepted line s) (Dev.writebackAccepted_of_not_evicting hk hst)

/-- ENABLE cleared and set, the end of the flush, and CLEAN (R357, R358). -/
theorem does_enable_flush_clean (s : State) :
    (s.dev.mapc.state = 1 → s.dev.mapc.waiting = [] → Does .mapcEnableClear s fun d => d.mapc.enable = false ∧ d.mapc.state = 2
        ∧ (∀ e ∈ d.mapc.lines, e.2.st = .dirty ∨ e.2.st = .evicting) ∧ d.mem = s.dev.mem)
    ∧ (s.dev.mapc.state = 0 → Does .mapcEnableSet s fun d => d.mapc.enable = true ∧ d.mapc.state = 1
        ∧ d.mapc.lines = [] ∧ d.mem = s.dev.mem)
    ∧ (s.dev.mapc.state ≠ 0 → Gives .mapcEnableSet s s.dev)
    ∧ (s.dev.mapc.state = 2 → s.dev.mapc.lines = [] → Does .mapcFlushDone s fun d => d.mapc = { s.dev.mapc with state := 0, flushDone := true })
    ∧ (s.dev.mapc.lines ≠ [] → Gives .mapcFlushDone s s.dev)
    ∧ (s.dev.mapc.state = 1 → s.dev.mapc.lines.wf = true → Does .clean s fun d => d.mapc.cleanDone = true ∧ (∀ e ∈ d.mapc.lines, e.2.st ≠ .dirty)
        ∧ d.mapc.lines.length = s.dev.mapc.lines.length) := by
  refine ⟨fun hs hw => ?_, fun hs => ?_, fun hs => ?_, fun hs hl => ?_, fun hl => ?_, fun hs w => ?_⟩
  · exact does_of_exec (exec_mapcEnableClear s) (Dev.mapcDisable_keeps hs hw)
  · refine does_of_exec (exec_mapcEnableSet s) ?_
    simp [Dev.mapcEnable, hs]
  · exact gives_of_exec (exec_mapcEnableSet s) (if_neg hs)
  · refine does_of_exec (exec_mapcFlushDone s) ?_
    simp [Dev.mapcFlushDone, hs, hl]
  · exact gives_of_exec (exec_mapcFlushDone s) (if_neg fun h => hl h.2)
  · exact does_of_exec (exec_clean s) (Dev.mapcClean_enabled hs w)

/-- The release of a repair slot, and a repair (R330, R356). -/
theorem does_repair (k : Fin 4) (bad : List (BitVec 38)) (s : State) (hw : s.dev.mapc.waiting = []) :
    (Does (.repairRelease k) s fun d => (d.repairSlot k.val).valid = false
      ∧ (∀ j, j ≠ k.val → d.repairSlot j = s.dev.repairSlot j) ∧ d.mem = s.dev.mem)
    ∧ ((s.dev.repairSlot k.val).valid = false → Gives (.mapRepair k bad) s s.dev.rebuildMeta)
    ∧ ((s.dev.repairSlot k.val).valid = true → Does (.mapRepair k bad) s fun d => (d.repairSlot k.val).valid = false
      ∧ s.dev.mapc.lines = d.mapc.lines ∧ d.drove = s.dev.drove) := by
  refine ⟨?_, fun hv => ?_, fun hv => ?_⟩
  · refine does_of_exec (exec_repairRelease k s) ⟨?_, fun j hj => Dev.repairSlot_repairRelease_other hw hj, ?_⟩
    · rw [Dev.repairSlot_repairRelease hw]; rfl
    · rw [Dev.repairRelease_of_none hw]
  · exact gives_of_exec (exec_mapRepair k bad s) (Dev.mapRepair_of_free _ hv)
  · obtain ⟨e, he, hmapc, hdrove⟩ := Dev.mapRepair_releases (bad.map BitVec.toNat) hv
    have hwe : e.mapc.waiting = [] := by rw [hmapc, hw]
    refine does_of_exec (exec_mapRepair k bad s) ?_
    rw [he, Dev.repairSlot_repairRelease hwe, Dev.repairRelease_of_none hwe]
    exact ⟨rfl, by rw [hmapc], hdrove⟩

/-- Settles O53, by the row's part of the cache: a disabled cache, a way that holds the line, fills and write-backs, ENABLE with the flush and
CLEAN, and the repair slots. -/
theorem mapCache : Obligations.MapCache :=
  ⟨does_mapc_disabled, does_mapc_hit, does_fill_writeback, does_enable_flush_clean, does_repair⟩

end Sys2Proof.Machine
end

section
/-! Bexob laws (R42, R50 to R55, R73, R75): the fields of ESTAT, what entering a trap, ERET and the passing of time leave of a core, and the
instructions that trap, stay or go on. -/

namespace Sys2Proof.Machine

open Sys2Proof.Safety

/-! ### ESTAT (Table 2-5) -/

/-- The number whose fields are those of ESTAT. -/
def estatNum (ppriv : Nat) (pie inTrap ie : Bool) : Nat := ppriv + 4 * bit pie + 8 * bit inTrap + 16 * bit ie

theorem Level.code_lt (l : Level) : l.code < 3 := by cases l <;> decide

theorem bitsOf_ppriv_lt (v : Nat) : bitsOf v 1 0 < 4 := Nat.mod_lt _ (by decide)

theorem estatNum_toNat {p : Nat} (hp : p < 4) (pie t ie : Bool) : (BitVec.ofNat 64 (estatNum p pie t ie)).toNat = estatNum p pie t ie := by
  refine Nat.mod_eq_of_lt ?_
  unfold estatNum bit
  split <;> split <;> split <;> omega

/-- Each field of a number of ESTAT's form. -/
theorem estatNum_fields {p : Nat} (hp : p < 4) (pie t ie : Bool) :
    bitsOf (estatNum p pie t ie) 1 0 = p ∧ bitOf (estatNum p pie t ie) 2 = pie ∧ bitOf (estatNum p pie t ie) 3 = t
      ∧ bitOf (estatNum p pie t ie) 4 = ie := by
  have below : ∀ p < 4, ∀ a b e : Bool, bitsOf (estatNum p a b e) 1 0 = p ∧ bitOf (estatNum p a b e) 2 = a
      ∧ bitOf (estatNum p a b e) 3 = b ∧ bitOf (estatNum p a b e) 4 = e := by decide
  exact below p hp pie t ie

/-- A core whose ESTAT has the form shows its fields. -/
theorem Core.estat_fields {k : Core} {p : Nat} {pie t ie : Bool} (h : k.estat = BitVec.ofNat 64 (estatNum p pie t ie)) (hp : p < 4) :
    k.ppriv = p ∧ k.pie = pie ∧ k.inTrap = t ∧ k.ie = ie := by
  unfold Core.ppriv Core.pie Core.inTrap Core.ie
  rw [h, estatNum_toNat hp]
  exact estatNum_fields hp pie t ie

theorem Core.enterTrap_estat (k : Core) (c : Nat) (t : Trap) (epc : Word) :
    (k.enterTrap c t epc).estat = BitVec.ofNat 64 (estatNum k.level.code k.ie true false) := rfl

theorem Core.eret_estat (k : Core) (l : Level) : (k.eret l).estat = BitVec.ofNat 64 (estatNum k.ppriv k.pie false k.pie) := by
  have : estatNum k.ppriv k.pie false k.pie = k.ppriv + 20 * bit k.pie := by
    cases k.pie <;> rfl
  rw [this]; rfl

/-- The core that takes a trap has taken steps 1 to 5 of R52. -/
theorem Core.entered (k : Core) (c : CoreId) (t : Trap) (epc : Word) : Entered k c t epc (k.enterTrap c.val t epc) := by
  obtain ⟨hp, hpie, ht, hie⟩ := Core.estat_fields (k.enterTrap_estat c.val t epc) (Nat.lt_succ_of_lt k.level.code_lt)
  exact ⟨rfl, rfl, rfl, hp, hpie, ht, hie, rfl, rfl, rfl, rfl⟩

@[simp] theorem Core.inTrap_eret (k : Core) (l : Level) : (k.eret l).inTrap = false := by
  obtain ⟨-, -, hin, -⟩ := Core.estat_fields (k.eret_estat l) (bitsOf_ppriv_lt _)
  exact hin

@[simp] theorem Core.ie_eret (k : Core) (l : Level) : (k.eret l).ie = k.pie := by
  obtain ⟨-, -, -, hie⟩ := Core.estat_fields (k.eret_estat l) (bitsOf_ppriv_lt _)
  exact hie

@[simp] theorem Core.reg_eret (k : Core) (l : Level) (r : BitVec 5) : (k.eret l).reg r = k.reg r := rfl

/-! ### The passing of time (R42, R121) -/

theorem Tab.get_mapVals {α : Type} {f : Nat → α → α} {d : α} {k : Nat} (h : f k d = d) (t : Tab α) :
    (t.mapVals f).get d k = f k (t.get d k) := by
  induction t with
  | nil => exact h.symm
  | cons e t ih =>
    by_cases hk : e.1 = k
    · subst hk; simp [Tab.mapVals, Tab.get]
    · simpa [Tab.mapVals, Tab.get, hk] using ih

/-- A spent time changes at most the running time of the core's module. -/
theorem Core.spend_eq (k : Core) (n : Nat) : k.spend n = { k with modRun := (k.spend n).modRun } := by
  unfold Core.spend; split
  · rfl
  · split <;> rfl

@[simp] theorem Core.spend_zero (k : Core) : k.spend 0 = k := by
  unfold Core.spend; split
  · rfl
  · next m hm => split <;> simp [← hm]

@[simp] theorem Core.spend_run (k : Core) (n : Nat) : (k.spend n).run = k.run := by rw [Core.spend_eq]
@[simp] theorem Core.spend_level (k : Core) (n : Nat) : (k.spend n).level = k.level := by rw [Core.spend_eq]
@[simp] theorem Core.spend_pc (k : Core) (n : Nat) : (k.spend n).pc = k.pc := by rw [Core.spend_eq]
@[simp] theorem Core.spend_epc (k : Core) (n : Nat) : (k.spend n).epc = k.epc := by rw [Core.spend_eq]
@[simp] theorem Core.spend_releasedAt (k : Core) (n : Nat) : (k.spend n).releasedAt = k.releasedAt := by rw [Core.spend_eq]
@[simp] theorem Core.spend_inTrap (k : Core) (n : Nat) : (k.spend n).inTrap = k.inTrap := by rw [Core.spend_eq]; rfl
@[simp] theorem Core.spend_modRun_isSome (k : Core) (n : Nat) : (k.spend n).modRun.isSome = k.modRun.isSome := by
  unfold Core.spend; split
  · rfl
  · next m hm => split <;> simp [hm]

/-- Of a core, the passing of time changes at most the running time of its module. -/
theorem Dev.core_advanceTo (d : Dev) (t c : Nat) : (d.advanceTo t).core c = (d.core c).spend (if d.clk.hold then 0 else t - d.now) := by
  unfold Dev.advanceTo; split
  · simp [Nat.sub_eq_zero_of_le ‹t ≤ d.now›]
  · split
    · simp; rfl
    · exact Tab.get_mapVals (f := fun _ k => k.spend (t - d.now)) (d := Core.init c) rfl d.cores

theorem Dev.run_advanceTo {d : Dev} (h : d.clk.hold = false) (t : Nat) : (d.advanceTo t).run = d.run + (t - d.now) := by
  unfold Dev.advanceTo; split
  · omega
  · simp [h]

theorem Dev.now_advanceTo (d : Dev) (n : Nat) : (d.advanceTo (d.now + n)).now = d.now + n := by
  unfold Dev.advanceTo; split
  · omega
  · split <;> rfl

@[simp] theorem Dev.mem_advanceTo (d : Dev) (t : Nat) : (d.advanceTo t).mem = d.mem := by
  unfold Dev.advanceTo; split
  · rfl
  · split <;> rfl

@[simp] theorem Dev.evt_advanceTo (d : Dev) (t : Nat) : (d.advanceTo t).evt = d.evt := by
  unfold Dev.advanceTo; split
  · rfl
  · split <;> rfl

/-! ### One instruction -/

theorem Dev.core_modCore (d : Dev) (c : Nat) (f : Core → Core) : (d.modCore c f).core c = f (d.core c) := Dev.core_setCore _ _ _

theorem Dev.retireAt_modCore (d : Dev) (c : Nat) (f : Core → Core) (a : Word) :
    (d.modCore c f).retireAt c a = d.setCore c (Core.after (f (d.core c)) a) := by
  simp [Dev.retireAt, Dev.modCore, Core.after]

theorem Dev.retireAt_eq (d : Dev) (c : Nat) (a : Word) : d.retireAt c a = d.setCore c (Core.after (d.core c) a) := rfl

/-- What passes the encoding checks (R73, R75). -/
theorem OpInfo.check_eq_none {i : OpInfo} {f : Fields} {k : CoreKind} {l : Level} :
    i.check f k l = none ↔ i.reserved f = false ∧ k ∈ i.kinds ∧ l ∈ i.levels := by
  unfold OpInfo.check
  split
  · simp [*]
  · split
    · simp_all
    · split <;> simp_all

/-- An instruction that executes passes its level check. -/
theorem level_mem_of_ready {d : Dev} {c : CoreId} {f : Fields} {i : OpInfo} (h : Ready d c f i) : (d.core c.val).level ∈ i.levels := by
  obtain ⟨-, hcheck, -⟩ := h
  obtain ⟨-, -, hlevel⟩ := OpInfo.check_eq_none.mp hcheck
  exact hlevel

theorem level_ne_o_of_ready {d : Dev} {c : CoreId} {f : Fields} {i : OpInfo} (h : Ready d c f i) (ho : .o ∉ i.levels) :
    (d.core c.val).level ≠ .o :=
  fun e => ho (e ▸ level_mem_of_ready h)

/-- The immediate bits that an executing instruction does not use are zero (R73). -/
theorem imm_unused_of_ready {d : Dev} {c : CoreId} {f : Fields} {i : OpInfo} (h : Ready d c f i) : f.imm.toNat &&& (immAll - i.imm) = 0 := by
  obtain ⟨-, hcheck, -⟩ := h
  obtain ⟨hr, -, -⟩ := OpInfo.check_eq_none.mp hcheck
  have hmod : f.imm.toNat % 2 ^ 41 = f.imm.toNat := Nat.mod_eq_of_lt f.imm.isLt
  simp only [OpInfo.reserved, Bool.or_eq_false_iff, bne_eq_false_iff_eq, hmod] at hr
  obtain ⟨-, himm⟩ := hr
  exact himm

/-- A number of 41 bits with none above bit n is below 2 ^ n. -/
theorem lt_two_pow_of_and_eq_zero {x n : Nat} (hx : x < 2 ^ 41) (h : x &&& (immAll - (2 ^ n - 1)) = 0) (hn : n ≤ 41) : x < 2 ^ n := by
  refine Nat.lt_pow_two_of_testBit x fun i hi => ?_
  by_cases h41 : i < 41
  · have hm : immAll - (2 ^ n - 1) = 2 ^ n * (2 ^ (41 - n) - 1) := by
      rw [Nat.mul_sub, ← Nat.pow_add, Nat.add_sub_cancel' hn, immAll]
      have := Nat.two_pow_pos n
      omega
    have hbit := congrArg (Nat.testBit · i) h
    simpa [hm, Nat.testBit_two_pow_mul, Nat.testBit_two_pow_sub_one, hi, show i - n < 41 - n by omega] using hbit
  · exact Nat.testBit_lt_two_pow (Nat.lt_of_lt_of_le hx (Nat.pow_le_pow_right (by decide) (by omega)))

/-- An instruction that is fetched and fails a check traps at its own address. -/
theorem Dev.runInstr_refused {d : Dev} {c : CoreId} {f : Fields} {i : OpInfo} {t : Trap} (body : Except Trap (Dev × After))
    (h : Fetches d c) (hc : i.check f (kindOf c.val) (d.core c.val).level = some t) :
    d.runInstr c.val f i body = d.trap c.val t (d.core c.val).pc := by
  obtain ⟨hrun, hpad, hlim, hstub, hfetch⟩ := h
  have hstub' : ¬ ((d.core c.val).level = .o ∧ (d.core c.val).pc = Config.exitStub) := fun e => hstub e.1 e.2
  simp [Dev.runInstr, Dev.canStep, hrun, hpad, hlim, hstub', hfetch, hc]

/-- An executing instruction that faults outside a trap and above level O enters the trap at its own address. -/
theorem Dev.runInstr_faults {d : Dev} {c : CoreId} {f : Fields} {i : OpInfo} {t : Trap} (h : Ready d c f i) (ht : t.next = false)
    (hin : (d.core c.val).inTrap = false) (hl : (d.core c.val).level ≠ .o) :
    d.runInstr c.val f i (.error t) = d.setCore c.val ((d.core c.val).enterTrap c.val t (d.core c.val).pc) := by
  rw [Dev.runInstr_ready _ h, Dev.finish_fault ht, Dev.trap_enter hin hl]

/-- An executing instruction that changes the core alone and goes on. -/
theorem Dev.runInstr_next {d : Dev} {c : CoreId} {f : Fields} {i : OpInfo} (g : Core → Core) (h : Ready d c f i) :
    d.runInstr c.val f i (.ok (d.modCore c.val g, .next)) = d.setCore c.val (Core.after (g (d.core c.val)) ((d.core c.val).pc + 8)) := by
  obtain ⟨-, -, hdue⟩ := id h
  rw [Dev.runInstr_ready _ h, Dev.finish_next hdue, Dev.retireAt_modCore]

/-- An executing instruction that changes the core alone and continues at an address. -/
theorem Dev.runInstr_jump {d : Dev} {c : CoreId} {f : Fields} {i : OpInfo} (g : Core → Core) (a : Word) (h : Ready d c f i) :
    d.runInstr c.val f i (.ok (d.modCore c.val g, .jump a)) = d.setCore c.val (Core.after (g (d.core c.val)) a) := by
  obtain ⟨-, -, hdue⟩ := id h
  rw [Dev.runInstr_ready _ h, Dev.finish_jump hdue, Dev.retireAt_modCore]

/-- An executing instruction that changes the core alone and stays at its own address. -/
theorem Dev.runInstr_stay {d : Dev} {c : CoreId} {f : Fields} {i : OpInfo} (g : Core → Core) (h : Ready d c f i) :
    d.runInstr c.val f i (.ok (d.modCore c.val g, .stay)) = d.setCore c.val (g (d.core c.val)) := by
  obtain ⟨-, -, hdue⟩ := id h
  rw [Dev.runInstr_ready _ h, Dev.finish_stay hdue]; rfl

/-- A trap outside a trap that does not end a module is entered and nothing else. -/
theorem Dev.trap_calls {d : Dev} {c : Nat} {t : Trap} {epc : Word} (h : (d.core c).inTrap = false) (ht : t.cause = 8 ∨ t.cause = 9) :
    d.trap c t epc = d.setCore c ((d.core c).enterTrap c t epc) := by
  rcases ht with ht | ht <;> simp [Dev.trap, h, ht]

/-- An event trap outside a trap (R50). -/
theorem Dev.takeEvent_enters {d : Dev} {c : Nat} (h : (d.core c).inTrap = false) (n : Nat) :
    d.takeEvent c n =
      d.setCore c ((d.core c).enterTrap c (.fault 9 n (BitVec.ofNat 64 (bitsNum (d.inputs c)))) (d.core c).pc) :=
  Dev.trap_calls h (.inr rfl)

end Sys2Proof.Machine
end

section
/-! The state after reset, and the statement about it. -/

namespace Sys2Proof.Machine

open Sys2Proof.Safety

/-- A table that lists a function on the first numbers reads as that function. -/
theorem Tab.get_range_map {α : Type} (f : Nat → α) (n k : Nat) : Tab.get (f k) ((List.range n).map fun i => (i, f i)) k = f k := by
  induction List.range n with
  | nil => rfl
  | cons i t ih =>
    by_cases h : i = k
    · simp [Tab.get, h]
    · simpa [Tab.get, h] using ih

@[simp] theorem State.core_reset (c : Nat) : State.reset.dev.core c = Core.init c := Tab.get_range_map Core.init 41 c

theorem Core.reg_init (c : Nat) (r : BitVec 5) : (Core.init c).reg r = 0 := by
  by_cases h : r = 0#5
  · subst h; rfl
  · rw [Core.reg_eq _ _ h]; simp [Core.init]

/-- Settles O58: each part of the state at reset as the model initialises it. -/
theorem resetState : Obligations.ResetState := by
  refine ⟨rfl, rfl, fun a => rfl, fun c hc => ?_, rfl, rfl, rfl, rfl, fun q => ⟨rfl, rfl, rfl⟩, rfl, rfl, rfl, rfl⟩
  rw [State.core_reset]
  exact ⟨rfl, Core.reg_init c, rfl⟩

end Sys2Proof.Machine
end

section
/-! Events of the Bexob cores (R48 to R50): WAITEV and its wake, the event trap and the core's timer, and the statement about them. -/

namespace Sys2Proof.Machine

open Sys2Proof.Safety

theorem Core.waitMask_eq (k : Core) (f : Fields) :
    k.waitMask f = (f.imm.toNat % 65536) &&& (if k.level = .o then 0x100 else 0xFFFF) := by
  unfold Core.waitMask; split
  · rfl
  · exact (Nat.and_two_pow_sub_one_of_lt_two_pow (n := 16) (Nat.mod_lt _ (by decide))).symm

/-- WAITEV with an input of its mask asserted, with none asserted, and with a mask of zero outside a trap (R48). -/
theorem gives_waitev (c : CoreId) (f : Fields) (s : State) (m : Nat) (h : Ready s.dev c f { opI 0x60 with rs1 := false, imm := 0xFFFF })
    (hm : (s.dev.core c.val).waitMask f = m) :
    (m ≠ 0 → bitsNum (s.dev.inputs c.val) &&& m ≠ 0 → Gives (.waitev c f) s (s.dev.setCore c.val
      (Core.wrote (s.dev.core c.val) f (BitVec.ofNat 64 (bitsNum (s.dev.inputs c.val) &&& m)))))
    ∧ (m ≠ 0 → bitsNum (s.dev.inputs c.val) &&& m = 0 → Gives (.waitev c f) s (s.dev.setCore c.val
        { s.dev.core c.val with run := .waitev f.rd (BitVec.ofNat 16 m) }))
    ∧ (m = 0 → (s.dev.core c.val).inTrap = false → (s.dev.core c.val).level ≠ .o → Gives (.waitev c f) s (s.dev.setCore c.val
        ((s.dev.core c.val).enterTrap c.val (.fault 1 7 (instrWord 0x60 f)) (s.dev.core c.val).pc))) := by
  refine ⟨fun h0 hv => ?_, fun h0 hv => ?_, fun h0 hin hl => ?_⟩ <;> refine gives_of_exec (execWaitev.eq_1 c f s) ?_ <;> simp only [hm]
  · rw [if_neg h0, if_pos hv, Dev.runInstr_writes _ h]
  · rw [if_neg h0, if_neg (not_not_intro hv), Dev.runInstr_stay _ h]
  · rw [if_pos h0, Dev.runInstr_faults h rfl hin hl]

/-- A stalled WAITEV completes on an input of its mask where no event trap is due (R48). -/
theorem gives_waitevWake (c : CoreId) (s : State) (rd : BitVec 5) (m : BitVec 16) (h : (s.dev.core c.val).run = .waitev rd m)
    (hdue : s.dev.eventDue c.val = none) (hv : bitsNum (s.dev.inputs c.val) &&& m.toNat ≠ 0) :
    Gives (.waitevWake c) s (s.dev.setCore c.val
      { (s.dev.core c.val).setReg rd (BitVec.ofNat 64 (bitsNum (s.dev.inputs c.val) &&& m.toNat)) with
        run := .running, pc := (s.dev.core c.val).pc + 8, instret := (s.dev.core c.val).instret + 1 }) := by
  refine gives_of_exec (execWaitevWake.eq_1 c s) ?_
  simp only [h, hdue, if_neg hv]
  rw [Dev.retireAt_modCore]
  simp [Core.after]

/-- The event trap of an input that EVTRAP selects (R50). -/
theorem gives_eventTrap (c : CoreId) (s : State) (n : Nat) (h : s.dev.eventDue c.val = some n)
    (hi : (s.dev.core c.val).interruptible = true) (hp : s.dev.padOn (corePad c.val) = true) (hin : (s.dev.core c.val).inTrap = false) :
    Gives (.eventTrap c) s (s.dev.setCore c.val
      ((s.dev.core c.val).enterTrap c.val (.fault 9 n (BitVec.ofNat 64 (bitsNum (s.dev.inputs c.val)))) (s.dev.core c.val).pc)) := by
  refine gives_of_exec (execEventTrap.eq_1 c s) ?_
  simp only [h, hi, hp, Bool.and_self, if_true]
  exact Dev.takeEvent_enters hin n

/-- CORE_TIMER brings TIME to TIMERCMP rounded up to a step of TIME (R41, R42). -/
theorem does_coreTimer (c : CoreId) (s : State) (hr : (s.dev.core c.val).run ≠ .inReset) (hh : s.dev.clk.hold = false)
    (ht : (s.dev.core c.val).timercmp.toNat ≤ 2 ^ 64 - 4) :
    Does (.coreTimer c) s fun d => (s.dev.core c.val).timercmp.toNat ≤ d.timeOf c.val ∧ d.mem = s.dev.mem ∧ d.evt = s.dev.evt := by
  refine does_of_exec (execCoreTimer.eq_1 c s) ?_
  have hcap : ¬ 2 ^ 64 ≤ roundUp (s.dev.core c.val).timercmp.toNat 4 := by unfold roundUp; omega
  simp only [hr, hh, hcap, Bool.false_eq_true, or_self, if_false]
  refine ⟨?_, Dev.mem_advanceTo _ _, Dev.evt_advanceTo _ _⟩
  rw [Dev.timeOf, Dev.core_advanceTo, Core.spend_releasedAt, Dev.run_advanceTo hh]
  unfold roundUp
  omega

/-- Settles O7, by the four commands. -/
theorem bexobEvents : Obligations.BexobEvents := by
  refine ⟨fun c f s m h hm => ?_, gives_waitevWake, gives_eventTrap, does_coreTimer⟩
  exact gives_waitev c f s m h (by rw [hm, Core.waitMask_eq])

end Sys2Proof.Machine
end

section
/-! Traps (R52 to R55): entry from outside a trap, a trap in a trap, the faults of the register operations, TRAP, the event trap and ERET, and
the statement about them. -/

namespace Sys2Proof.Machine

open Sys2Proof.Safety

/-- A command that leaves its core in the state of trap entry takes the trap. -/
theorem takes_of_gives {i : Instr} {s : State} {c : CoreId} {k : Core} {t : Trap} {epc : Word}
    (h : Gives i s (s.dev.setCore c.val (k.enterTrap c.val t epc))) : Takes i s c k t epc :=
  ⟨_, k.entered c t epc, h⟩

theorem Dev.trap_outside {d : Dev} {c : Nat} (t : Trap) (epc : Word) (h : (d.core c).inTrap = false) :
    d.trap c t epc =
      if (d.core c).level = .o ∧ t.cause ≠ 8 ∧ t.cause ≠ 9 then (d.setCore c ((d.core c).enterTrap c t epc)).endModule c 1 t.cause 0
      else d.setCore c ((d.core c).enterTrap c t epc) := by
  simp [Dev.trap, h]

theorem Dev.trap_inside {d : Dev} {c : Nat} (t : Trap) (epc : Word) (h : (d.core c).inTrap = true) :
    d.trap c t epc =
      (d.setCore c { d.core c with run := .halted }).post (ownSource c) (coreIdOf c) (t.cause + t.detail * 65536) 0x08 3 := by
  simp [Dev.trap, h, Trap.ecause]

/-- Each register operation is an ALU instruction of its opcode. -/
theorem exec_registerOps :
    ∀ r ∈ registerOps, ∀ (c : CoreId) (f : Fields), ∃ g, ∀ s : State, exec (r.2.1 c f) s = s.apply fun d => d.runAlu c.val f r.1 g := by
  iterate 21 refine List.forall_mem_cons.mpr ⟨fun _ _ => ⟨_, fun _ => rfl⟩, ?_⟩
  exact List.forall_mem_nil _

/-- A register operation that fails a check traps at its own address (R55, R75). -/
theorem takes_registerOp {r : Nat × (CoreId → Fields → Instr) × (Word → Word → Word)} (hr : r ∈ registerOps) (c : CoreId) (f : Fields)
    (s : State) (t : Trap) (h : Fetches s.dev c) (hin : (s.dev.core c.val).inTrap = false) (hl : (s.dev.core c.val).level ≠ .o)
    (hc : (opR r.1).check f (kindOf c.val) (s.dev.core c.val).level = some t) :
    Takes (r.2.1 c f) s c (s.dev.core c.val) t (s.dev.core c.val).pc := by
  obtain ⟨g, hg⟩ := exec_registerOps r hr c f
  refine takes_of_gives (gives_of_exec (hg s) ?_)
  rw [Dev.runAlu, Dev.runInstr_refused _ h hc, Dev.trap_enter hin hl]

/-- TRAP retires and then enters the service-call trap with EPC the next instruction (R86). -/
theorem takes_trap (c : CoreId) (f : Fields) (s : State) (h : Ready s.dev c f { opI 0x65 with rd := false, rs1 := false, imm := 0xFF })
    (hin : (s.dev.core c.val).inTrap = false) (hl : (s.dev.core c.val).level ≠ .o) :
    Takes (.trap c f) s c (Core.after (s.dev.core c.val) ((s.dev.core c.val).pc + 8))
      { cause := 8, detail := f.imm.toNat, tval := instrWord 0x65 f, next := true } ((s.dev.core c.val).pc + 8) := by
  obtain ⟨-, -, hdue⟩ := id h
  have himm : f.imm.toNat % 256 = f.imm.toNat :=
    Nat.mod_eq_of_lt (lt_two_pow_of_and_eq_zero (n := 8) f.imm.isLt (imm_unused_of_ready h) (by decide))
  refine takes_of_gives (gives_of_exec (execTrap.eq_1 c f s) ?_)
  simp only [if_neg hl, Dev.runInstr_ready _ h, Dev.finish, hdue, Bool.not_true, Bool.false_eq_true, if_false, himm, Dev.retireAt_eq]
  rw [Dev.trap_calls (by rw [Dev.core_setCore]; exact hin) (.inl rfl), Dev.core_setCore, Dev.setCore_setCore]

theorem levelOfCode_eq_some {n : Nat} {l : Level} : levelOfCode n = some l ↔ n = l.code := by
  cases l <;> unfold levelOfCode Level.code <;> split <;> simp_all

/-- ERET to a level that the core kind runs. -/
theorem does_eret (c : CoreId) (f : Fields) (s : State)
    (h : Ready s.dev c f ({ opR1 0x66 with rd := false, rs1 := false }.only allKinds [.f, .v])) (l : Level)
    (hcode : (s.dev.core c.val).ppriv = l.code) (hl : l ∈ kindLevels (kindOf c.val)) :
    Does (.eret c f) s fun d => (d.core c.val).level = l ∧ (d.core c.val).pc = (s.dev.core c.val).epc
      ∧ (d.core c.val).ie = (s.dev.core c.val).pie ∧ (d.core c.val).inTrap = false
      ∧ (d.core c.val).regs = (s.dev.core c.val).regs ∧ d = { s.dev with cores := d.cores } := by
  refine does_of_exec (execEret.eq_1 c f s) ?_
  have hlev : (levelOfCode (s.dev.core c.val).ppriv).filter (fun l => (kindLevels (kindOf c.val)).contains l) = some l := by
    simp [levelOfCode_eq_some.mpr hcode, hl]
  simp only [hlev]
  rw [Dev.runInstr_jump (fun k => k.eret l) _ h, Dev.core_setCore]
  exact ⟨rfl, rfl, Core.ie_eret _ l, Core.inTrap_eret _ l, rfl, rfl⟩

/-- ERET to a level that the core kind does not run, or to none. -/
theorem takes_eret (c : CoreId) (f : Fields) (s : State)
    (h : Ready s.dev c f ({ opR1 0x66 with rd := false, rs1 := false }.only allKinds [.f, .v]))
    (hno : ∀ l : Level, (s.dev.core c.val).ppriv = l.code → l ∉ kindLevels (kindOf c.val)) (hin : (s.dev.core c.val).inTrap = false) :
    Takes (.eret c f) s c (s.dev.core c.val) (.fault 1 8 (instrWord 0x66 f)) (s.dev.core c.val).pc := by
  have hv : (s.dev.core c.val).level ≠ .o := level_ne_o_of_ready h (by decide)
  have hlev : (levelOfCode (s.dev.core c.val).ppriv).filter (fun l => (kindLevels (kindOf c.val)).contains l) = none := by
    refine Option.filter_eq_none_iff.mpr fun l hl => ?_
    simpa using hno l (levelOfCode_eq_some.mp hl)
  refine takes_of_gives (gives_of_exec (execEret.eq_1 c f s) ?_)
  simp only [hlev]
  rw [Dev.runInstr_faults h rfl hin hv]

/-- Settles O8: the two cases of a trap, and the instructions that take one. -/
theorem trapEntry : Obligations.TrapEntry := by
  refine ⟨fun d c t epc hin => ⟨_, Core.entered _ c t epc, Dev.trap_outside t epc hin⟩, fun d c t epc hin => Dev.trap_inside t epc hin,
    fun r hr c f s t => takes_registerOp hr c f s t, takes_trap, fun c s n hdue hi hp hin => ?_, fun c f s h => ⟨?_, ?_⟩⟩
  · exact takes_of_gives (gives_eventTrap c s n hdue hi hp hin)
  · exact does_eret c f s h
  · exact takes_eret c f s h

end Sys2Proof.Machine
end

section
/-! Pauses (R43, R84, R85, R465): YIELD, FENCE, REST and what ends them, and the statement about them. -/

namespace Sys2Proof.Machine

open Sys2Proof.Safety

/-- YIELD retires and pauses the core. -/
theorem gives_yield (c : CoreId) (f : Fields) (s : State) (h : Ready s.dev c f { opI 0x63 with rd := false, rs1 := false, imm := 0x3F }) :
    Gives (.yield c f) s (s.dev.setCore c.val (Core.after
      { s.dev.core c.val with run := .yielding (s.dev.run + cyclesNs c.val (f.imm.toNat % 64 + 1)) } ((s.dev.core c.val).pc + 8))) :=
  gives_of_exec (execYield.eq_1 c f s) (Dev.runInstr_next _ h)

/-- A pause ends no earlier than its cycles. -/
theorem does_yieldResume (c : CoreId) (s : State) (t : Nat) (h : (s.dev.core c.val).run = .yielding t) (hh : s.dev.clk.hold = false) :
    Does (.yieldResume c) s fun d =>
      (d.core c.val).run = .running ∧ (d.core c.val).pc = (s.dev.core c.val).pc ∧ t ≤ d.run ∧ d.mem = s.dev.mem := by
  refine does_of_exec (execYieldResume.eq_1 c s) ?_
  simp only [h, hh, Bool.false_eq_true, if_false, Dev.core_modCore, Dev.modCore_run, Dev.modCore_mem, Dev.core_advanceTo, Core.spend_pc,
    Dev.run_advanceTo hh, Dev.mem_advanceTo, true_and, and_true]
  omega

/-- FENCE goes on, or waits for the core's MOVE and parity operations (R84). -/
theorem gives_fence (c : CoreId) (f : Fields) (s : State) (h : Ready s.dev c f { opI 0x64 with rd := false, rs1 := false, imm := 1 }) :
    (f.imm.getLsbD 0 = false ∨ ((s.dev.core c.val).moves = [] ∧ (s.dev.core c.val).pars = []) →
      Gives (.fence c f) s (s.dev.setCore c.val (Core.after (s.dev.core c.val) ((s.dev.core c.val).pc + 8))))
    ∧ (f.imm.getLsbD 0 = true → (s.dev.core c.val).moves ≠ [] ∨ (s.dev.core c.val).pars ≠ [] →
      Gives (.fence c f) s (s.dev.setCore c.val { s.dev.core c.val with run := .fencing })) := by
  have hbit : f.imm.getLsbD 0 = decide (f.imm.toNat % 2 = 1) := by rw [← BitVec.testBit_toNat, Nat.testBit_zero]
  rw [hbit]
  refine ⟨fun hgo => ?_, fun hb hw => ?_⟩ <;> refine gives_of_exec (execFence.eq_1 c f s) ?_
  · obtain ⟨-, -, hdue⟩ := id h
    have hnot : ¬ (f.imm.toNat % 2 = 1 ∧ ((s.dev.core c.val).moves ≠ [] ∨ (s.dev.core c.val).pars ≠ [])) := by
      rintro ⟨h1, h2⟩
      rcases hgo with h0 | ⟨hm, hp⟩
      · exact of_decide_eq_false h0 h1
      · exact h2.elim (· hm) (· hp)
    simp only [if_neg hnot]
    rw [Dev.runInstr_ready _ h, Dev.finish_next hdue, Dev.retireAt_eq]
  · simp only [if_pos (And.intro (of_decide_eq_true hb) hw)]
    exact Dev.runInstr_stay _ h

/-- REST rests the core that PWRMODE arms, and else traps (R43). -/
theorem gives_rest (c : CoreId) (f : Fields) (s : State)
    (h : Ready s.dev c f ({ opR1 0x69 with rd := false, rs1 := false }.only allKinds [.f, .v])) :
    ((s.dev.core c.val).pwrArm = true → (s.dev.core c.val).pwrSelf = 0 → (s.dev.core c.val).pwrSet = 0 →
      Gives (.rest c f) s (s.dev.setCore c.val (Core.after { s.dev.core c.val with run := .resting } ((s.dev.core c.val).pc + 8))))
    ∧ (((s.dev.core c.val).pwrArm = false ∨ (s.dev.core c.val).pwrSelf = 3) → (s.dev.core c.val).inTrap = false →
      Gives (.rest c f) s (s.dev.setCore c.val
        ((s.dev.core c.val).enterTrap c.val (.fault 1 6 (instrWord 0x69 f)) (s.dev.core c.val).pc))) := by
  refine ⟨fun ha hself hset => ?_, fun hbad hin => ?_⟩ <;> refine gives_of_exec (execRest.eq_1 c f s) ?_
  · simp only [ha, hself, hset, Bool.not_true, Bool.false_eq_true, show (0 : Nat) ≠ 3 by decide, or_self, if_false, Dev.restSelf, Dev.restSet,
      if_true]
    exact Dev.runInstr_next (fun k => { k with run := .resting }) h
  · have hv : (s.dev.core c.val).level ≠ .o := level_ne_o_of_ready h (by decide)
    have hfault : (!(s.dev.core c.val).pwrArm) = true ∨ (s.dev.core c.val).pwrSelf = 3 := by simpa using hbad
    simp only [if_pos hfault]
    exact Dev.runInstr_faults h rfl hin hv

/-- A paddock that returns On changes no memory. -/
theorem Dev.mem_wakePad (d : Dev) (p : Nat) : (d.wakePad p).mem = d.mem := by
  unfold Dev.wakePad; split <;> rfl

/-- The mask of the wake clears ARM. -/
theorem pwrArm_cleared (v : Word) : bitOf (v &&& 0xFF03).toNat 16 = false := by
  have hlt : (v &&& 0xFF03).toNat < 2 ^ 16 := by
    rw [BitVec.toNat_and]
    exact Nat.lt_of_le_of_lt Nat.and_le_right (by decide)
  rw [bitOf, Nat.shiftRight_eq_div_pow, Nat.div_eq_of_lt hlt]
  rfl

/-- An asserted input wakes a resting core with ARM clear (R465). -/
theorem does_restWake (c : CoreId) (s : State) (h : (s.dev.core c.val).run = .resting)
    (hv : bitsNum (s.dev.inputs c.val) &&& ((s.dev.core c.val).evtrap.toNat ||| 0x800) ≠ 0) :
    Does (.restWake c) s fun d => (d.core c.val).run = .running ∧ (d.core c.val).pwrArm = false ∧ d.mem = s.dev.mem := by
  refine does_of_exec (execRestWake.eq_1 c s) ?_
  simp only [if_pos (And.intro h hv), Dev.core_modCore, Dev.modCore_mem, Dev.mem_wakePad, true_and, and_true]
  exact pwrArm_cleared _

/-- Settles O10, by the commands that pause a core and end its pause. -/
theorem bexobPauses : Obligations.BexobPauses :=
  ⟨gives_yield, does_yieldResume, gives_fence, gives_rest, does_restWake⟩

end Sys2Proof.Machine
end

section
/-! The end of an O module and its service calls (R56, R59, R101, R121, R122), and the statement about them. -/

namespace Sys2Proof.Machine

open Sys2Proof.Safety

/-! ### The end of a module -/

/-- A block that leaves its e9 request changes the cores alone. -/
theorem Dev.dropE9_eq (d : Dev) (b : Nat) : d.dropE9 b = { d with cores := (d.dropE9 b).cores } := by
  unfold Dev.dropE9; split
  · rfl
  · dsimp only; split <;> rfl

/-- Abandoning a context's transactions writes no memory. -/
theorem Dev.mem_abandonTxns (d : Dev) (p : TxCtx → Bool) : (d.abandonTxns p).mem = d.mem := by
  unfold Dev.abandonTxns
  exact Dev.foldl_keeps Dev.mem Dev.dropE9 (fun d b => by rw [Dev.dropE9_eq]) _ _

/-- Of a context whose transactions are abandoned, those that stay have passed their commit point. -/
theorem Dev.txns_abandonTxns (d : Dev) (p : TxCtx → Bool) :
    (d.abandonTxns p).cfg.txns = d.cfg.txns.filter (fun t => !p t.ctx || t.phase.isApplying) := by
  unfold Dev.abandonTxns
  exact congrArg CfgSt.txns (Dev.foldl_keeps Dev.cfg Dev.dropE9 (fun d b => by rw [Dev.dropE9_eq]) _ _)

theorem Dev.core_complete (d : Dev) (p st dw c : Nat) : (d.complete p st dw).core c = d.core c := by
  obtain ⟨_, _, _, h⟩ := Dev.complete_same d p st dw; rw [h]; rfl

theorem Dev.mem_complete (d : Dev) (p st dw : Nat) : (d.complete p st dw).mem = d.mem := by
  obtain ⟨_, _, _, h⟩ := Dev.complete_same d p st dw; rw [h]

theorem Dev.cfg_complete (d : Dev) (p st dw : Nat) : (d.complete p st dw).cfg = d.cfg := by
  obtain ⟨_, _, _, h⟩ := Dev.complete_same d p st dw; rw [h]

/-- A core once its O module has ended (R56): at V at its trap entry, outside a trap, with the module's pages unmapped. -/
def Core.moduleEnded (k : Core) : Core :=
  { k with modRun := none, modinst := 0, level := .v, pc := k.entry, run := .running, estat := BitVec.ofNat 64 (1 + 20 * bit k.pie),
           pages := k.pages.filter (fun e => e.1 < 128) }

/-- The end of a module: what is left of the device when its transactions are abandoned and its result is held, the core's new state, and
the completion of its Run Module. -/
theorem Dev.endModule_eq {d : Dev} {c : Nat} {m : ModRun} (h : (d.core c).modRun = some m) (ending e : Nat) (st : Word) :
    ∃ d2 : Dev, d2.mem = d.mem
      ∧ d2.cfg.txns = d.cfg.txns.filter (fun t => !(t.ctx.core == c && t.ctx.inst == m.inst) || t.phase.isApplying)
      ∧ d.endModule c ending e st =
          (d2.modCore c Core.moduleEnded).complete m.pen scOk (m.inst + 2 ^ 32 * (ending * 256 + e * 65536)) := by
  unfold Dev.endModule
  rw [h]
  refine ⟨_, ?_, ?_, rfl⟩ <;> split
  · exact Dev.mem_abandonTxns _ _
  · exact Dev.mem_abandonTxns _ _
  · exact Dev.txns_abandonTxns _ _
  · exact Dev.txns_abandonTxns _ _

/-- A core whose module has ended runs none, at level V. -/
theorem Dev.core_endModule {d : Dev} {c : Nat} (h : (d.core c).modRun.isSome = true) (ending e : Nat) (st : Word) :
    ((d.endModule c ending e st).core c).modRun = none ∧ ((d.endModule c ending e st).core c).level = .v := by
  obtain ⟨m, hm⟩ := Option.isSome_iff_exists.mp h
  obtain ⟨d2, -, -, he⟩ := Dev.endModule_eq hm ending e st
  rw [he, Dev.core_complete, Dev.core_modCore]
  exact ⟨rfl, rfl⟩

theorem Dev.mem_endModule {d : Dev} {c : Nat} (h : (d.core c).modRun.isSome = true) (ending e : Nat) (st : Word) :
    (d.endModule c ending e st).mem = d.mem := by
  obtain ⟨m, hm⟩ := Option.isSome_iff_exists.mp h
  obtain ⟨d2, hmem, -, he⟩ := Dev.endModule_eq hm ending e st
  rw [he, Dev.mem_complete, Dev.modCore_mem, hmem]

/-- No transaction of the module that was open stays open (R101). -/
theorem Dev.endModule_closes {d : Dev} {c : Nat} {m : ModRun} (h : (d.core c).modRun = some m) (ending e : Nat) (st : Word) :
    ∀ t ∈ (d.endModule c ending e st).cfg.txns, t.phase = .opened → t.ctx ≠ { core := c, inst := m.inst } := by
  obtain ⟨d2, -, htxns, he⟩ := Dev.endModule_eq h ending e st
  rw [he, Dev.cfg_complete, Dev.modCore_cfg, htxns]
  intro t ht hopen hctx
  simp [hctx, hopen, TxPhase.isApplying] at ht

/-! ### The service calls (Table 2-9) -/

/-- A core with a service call in hand runs a module. -/
theorem Dev.modRun_of_serviceIn {d : Dev} {c n : Nat} (h : d.serviceIn c = some n) : (d.core c).modRun.isSome = true := by
  unfold Dev.serviceIn at h
  dsimp only at h
  split at h
  · next hin =>
    obtain ⟨-, -, -, -, hmod, -⟩ := hin
    exact hmod
  · cases h

theorem Dev.core_serviceReturn (d : Dev) (c : Nat) (v : Word) : (d.serviceReturn c v).core c = ((d.core c).setReg 1 v).eret .o :=
  Dev.core_modCore d c _

/-- A service call that returns from a device on which the core's EPC is that of the call. -/
theorem Dev.serviceReturn_returned {s : State} {c : CoreId} {e : Dev} (h : (e.core c.val).epc = (s.dev.core c.val).epc) (v : Word) :
    ServiceReturned s c (e.serviceReturn c.val v) v := by
  unfold ServiceReturned
  rw [Dev.core_serviceReturn, Core.reg_eret, Core.inTrap_eret, Core.reg_setReg_same _ _ _ (by decide)]
  exact ⟨rfl, h, rfl, rfl⟩

theorem Dev.modRun_serviceReturn (d : Dev) (c : Nat) (v : Word) : ((d.serviceReturn c v).core c).modRun = (d.core c).modRun := by
  rw [Dev.core_serviceReturn]; rfl

/-- A return that leaves the running module as a record. -/
theorem does_serviceReturn {s : State} {c : CoreId} {e : Dev} {v : Word} {m : ModRun} (hepc : (e.core c.val).epc = (s.dev.core c.val).epc)
    (hm : (e.core c.val).modRun = some m) :
    ServiceReturned s c (e.serviceReturn c.val v) v ∧ ((e.serviceReturn c.val v).core c.val).modRun = some m :=
  ⟨Dev.serviceReturn_returned hepc v, by rw [Dev.modRun_serviceReturn, hm]⟩

/-- Call 0 ends the module. -/
theorem does_serviceExit (c : CoreId) (s : State) (h : s.dev.serviceIn c.val = some 0) : Does (.serviceExit c) s fun d =>
    (d.core c.val).modRun = none ∧ (d.core c.val).level = .v ∧ d.mem = s.dev.mem
    ∧ (∀ m, (s.dev.core c.val).modRun = some m → ∀ t ∈ d.cfg.txns, t.phase = .opened → t.ctx ≠ { core := c.val, inst := m.inst }) := by
  have hm := Dev.modRun_of_serviceIn h
  refine does_of_exec (execServiceExit.eq_1 c s) ?_
  rw [if_pos h]
  obtain ⟨hnone, hlevel⟩ := Dev.core_endModule hm 0 0 ((s.dev.core c.val).reg 1)
  exact ⟨hnone, hlevel, Dev.mem_endModule hm _ _ _, fun m hm' => Dev.endModule_closes hm' _ _ _⟩

/-- Call 1 by its four answers: nothing to append, a full buffer, an unreadable byte, and the bytes appended. -/
theorem does_serviceAppend (c : CoreId) (s : State) (m : ModRun) (a n : Nat) (h : s.dev.serviceIn c.val = some 1)
    (hm : (s.dev.core c.val).modRun = some m) (ha : a = ((s.dev.core c.val).reg 1).toNat) (hn : n = ((s.dev.core c.val).reg 2).toNat) :
    (n = 0 → Does (.serviceAppendResult c) s fun d => ServiceReturned s c d 0 ∧ (d.core c.val).modRun = some m)
    ∧ (n ≠ 0 → 65536 < m.result.length + n →
        Does (.serviceAppendResult c) s fun d => ServiceReturned s c d 1 ∧ (d.core c.val).modRun = some m)
    ∧ (n ≠ 0 → m.result.length + n ≤ 65536 → (s.dev.rangeTrap c.val .o a n .load).isSome = true →
        Does (.serviceAppendResult c) s fun d => ServiceReturned s c d 2 ∧ (d.core c.val).modRun = some m)
    ∧ (n ≠ 0 → m.result.length + n ≤ 65536 → s.dev.rangeTrap c.val .o a n .load = none →
        Does (.serviceAppendResult c) s fun d => ServiceReturned s c d 0
          ∧ (d.core c.val).modRun = some { m with result := m.result ++ s.dev.rangeBytes c.val .o a n }) := by
  refine ⟨fun h0 => ?_, fun h0 hfull => ?_, fun h0 hroom htrap => ?_, fun h0 hroom hok => ?_⟩ <;>
    refine does_of_exec (execServiceAppendResult.eq_1 c s) ?_ <;>
    simp only [if_pos h, Dev.serviceAppend, hm, ← ha, ← hn]
  · simp only [if_pos h0]
    exact does_serviceReturn rfl hm
  · simp only [if_neg h0, if_pos hfull]
    exact does_serviceReturn rfl hm
  · simp only [if_neg h0, if_neg (Nat.not_lt.mpr hroom), if_pos htrap]
    exact does_serviceReturn rfl hm
  · simp only [if_neg h0, if_neg (Nat.not_lt.mpr hroom), hok, Option.isSome_none, Bool.false_eq_true, if_false]
    exact does_serviceReturn (by rw [Dev.core_modCore]) (by rw [Dev.core_modCore])

/-- Call 2 returns what is left of the run limit. -/
theorem does_serviceRunLimitQuery (c : CoreId) (s : State) (m : ModRun) (h : s.dev.serviceIn c.val = some 2)
    (hm : (s.dev.core c.val).modRun = some m) :
    Does (.serviceRunLimitQuery c) s fun d => ServiceReturned s c d (BitVec.ofNat 64 ((m.limitUs * 1000 - m.usedNs) / 1000)) := by
  refine does_of_exec (execServiceRunLimitQuery.eq_1 c s) ?_
  simp only [if_pos h, Core.limitLeft, hm]
  exact Dev.serviceReturn_returned rfl _

/-- Call 3 lets the time pass. -/
theorem does_serviceYield (c : CoreId) (us : W32) (s : State) (h : s.dev.serviceIn c.val = some 3)
    (hus : us.toNat ≤ ((s.dev.core c.val).reg 1).toNat) :
    Does (.serviceYield c us) s fun d => ServiceReturned s c d (us.setWidth 64) ∧ d.now = s.dev.now + us.toNat * 1000 := by
  refine does_of_exec (execServiceYield.eq_1 c us s) ?_
  rw [if_pos ⟨h, hus⟩, BitVec.ofNat_toNat]
  refine ⟨Dev.serviceReturn_returned ?_ _, ?_⟩
  · rw [Dev.core_advanceTo, Core.spend_epc]
  · rw [Dev.serviceReturn, Dev.modCore_now, Dev.now_advanceTo]

/-- The run-limit trap outside a trap ends the module (R56, R121). -/
theorem does_runLimitExpiry (c : CoreId) (s : State) (h : (s.dev.core c.val).limitTakes = true) (hh : s.dev.clk.hold = false)
    (hin : (s.dev.core c.val).inTrap = false) :
    Does (.runLimitExpiry c) s fun d => (d.core c.val).modRun = none ∧ (d.core c.val).level = .v := by
  obtain ⟨⟨hl, hm⟩, -⟩ : ((s.dev.core c.val).level = .o ∧ (s.dev.core c.val).modRun.isSome = true) ∧ _ := by
    simpa [Core.limitTakes] using h
  refine does_of_exec (execRunLimitExpiry.eq_1 c s) ?_
  simp only [h, hh, Bool.not_true, Bool.false_eq_true, false_and, or_self, if_false]
  rw [Dev.trap_outside _ _ (by rw [Dev.core_advanceTo, Core.spend_inTrap, hin]), if_pos]
  · refine Dev.core_endModule ?_ _ _ _
    rw [Dev.core_setCore, Dev.core_advanceTo]
    exact (Core.spend_modRun_isSome _ _).trans hm
  · rw [Dev.core_advanceTo, Core.spend_level]
    exact ⟨hl, by simp [Core.limitTrap, Trap.fault]⟩

/-- Settles O12, by the service calls and the run limit. -/
theorem serviceCalls : Obligations.ServiceCalls :=
  ⟨does_serviceExit, does_serviceAppend, does_serviceRunLimitQuery, does_serviceYield, does_runLimitExpiry⟩

end Sys2Proof.Machine
end

section
/-! Run Module (R58, R119, R120): its checks, its place in the queue, and the entry state of a module, and the statement about them. -/

namespace Sys2Proof.Machine

open Sys2Proof.Safety

/-- An admin command that is ready is no orphan. -/
theorem Dev.stage_of_adminReady {d : Dev} {p op : Nat} {x : PenSt} (hx : d.pen p = some x) (h : d.adminReady p op = true) :
    x.stage = .ready := by
  simp only [Dev.adminReady, hx, Bool.and_eq_true, beq_iff_eq] at h
  obtain ⟨⟨-, hstage⟩, -⟩ := h
  exact hstage

/-- Run Module in a pen where it is ready and its function's movers run. -/
theorem Dev.runModule_ready {d : Dev} {p : Nat} {x : PenSt} (hx : d.pen p = some x) (hr : d.adminReady p 0xC1 = true)
    (hm : d.moversHalted x.ctrl = false) (data : Bytes) (fails : TallyFails) :
    d.runModule p data fails =
      if runModuleBad x.dw then d.complete p 0x002 0
      else
        let b := padTo (x.dw 10) data
        let code := d.checkModule b (x.dw 10) (x.dw 11) true
        if code ≠ 0 then
          (if 0x0A ≤ code then d.recordRefusal (moduleEntry 2 code x.ctrl 0 b) fails else d).complete p 0 (2 ^ 32 * (code + 2 * 256))
        else
          let d1 := d.setPen p { x with stage := .external, data := padTo (x.dw 10 + x.dw 11) data }
          { d1 with nvme := { d1.nvme with modQueue := d1.nvme.modQueue ++ [p], seenModules := addOnce b d1.nvme.seenModules } } := by
  simp only [Dev.runModule, hx, hr, hm, Bool.not_true, Bool.false_eq_true, or_self, if_false, scInvalidField, scOk]

/-- Run Module by its fields and by the code of its module's check (R119). -/
theorem does_runModule (p : Pen) (data : Bytes) (fails : TallyFails) (s : State) (x : PenSt) (hx : s.dev.pen p.val = some x)
    (hr : s.dev.adminReady p.val 0xC1 = true) (hm : s.dev.moversHalted x.ctrl = false) :
    (runModuleBad x.dw = true → Does (.runModule p data fails) s (EndedWith p.val x 0x002 0))
    ∧ (runModuleBad x.dw = false → ∀ code, s.dev.checkModule (padTo (x.dw 10) data) (x.dw 10) (x.dw 11) true = code →
        (code ≠ 0 → code < 0x0A → Does (.runModule p data fails) s (EndedWith p.val x 0 (2 ^ 32 * (code + 2 * 256))))
        ∧ (code = 0 → Does (.runModule p data fails) s fun d => d.nvme.modQueue = s.dev.nvme.modQueue ++ [p.val]
            ∧ ∃ y, d.pen p.val = some y ∧ y.stage = .external ∧ y.data = padTo (x.dw 10 + x.dw 11) data)) := by
  have ready := Dev.runModule_ready hx hr hm data fails
  have live : x.stage ≠ .orphan := by rw [Dev.stage_of_adminReady hx hr]; decide
  refine ⟨fun hbad => ?_, fun hgood code hcode => ⟨fun h0 hlow => ?_, fun h0 => ?_⟩⟩ <;>
    refine does_of_exec (execRunModule.eq_1 p data fails s) ?_ <;> rw [ready]
  · rw [if_pos hbad]
    exact Dev.complete_ended _ _ x _ _ hx live
  · simp only [hgood, hcode, if_pos h0, if_neg (Nat.not_le.mpr hlow), Bool.false_eq_true, if_false]
    exact Dev.complete_ended _ _ x _ _ hx live
  · simp only [hgood, hcode, h0, ne_eq, not_true, Bool.false_eq_true, if_false]
    exact ⟨rfl, _, Tab.get?_set_same _ _ _, rfl, rfl⟩

/-- What MODULE_START leaves of its core where the load entry and the counter's entry are recorded (R120). -/
theorem Dev.core_moduleStart {d : Dev} {c p inst : Nat} {rest : List Nat} {x : PenSt} {fl fc : TallyFails} {r q : Dev × Bool} {b : Bytes}
    (hq : d.nvme.modQueue = p :: rest) (hx : d.pen p = some x) (hfree : d.coreFree c = true) (hb : b = x.data.take (x.dw 10))
    (hinst : inst = d.nvme.lastInstance + 1)
    (hr : r = Dev.appendEntry { d with nvme := { d.nvme with modQueue := rest } } (moduleEntry 1 0 x.ctrl inst b) fl) (hr2 : r.2 = true)
    (hc : q = Dev.raiseCounter { r.1 with nvme := { r.1.nvme with lastInstance := inst } } (ModHeader.ofBytes b).componentId
      (ModHeader.ofBytes b).secver (x.ctrl + 1) fc) (hc2 : q.2 = true) :
    ∃ k m, (d.moduleStart c fl fc).core c = Core.enterModule k b (x.data.drop (x.dw 10)).length m
      ∧ m.pen = p ∧ m.ctrl = x.ctrl ∧ m.inst = inst ∧ m.usedNs = 0 := by
  subst hb hinst hr hc
  simp only [Dev.moduleStart, hq, hx, hfree, hr2, hc2, Bool.not_true, Bool.false_eq_true, if_false, Dev.core_modCore]
  exact ⟨_, _, rfl, rfl, rfl, rfl, rfl⟩

/-- The registers of a module at its entry (R58). -/
theorem Core.reg_enterModule (k : Core) (b : Bytes) (n : Nat) (m : ModRun) :
    (k.enterModule b n m).reg 2 = BitVec.ofNat 64 n ∧ (k.enterModule b n m).reg 3 = BitVec.ofNat 64 m.inst
      ∧ (k.enterModule b n m).reg 31 = Config.exitStub := by
  unfold Core.enterModule
  refine ⟨?_, ?_, Core.reg_setReg_same _ _ _ (by decide)⟩
  · rw [Core.reg_setReg_other _ _ _ _ (by decide), Core.reg_setReg_other _ _ _ _ (by decide), Core.reg_setReg_other _ _ _ _ (by decide),
      Core.reg_setReg_same _ _ _ (by decide)]
  · rw [Core.reg_setReg_other _ _ _ _ (by decide), Core.reg_setReg_other _ _ _ _ (by decide), Core.reg_setReg_same _ _ _ (by decide)]

/-- Settles O21: the command by its checks, and the start of the oldest waiting module by its entry state. -/
theorem runModule : Obligations.RunModule := by
  refine ⟨does_runModule, fun c fl fc s p rest x r q d0 b inst hq hx hfree hb hinst hd0 hr hr2 hc hc2 => ?_⟩
  subst hd0
  obtain ⟨k, m, hcore, hpen, hctrl, hi, hused⟩ := Dev.core_moduleStart hq hx hfree hb hinst hr hr2 hc hc2
  refine does_of_exec (execModuleStart.eq_1 c fl fc s) ?_
  obtain ⟨hlen, hreg3, hstub⟩ := k.reg_enterModule b (x.data.drop (x.dw 10)).length m
  rw [hcore, hlen, hreg3, hstub, hi]
  exact ⟨rfl, rfl, rfl, rfl, rfl, congrArg (BitVec.ofNat 64) hi, rfl, rfl, m, rfl, hpen, hctrl, hused⟩

end Sys2Proof.Machine
end

section
/-! Little-endian bytes (R543): the bytes of a number, and the number of a byte list. -/

namespace Sys2Proof.Machine

@[simp] theorem length_leBytes (n v : Nat) : (leBytes n v).length = n := by
  induction n generalizing v with
  | zero => rfl
  | succ n ih => simp [leBytes, ih]

theorem getElem_leBytes {n v i : Nat} (h : i < (leBytes n v).length) : (leBytes n v)[i] = BitVec.ofNat 8 (v / 256 ^ i) := by
  induction n generalizing v i with
  | zero => simp [leBytes] at h
  | succ n ih =>
    cases i with
    | zero => simp [leBytes]
    | succ i => simp only [leBytes, List.getElem_cons_succ, ih, Nat.pow_succ', Nat.div_div_eq_div_mul]

theorem ofLe_lt (b : Bytes) : ofLe b < 256 ^ b.length := by
  induction b with
  | nil => simp [ofLe]
  | cons x b ih =>
    have := x.isLt
    simp only [ofLe, List.length_cons, Nat.pow_succ]
    omega

theorem ofNat_ofLe_cons (x : Byte) (b : Bytes) : BitVec.ofNat 8 (ofLe (x :: b)) = x := by
  apply BitVec.eq_of_toNat_eq
  have := x.isLt
  rw [BitVec.toNat_ofNat, ofLe]
  omega

theorem ofLe_cons_div (x : Byte) (b : Bytes) : ofLe (x :: b) / 256 = ofLe b := by
  have := x.isLt
  rw [ofLe]
  omega

/-- The bytes of the number that a byte list gives are that list. -/
theorem leBytes_ofLe (b : Bytes) : leBytes b.length (ofLe b) = b := by
  induction b with
  | nil => rfl
  | cons x b ih => rw [List.length_cons, leBytes, ofNat_ofLe_cons, ofLe_cons_div, ih]

/-- Byte i of a number is bits [8i+7:8i] of its word. -/
theorem extractLsb'_eq_ofNat_div (x : Word) (i : Nat) : x.extractLsb' (8 * i) 8 = BitVec.ofNat 8 (x.toNat / 256 ^ i) := by
  apply BitVec.eq_of_toNat_eq
  rw [BitVec.extractLsb'_toNat, Nat.shiftRight_eq_div_pow, Nat.pow_mul, BitVec.toNat_ofNat]

/-- Byte i of the word of eight bytes is the list's entry i. -/
theorem extractLsb'_ofNat_ofLe {b : Bytes} (hb : b.length = 8) {i : Nat} (h : i < b.length) :
    (BitVec.ofNat 64 (ofLe b)).extractLsb' (8 * i) 8 = b[i] := by
  have hlt : ofLe b < 2 ^ 64 := by
    have := ofLe_lt b
    rwa [hb] at this
  have hbyte := getElem_leBytes (v := ofLe b) (n := b.length) (i := i) (by simpa using h)
  rw [extractLsb'_eq_ofNat_div, BitVec.toNat_ofNat, Nat.mod_eq_of_lt hlt, ← hbyte]
  simp only [leBytes_ofLe]

end Sys2Proof.Machine
end

section
/-! The integer operations of Table 3-3 (R77): each result as the table states it, and the statement about the register operations. -/

namespace Sys2Proof.Machine

open Sys2Proof.Safety

/-! ### Results of two registers -/

theorem toNat_and_63 (y : Word) : (y &&& 63).toNat = y.toNat % 64 := by
  rw [BitVec.toNat_and]
  exact Nat.and_two_pow_sub_one_eq_mod y.toNat 6

/-- An arithmetic right shift divides by a power of two, rounding down. -/
theorem sshiftRight_eq_ofInt_div (x : Word) (n : Nat) : x.sshiftRight n = BitVec.ofInt 64 (x.toInt / 2 ^ n) := by
  rw [BitVec.sshiftRight, Int.shiftRight_eq_div_pow]; rfl

theorem alusll_eq (x y : Word) : alusll x y = x <<< (y &&& 63) := by
  rw [alusll, BitVec.shiftLeft_eq', toNat_and_63]

theorem alusrl_eq (x y : Word) : alusrl x y = x >>> (y &&& 63) := by
  rw [alusrl, BitVec.ushiftRight_eq', toNat_and_63]

theorem alusra_eq (x y : Word) : alusra x y = BitVec.ofInt 64 (x.toInt / 2 ^ (y &&& 63).toNat) := by
  rw [alusra, toNat_and_63, sshiftRight_eq_ofInt_div]

/-- Where equal numbers give equal results, a strict comparison chooses as a weak one. -/
theorem ite_int_lt_eq_ite_le {α : Type} {a b : Int} {p q : α} (h : a = b → p = q) : (if a < b then p else q) = if a ≤ b then p else q := by
  rcases Int.lt_trichotomy a b with hlt | he | hgt
  · rw [if_pos hlt, if_pos (Int.le_of_lt hlt)]
  · rw [if_neg (by omega), if_pos (Int.le_of_eq he), h he]
  · rw [if_neg (by omega), if_neg (Int.not_le.mpr hgt)]

theorem alumin_eq (x y : Word) : alumin x y = if x.sle y then x else y := by
  simp only [alumin, BitVec.sle, decide_eq_true_eq]
  exact ite_int_lt_eq_ite_le BitVec.toInt_inj.mp

theorem alumax_eq (x y : Word) : alumax x y = if x.sle y then y else x := by
  simp only [alumax, BitVec.sle, decide_eq_true_eq]
  exact ite_int_lt_eq_ite_le fun h => (BitVec.toInt_inj.mp h).symm

theorem aluminu_eq (x y : Word) : aluminu x y = if x ≤ y then x else y := by
  simp only [aluminu, BitVec.le_def, ← Int.ofNat_lt, ← Int.ofNat_le]
  exact ite_int_lt_eq_ite_le fun h => BitVec.toNat_inj.mp (Int.ofNat_inj.mp h)

theorem alumaxu_eq (x y : Word) : alumaxu x y = if x ≤ y then y else x := by
  simp only [alumaxu, BitVec.le_def, ← Int.ofNat_lt, ← Int.ofNat_le]
  exact ite_int_lt_eq_ite_le fun h => (BitVec.toNat_inj.mp (Int.ofNat_inj.mp h)).symm

theorem alumul_eq (x y : Word) : alumul x y = x * y := BitVec.eq_of_toNat_eq rfl

theorem aludiv_eq (x y : Word) : aludiv x y = if y = 0 then -1 else x.sdiv y := by
  have hdiv : BitVec.ofInt 64 (x.toInt.tdiv y.toInt) = x.sdiv y :=
    BitVec.eq_of_toInt_eq (by rw [BitVec.toInt_sdiv, BitVec.toInt_ofInt])
  rw [aludiv, hdiv]; rfl

theorem aludivu_eq (x y : Word) : aludivu x y = if y = 0 then -1 else x / y := by
  rw [aludivu, ← BitVec.toNat_udiv, BitVec.ofNat_toNat, BitVec.setWidth_eq]; rfl

theorem alurem_eq (x y : Word) : alurem x y = if y = 0 then x else x.srem y := by
  rw [alurem, ← BitVec.toInt_srem, BitVec.ofInt_toInt]; rfl

theorem aluremu_eq (x y : Word) : aluremu x y = if y = 0 then x else x % y := by
  rw [aluremu, ← BitVec.toNat_umod, BitVec.ofNat_toNat, BitVec.setWidth_eq]; rfl

/-! ### Results of one register -/

theorem leadingFalse_eq_findIdx (l : List Bool) : leadingFalse l = l.findIdx id := by
  induction l with
  | nil => rfl
  | cons b l ih => cases b <;> simp [leadingFalse, List.findIdx_cons, ih]

theorem wordBits_length (x : Word) : (wordBits x).length = 64 := by simp [wordBits]

theorem wordBits_getElem (x : Word) (i : Nat) (h : i < (wordBits x).length) : (wordBits x)[i] = x.getLsbD i := by simp [wordBits]

/-- The count of leading false entries of 64 stands before the first true one. -/
theorem leadingFalse_spec {l : List Bool} (hl : l.length = 64) (v : Word) (hv : v = BitVec.ofNat 64 (leadingFalse l)) :
    v.toNat ≤ 64 ∧ (∀ i, (h : i < l.length) → i < v.toNat → l[i] = false) ∧ ((h : v.toNat < l.length) → l[v.toNat] = true) := by
  have hle : l.findIdx id ≤ l.length := List.findIdx_le_length
  have hn : v.toNat = l.findIdx id := by
    rw [hv, leadingFalse_eq_findIdx, BitVec.toNat_ofNat, Nat.mod_eq_of_lt (by omega)]
  simp only [hn]
  refine ⟨by omega, fun i _ hi => ?_, fun h => List.findIdx_getElem (p := id) (w := h)⟩
  simpa using List.not_of_lt_findIdx hi

theorem aluctz_spec (x : Word) : (aluctz x).toNat ≤ 64 ∧ (∀ i, i < (aluctz x).toNat → x.getLsbD i = false)
    ∧ ((aluctz x).toNat < 64 → x.getLsbD (aluctz x).toNat = true) := by
  obtain ⟨hle, hlow, hone⟩ := leadingFalse_spec (wordBits_length x) (aluctz x) rfl
  simp only [wordBits_length, wordBits_getElem] at hlow hone
  exact ⟨hle, fun i hi => hlow i (by omega) hi, hone⟩

theorem aluclz_spec (x : Word) : (aluclz x).toNat ≤ 64 ∧ (∀ i, 64 - (aluclz x).toNat ≤ i → x.getLsbD i = false)
    ∧ ((aluclz x).toNat < 64 → x.getLsbD (63 - (aluclz x).toNat) = true) := by
  have hl : (wordBits x).reverse.length = 64 := by rw [List.length_reverse, wordBits_length]
  obtain ⟨hle, hhigh, hone⟩ := leadingFalse_spec hl (aluclz x) rfl
  simp only [hl, List.getElem_reverse, wordBits_length, wordBits_getElem] at hhigh hone
  refine ⟨hle, fun i hi => ?_, hone⟩
  by_cases h64 : i < 64
  · have h := hhigh (63 - i) (by omega) (by omega)
    rwa [show 64 - 1 - (63 - i) = i by omega] at h
  · exact BitVec.getLsbD_of_ge x i (by omega)

theorem countOnes_eq_countP (n v : Nat) : countOnes n v = (List.range n).countP v.testBit := by
  induction n generalizing v with
  | zero => rfl
  | succ n ih =>
    rw [countOnes, ih, List.range_succ_eq_map, List.countP_cons, List.countP_map, Nat.testBit_zero, Nat.add_comm]
    have hshift : (v.testBit ∘ Nat.succ) = (v / 2).testBit := funext fun i => Nat.testBit_succ v i
    rw [hshift]
    rcases Nat.mod_two_eq_zero_or_one v with h | h <;> simp [h]

theorem alupopc_toNat (x : Word) : (alupopc x).toNat = countOnes 64 x.toNat := by
  have hcount : (wordBits x).countP (fun b => b) = countOnes 64 x.toNat := by
    rw [countOnes_eq_countP, wordBits, List.countP_map]; rfl
  have hle : (wordBits x).countP (fun b => b) ≤ (wordBits x).length := List.countP_le_length
  rw [wordBits_length] at hle
  rw [alupopc, BitVec.toNat_ofNat, Nat.mod_eq_of_lt (by omega), hcount]

theorem alubswap_spec (x : Word) (i : Nat) (h : i < 8) : (alubswap x).extractLsb' (8 * i) 8 = x.extractLsb' (56 - 8 * i) 8 := by
  rw [alubswap, extractLsb'_ofNat_ofLe (by simp) (by simpa using h), List.getElem_reverse, getElem_leBytes, ← extractLsb'_eq_ofNat_div]
  simp only [length_leBytes]
  congr 1
  omega

/-! ### The statement -/

/-- A register operation whose function agrees with a table's result is that operation of the table. -/
theorem exec_alu {i : Instr} {s : State} {c op : Nat} {f : Fields} {g r : Word → Word → Word}
    (h : exec i s = s.apply fun d => d.runAlu c f op g) (hg : ∀ x y, g x y = r x y) : exec i s = s.apply fun d => d.runAlu c f op r := by
  rw [h, show g = r from funext fun x => funext (hg x)]

/-- Each register operation computes the result of Table 3-3. -/
theorem exec_registerOps_result :
    ∀ r ∈ registerOps, ∀ (c : CoreId) (f : Fields) (s : State), exec (r.2.1 c f) s = s.apply fun d => d.runAlu c.val f r.1 r.2.2 := by
  simp only [registerOps, List.forall_mem_cons]
  refine ⟨?add, ?sub, ?and, ?or, ?xor, ?sll, ?srl, ?sra, ?slt, ?sltu, ?min, ?max, ?minu, ?maxu, ?mul, ?mulh, ?mulhu, ?div, ?divu, ?rem, ?remu,
    List.forall_mem_nil _⟩
  case sll => exact fun c f s => exec_alu rfl alusll_eq
  case srl => exact fun c f s => exec_alu rfl alusrl_eq
  case sra => exact fun c f s => exec_alu rfl alusra_eq
  case min => exact fun c f s => exec_alu rfl alumin_eq
  case max => exact fun c f s => exec_alu rfl alumax_eq
  case minu => exact fun c f s => exec_alu rfl aluminu_eq
  case maxu => exact fun c f s => exec_alu rfl alumaxu_eq
  case mul => exact fun c f s => exec_alu rfl alumul_eq
  case div => exact fun c f s => exec_alu rfl aludiv_eq
  case divu => exact fun c f s => exec_alu rfl aludivu_eq
  case rem => exact fun c f s => exec_alu rfl alurem_eq
  case remu => exact fun c f s => exec_alu rfl aluremu_eq
  all_goals exact fun c f s => rfl

/-- Each operation on the bits of one register computes a result of Table 3-3. -/
theorem exec_bitOps_result :
    ∀ r ∈ bitOps, ∃ g : Word → Word, (∀ x, r.2.2 x (g x)) ∧
      ∀ (c : CoreId) (f : Fields) (s : State), exec (r.2.1 c f) s = s.apply fun d => d.runAlu1 c.val f r.1 g := by
  simp only [bitOps, List.forall_mem_cons]
  exact ⟨⟨aluclz, aluclz_spec, fun _ _ _ => rfl⟩, ⟨aluctz, aluctz_spec, fun _ _ _ => rfl⟩, ⟨alupopc, alupopc_toNat, fun _ _ _ => rfl⟩,
    ⟨alubswap, alubswap_spec, fun _ _ _ => rfl⟩, List.forall_mem_nil _⟩

/-- Settles O1: an operation that executes writes its result, and the result is the table's. -/
theorem bexobRegisterOperations : Obligations.BexobRegisterOperations := by
  refine ⟨fun r hr c f s h => ?_, fun r hr c f s h => ?_⟩
  · exact gives_of_exec (exec_registerOps_result r hr c f s) (Dev.runInstr_writes _ h)
  · obtain ⟨g, hg, hexec⟩ := exec_bitOps_result r hr
    exact ⟨_, gives_of_exec (hexec c f s) (Dev.runInstr_writes _ h), hg _⟩

end Sys2Proof.Machine
end

section
/-! The immediate operations (R74, R77), and the statement about them. -/

namespace Sys2Proof.Machine

open Sys2Proof.Safety

/-- The shift amount of an immediate (R77). -/
theorem toNat_imm_and_63 (i : BitVec 41) : (i &&& 63).toNat = (zext41 i).toNat % 64 := by
  rw [BitVec.toNat_and, zext41, BitVec.zeroExtend, BitVec.toNat_setWidth_of_le (by decide)]
  exact Nat.and_two_pow_sub_one_eq_mod i.toNat 6

theorem alusll_imm (x : Word) (i : BitVec 41) : alusll x (zext41 i) = x <<< (i &&& 63) := by
  rw [alusll, BitVec.shiftLeft_eq', toNat_imm_and_63]

theorem alusrl_imm (x : Word) (i : BitVec 41) : alusrl x (zext41 i) = x >>> (i &&& 63) := by
  rw [alusrl, BitVec.ushiftRight_eq', toNat_imm_and_63]

theorem alusra_imm (x : Word) (i : BitVec 41) : alusra x (zext41 i) = BitVec.ofInt 64 (x.toInt / 2 ^ (i &&& 63).toNat) := by
  rw [alusra, toNat_imm_and_63, sshiftRight_eq_ofInt_div]

theorem alului_eq (i : BitVec 41) : alului i = BitVec.ofNat 64 (i.toNat * 2 ^ 23) := by
  apply BitVec.eq_of_toNat_eq
  rw [alului, zext41, BitVec.zeroExtend, BitVec.toNat_shiftLeft, BitVec.toNat_setWidth_of_le (by decide), Nat.shiftLeft_eq, BitVec.toNat_ofNat]

/-- Each immediate operation computes its result of pc, rs1 and imm41. -/
theorem exec_immediateOps_result :
    ∀ r ∈ immediateOps, ∀ (c : CoreId) (f : Fields) (s : State), exec (r.2.1 c f) s =
      s.apply fun d => d.runInstr c.val f r.1 (d.writes c.val f (r.2.2 (d.core c.val).pc (d.x c.val f) f.imm)) := by
  simp only [immediateOps, List.forall_mem_cons]
  refine ⟨?addi, ?andi, ?ori, ?xori, ?slli, ?srli, ?srai, ?slti, ?sltiu, ?lui, ?auipc, List.forall_mem_nil _⟩
  case slli => intro c f s; simp only [← alusll_imm]; rfl
  case srli => intro c f s; simp only [← alusrl_imm]; rfl
  case srai => intro c f s; simp only [← alusra_imm]; rfl
  case lui => intro c f s; simp only [← alului_eq]; rfl
  all_goals exact fun c f s => rfl

/-- Settles O2: an operation that executes writes its result. -/
theorem bexobImmediateOperations : Obligations.BexobImmediateOperations :=
  fun r hr c f s h => gives_of_exec (exec_immediateOps_result r hr c f s) (Dev.runInstr_writes _ h)

end Sys2Proof.Machine
end

section
/-! Branches and jumps (R78), and the statement about them. -/

namespace Sys2Proof.Machine

open Sys2Proof.Safety

theorem eventDue_of_ready {d : Dev} {c : CoreId} {f : Fields} {i : OpInfo} (h : Ready d c f i) : d.eventDue c.val = none := by
  obtain ⟨-, -, hdue⟩ := h
  exact hdue

/-- A branch whose condition agrees with the table's is that branch of the table. -/
theorem exec_branch {i : Instr} {s : State} {c op : Nat} {f : Fields} {g r : Word → Word → Bool}
    (h : exec i s = s.apply fun d => d.runBranch c f op g) (hg : ∀ x y, g x y = r x y) :
    exec i s = s.apply fun d => d.runBranch c f op r := by
  rw [h, show g = r from funext fun x => funext (hg x)]

/-- Each branch tests the condition of its row. -/
theorem exec_branchOps_result :
    ∀ r ∈ branchOps, ∀ (c : CoreId) (f : Fields) (s : State), exec (r.2.1 c f) s = s.apply fun d => d.runBranch c.val f r.1 r.2.2 := by
  simp only [branchOps, List.forall_mem_cons]
  refine ⟨?beq, ?bne, ?blt, ?bge, ?bltu, ?bgeu, List.forall_mem_nil _⟩
  case bne => exact fun c f s => exec_branch rfl fun x y => (decide_not (p := x = y)).symm
  case bge => exact fun c f s => exec_branch rfl fun x y => by simp [BitVec.slt, ← decide_not]
  case bgeu => exact fun c f s => exec_branch rfl fun x y => by simp [BitVec.ult, ← decide_not]
  all_goals exact fun c f s => rfl

/-- A branch that executes continues at its target or at the next instruction. -/
theorem Dev.runBranch_ready {d : Dev} {c : CoreId} {f : Fields} {op : Nat} (g : Word → Word → Bool) (h : Ready d c f (opS op)) :
    d.runBranch c.val f op g = d.setCore c.val (Core.after (d.core c.val)
      (if g (d.x c.val f) (d.y c.val f) then (d.core c.val).pc + f.imm.signExtend 64 * 8 else (d.core c.val).pc + 8)) := by
  have hdue := eventDue_of_ready h
  rw [Dev.runBranch, Dev.runInstr_ready _ h]
  split
  · rw [Dev.finish_jump hdue, Dev.retireAt_eq]; rfl
  · rw [Dev.finish_next hdue, Dev.retireAt_eq]

/-- JAL writes the next instruction's address and continues at its target. -/
theorem gives_jal (c : CoreId) (f : Fields) (s : State) (h : Ready s.dev c f { opI 0x36 with rs1 := false }) :
    Gives (.jal c f) s (s.dev.setCore c.val (Core.after ((s.dev.core c.val).setReg f.rd ((s.dev.core c.val).pc + 8))
      ((s.dev.core c.val).pc + f.imm.signExtend 64 * 8))) :=
  gives_of_exec (execJal.eq_1 c f s) (Dev.runInstr_jump _ _ h)

/-- The low three bits of an address are zero where it is a multiple of 8. -/
theorem extractLsb'_low_three_eq_zero (t : Word) : t.extractLsb' 0 3 = 0 ↔ t.toNat % 8 = 0 := by
  rw [← BitVec.toNat_inj, BitVec.extractLsb'_toNat]; rfl

/-- JALR to an aligned target and, outside a trap and above level O, to an unaligned one. -/
theorem gives_jalr (c : CoreId) (f : Fields) (s : State) (t : Word) (h : Ready s.dev c f (opI 0x37))
    (ht : t = (s.dev.core c.val).reg f.rs1 + f.imm.signExtend 64) :
    (t.extractLsb' 0 3 = 0 → Gives (.jalr c f) s (s.dev.setCore c.val
      (Core.after ((s.dev.core c.val).setReg f.rd ((s.dev.core c.val).pc + 8)) t)))
    ∧ (t.extractLsb' 0 3 ≠ 0 → (s.dev.core c.val).inTrap = false → (s.dev.core c.val).level ≠ .o →
        Gives (.jalr c f) s (s.dev.setCore c.val
          ((s.dev.core c.val).enterTrap c.val (.fault 4 2 t) (s.dev.core c.val).pc))) := by
  have hx : s.dev.x c.val f + sext41 f.imm = t := ht.symm
  rw [ne_eq, extractLsb'_low_three_eq_zero]
  refine ⟨fun h0 => ?_, fun h0 hin hl => ?_⟩ <;> refine gives_of_exec (execJalr.eq_1 c f s) ?_ <;> simp only [hx]
  · rw [if_neg (not_not_intro h0)]
    exact Dev.runInstr_jump _ _ h
  · rw [if_pos h0]
    exact Dev.runInstr_faults h rfl hin hl

/-- Settles O3, by the branches and the two jumps. -/
theorem bexobBranches : Obligations.BexobBranches :=
  ⟨fun r hr c f s h => gives_of_exec (exec_branchOps_result r hr c f s) (Dev.runBranch_ready _ h), gives_jal, gives_jalr⟩

end Sys2Proof.Machine
end

section
/-! Loads of byte memory (R79), and the statement about them. -/

namespace Sys2Proof.Machine

open Sys2Proof.Safety

@[simp] theorem Dev.length_bytes (d : Dev) (a n : Nat) : (d.bytes a n).length = n := by
  have hrun : ∀ m k, (memRun m k n).length = n := by
    induction n with
    | zero => exact fun _ _ => rfl
    | succ n ih => exact fun m k => congrArg (· + 1) (ih m (k + 1))
  exact hrun d.mem a

/-- The extension of a loaded value is that of the number its bytes give. -/
theorem loadExtend_eq (signed : Bool) {b : Bytes} (hb : 0 < b.length) :
    loadExtend signed b = if signed then (BitVec.ofNat (8 * b.length) (ofLe b)).signExtend 64 else BitVec.ofNat 64 (ofLe b) := by
  cases signed with
  | false => rfl
  | true =>
    have hlt : ofLe b < 2 ^ (8 * b.length) := by
      rw [Nat.pow_mul]; exact ofLe_lt b
    have hn : (BitVec.ofNat (8 * b.length) (ofLe b)).toNat = ofLe b := by rw [BitVec.toNat_ofNat, Nat.mod_eq_of_lt hlt]
    have hpow : 2 ^ (8 * b.length) = 2 * 2 ^ (8 * b.length - 1) := by rw [← Nat.pow_succ']; congr 1; omega
    simp only [loadExtend, Bool.true_and, decide_eq_true_eq, if_true, BitVec.signExtend, BitVec.toInt, hn]
    split
    · rw [if_neg (by omega)]; push_cast; rfl
    · rw [if_pos (by omega)]; rfl

/-- A load of byte memory in a word without a mark, at an aligned address that the level may read. -/
theorem Dev.load_mem {d : Dev} {c a n m : Nat} {lv : Level} (ha : a % n = 0) (hacc : d.access c lv a .load = .ok (.mem m))
    (hm : d.marked m = false) : d.load c lv a n = .ok (d, ofLe (d.bytes m n)) := by
  simp [Dev.load, ha, hacc, hm]

/-- A load that executes writes the extended bytes at its address. -/
theorem Dev.runLoad_ready {d : Dev} {c : CoreId} {f : Fields} {op n a m : Nat} (signed : Bool) (h : Ready d c f (opI op)) (hn : 0 < n)
    (ha : a = d.dataAddr c.val f) (hal : a % n = 0) (hacc : d.access c.val (d.core c.val).level a .load = .ok (.mem m))
    (hm : d.marked m = false) :
    d.runLoad c.val f op n signed = d.setCore c.val (Core.wrote (d.core c.val) f
      (if signed then (BitVec.ofNat (8 * n) (ofLe (d.bytes m n))).signExtend 64 else BitVec.ofNat 64 (ofLe (d.bytes m n)))) := by
  have hbytes : leBytes n (ofLe (d.bytes m n)) = d.bytes m n := by
    have := leBytes_ofLe (d.bytes m n)
    rwa [Dev.length_bytes] at this
  have hext := loadExtend_eq signed (b := d.bytes m n) (by simpa using hn)
  rw [Dev.length_bytes] at hext
  rw [Dev.runLoad, ← ha, Dev.load_mem hal hacc hm]
  simp only [hbytes]
  rw [hext, Dev.runInstr_writes _ h]

/-- Each load is one of its bytes and extension; for the 8 bytes of LD both extensions are the value itself. -/
theorem exec_loadOps_result :
    ∀ r ∈ loadOps, 0 < r.2.2.1 ∧ ∀ (c : CoreId) (f : Fields) (s : State),
      exec (r.2.1 c f) s = s.apply fun d => d.runLoad c.val f r.1 r.2.2.1 r.2.2.2 := by
  simp only [loadOps, List.forall_mem_cons]
  refine ⟨?ld, ?lw, ?lwu, ?lh, ?lhu, ?lb, ?lbu, List.forall_mem_nil _⟩
  case ld =>
    refine ⟨by decide, fun c f s => ?_⟩
    have : ∀ v, loadExtend true (leBytes 8 v) = loadExtend false (leBytes 8 v) := by
      intro v
      rw [loadExtend_eq _ (by simp), loadExtend_eq _ (by simp), length_leBytes]
      exact BitVec.signExtend_eq _
    simp only [Dev.runLoad, this]
    rfl
  all_goals exact ⟨by decide, fun c f s => rfl⟩

/-- Settles O4: a load that executes writes the extended bytes at its address. -/
theorem bexobLoads : Obligations.BexobLoads := by
  intro r hr c f s a m h ha hal hacc hm
  obtain ⟨hn, hexec⟩ := exec_loadOps_result r hr
  exact gives_of_exec (hexec c f s) (Dev.runLoad_ready _ h hn ha hal hacc hm)

end Sys2Proof.Machine
end

section
/-! Messages between cores (R82), and the statement about them. -/

namespace Sys2Proof.Machine

open Sys2Proof.Safety

/-- An executing instruction that changes the device goes on at the next instruction. -/
theorem Dev.runInstr_next_of {d d1 : Dev} {c : CoreId} {f : Fields} {i : OpInfo} (h : Ready d c f i) :
    d.runInstr c.val f i (.ok (d1, .next)) = d1.setCore c.val (Core.after (d1.core c.val) ((d.core c.val).pc + 8)) := by
  rw [Dev.runInstr_ready _ h, Dev.finish_next (eventDue_of_ready h), Dev.retireAt_eq]

/-- An executing instruction that changes the device and then writes rd. -/
theorem Dev.runInstr_writes_of {d d1 : Dev} {c : CoreId} {f : Fields} {i : OpInfo} (v : Word) (h : Ready d c f i)
    (hpc : (d1.core c.val).pc = (d.core c.val).pc) :
    d.runInstr c.val f i (d1.writes c.val f v) = d1.setCore c.val (Core.wrote (d1.core c.val) f v) := by
  rw [Dev.writes, Dev.runInstr_next_of h, Dev.setRd, Dev.core_modCore, Dev.modCore, Dev.setCore_setCore, Core.wrote, hpc]

theorem Dev.core_modCore_pc (d : Dev) (c j : Nat) (g : Core → Core) (hg : ∀ k, (g k).pc = k.pc) :
    ((d.modCore j g).core c).pc = (d.core c).pc := by
  by_cases h : c = j
  · subst h; rw [Dev.core_modCore, hg]
  · rw [Dev.modCore, Dev.core_setCore_other _ h]

/-- An executing instruction that changes its core and then writes rd. -/
theorem Dev.runInstr_modCore_writes {d : Dev} {c : CoreId} {f : Fields} {i : OpInfo} (g : Core → Core) (v : Word) (h : Ready d c f i)
    (hg : ∀ k, (g k).pc = k.pc) :
    d.runInstr c.val f i ((d.modCore c.val g).writes c.val f v) = d.setCore c.val (Core.wrote (g (d.core c.val)) f v) := by
  rw [Dev.runInstr_writes_of v h (d.core_modCore_pc c.val c.val g hg), Dev.core_modCore, Dev.modCore, Dev.setCore_setCore]

/-- A core number names its core. -/
theorem coreOfId_coreIdOf {t : Nat} (h : t < 41) : coreOfId (coreIdOf t) = some t := by
  have below : ∀ t < 41, coreOfId (coreIdOf t) = some t := by decide
  exact below t h

theorem coreIdOf_lt {t : Nat} (h : t < 41) : coreIdOf t < 65536 := by
  have below : ∀ t < 41, coreIdOf t < 65536 := by decide
  exact below t h

/-- A message to a core joins its queue, finds it full, or finds its paddock not On. -/
theorem Dev.msgSend_core (d : Dev) (c : Nat) {t : Nat} (p : W32) (h : t < 41) :
    d.msgSend c (coreIdOf t) p =
      if d.padOn (corePad t) = false then (d, 2)
      else if 16 ≤ (d.core t).msgs.length then (d, 1)
      else (d.modCore t (fun k => { k with msgs := k.msgs ++ [{ sender := BitVec.ofNat 16 (coreIdOf c), payload := p }] }), 0) := by
  simp only [Dev.msgSend, if_neg (Nat.not_le.mpr (coreIdOf_lt h)), coreOfId_coreIdOf h, Bool.not_eq_true']

/-- A number that names no core has no queue. -/
theorem Dev.msgSend_none (d : Dev) (c : Nat) {x : Nat} (p : W32) (h : ∀ t < 41, x ≠ coreIdOf t) : d.msgSend c x p = (d, 2) := by
  have hnone : coreOfId x = none := by
    refine List.find?_eq_none.mpr fun t ht => ?_
    simpa using (h t (List.mem_range.mp ht)).symm
  simp [Dev.msgSend, hnone]

/-- MSGSEND to a core, by the state of its queue and paddock. -/
theorem gives_msgsend_core (c : CoreId) (f : Fields) (s : State) (t : Nat) (h : Ready s.dev c f ((opR 0x61).only allKinds [.f, .v]))
    (ht : t < 41) (hx : ((s.dev.core c.val).reg f.rs1).toNat = coreIdOf t) :
    (s.dev.padOn (corePad t) = true → (s.dev.core t).msgs.length < 16 → ∃ d1,
      d1 = s.dev.setCore t { s.dev.core t with msgs := (s.dev.core t).msgs ++
        [{ sender := BitVec.ofNat 16 (coreIdOf c.val), payload := ((s.dev.core c.val).reg f.rs2).setWidth 32 }] }
      ∧ Gives (.msgsend c f) s (d1.setCore c.val (Core.wrote (d1.core c.val) f 0)))
    ∧ (s.dev.padOn (corePad t) = true → 16 ≤ (s.dev.core t).msgs.length →
        Gives (.msgsend c f) s (s.dev.setCore c.val (Core.wrote (s.dev.core c.val) f 1)))
    ∧ (s.dev.padOn (corePad t) = false → Gives (.msgsend c f) s (s.dev.setCore c.val (Core.wrote (s.dev.core c.val) f 2))) := by
  have hsend := s.dev.msgSend_core c.val (BitVec.ofNat 32 (s.dev.y c.val f).toNat) ht
  rw [← hx] at hsend
  refine ⟨fun hon hlen => ⟨_, rfl, gives_of_exec (execMsgsend.eq_1 c f s) ?_⟩, fun hon hlen => gives_of_exec (execMsgsend.eq_1 c f s) ?_,
    fun hoff => gives_of_exec (execMsgsend.eq_1 c f s) ?_⟩
  · rw [if_neg (by simp [hon]), if_neg (by omega), BitVec.ofNat_toNat] at hsend
    simp only [Dev.x, Dev.y, BitVec.ofNat_toNat] at hsend ⊢
    rw [hsend]
    exact Dev.runInstr_writes_of _ h (Dev.core_modCore_pc _ _ _ _ fun _ => rfl)
  · rw [if_neg (by simp [hon]), if_pos hlen] at hsend
    simp only [Dev.x, hsend]
    exact Dev.runInstr_writes _ h
  · rw [if_pos hoff] at hsend
    simp only [Dev.x, hsend]
    exact Dev.runInstr_writes _ h

/-- MSGSEND to a number that names no core. -/
theorem gives_msgsend_none (c : CoreId) (f : Fields) (s : State) (h : Ready s.dev c f ((opR 0x61).only allKinds [.f, .v]))
    (hx : ∀ t < 41, ((s.dev.core c.val).reg f.rs1).toNat ≠ coreIdOf t) :
    Gives (.msgsend c f) s (s.dev.setCore c.val (Core.wrote (s.dev.core c.val) f 2)) := by
  refine gives_of_exec (execMsgsend.eq_1 c f s) ?_
  simp only [Dev.x, Dev.msgSend_none _ _ _ hx]
  exact Dev.runInstr_writes _ h

theorem toNat_append_eq_add {m n : Nat} (x : BitVec m) (y : BitVec n) : (x ++ y).toNat = x.toNat * 2 ^ n + y.toNat := by
  rw [BitVec.toNat_append, ← Nat.shiftLeft_add_eq_or_of_lt y.isLt, Nat.shiftLeft_eq]

/-- The word of a received message: bit 63, the sender in [47:32] and the payload. -/
theorem Msg.word_eq (m : Msg) : m.word = 1#1 ++ 0#15 ++ m.sender ++ m.payload := by
  apply BitVec.eq_of_toNat_eq
  have hs := m.sender.isLt
  have hp := m.payload.isLt
  rw [Msg.word, toNat_append_eq_add, toNat_append_eq_add, BitVec.toNat_ofNat, Nat.mod_eq_of_lt (by omega)]
  simp only [BitVec.reduceAppend, BitVec.toNat_ofNat]
  omega

/-- MSGRECV from an empty queue and from one with entries. -/
theorem gives_msgrecv (c : CoreId) (f : Fields) (s : State) (h : Ready s.dev c f ({ opR1 0x62 with rs1 := false }.only allKinds [.f, .v])) :
    ((s.dev.core c.val).msgs = [] → Gives (.msgrecv c f) s (s.dev.setCore c.val (Core.wrote (s.dev.core c.val) f 0)))
    ∧ (∀ m rest, (s.dev.core c.val).msgs = m :: rest → Gives (.msgrecv c f) s (s.dev.setCore c.val
        (Core.wrote { s.dev.core c.val with msgs := rest } f (1#1 ++ 0#15 ++ m.sender ++ m.payload)))) := by
  have hrecv := fun v => Dev.runInstr_modCore_writes (fun k => { k with msgs := (s.dev.core c.val).msgs.drop 1 }) v h fun _ => rfl
  refine ⟨fun hm => ?_, fun m rest hm => ?_⟩ <;> refine gives_of_exec (execMsgrecv.eq_1 c f s) ((hrecv _).trans ?_)
  · have hk : { s.dev.core c.val with msgs := (s.dev.core c.val).msgs.drop 1 } = s.dev.core c.val := by rw [hm, List.drop_nil, ← hm]
    rw [hk, hm]; rfl
  · rw [hm, ← Msg.word_eq]; rfl

/-- Settles O9, by the two commands. -/
theorem bexobMessages : Obligations.BexobMessages :=
  ⟨gives_msgsend_core, gives_msgsend_none, gives_msgrecv⟩

end Sys2Proof.Machine
end

section
/-! The issue of die operations (R90 to R92): the status of FOP, the queue it joins, and the statement about FOP, FOPC and FOPQ. -/

namespace Sys2Proof.Machine

open Sys2Proof.Safety

/-! ### Queues of dies -/

@[simp] theorem Dev.dieOps_modCore (d : Dev) (c i : Nat) (g : Core → Core) : (d.modCore c g).dieOps i = d.dieOps i := rfl
@[simp] theorem Dev.dieOps_modChan (d : Dev) (c i : Nat) (g : ChanSt → ChanSt) : (d.modChan c g).dieOps i = d.dieOps i := rfl
@[simp] theorem Dev.dieOps_slotUse (d : Dev) (k i : Nat) : (d.slotUse k).dieOps i = d.dieOps i := rfl
@[simp] theorem Dev.core_modDie (d : Dev) (i c : Nat) (g : DieSt → DieSt) : (d.modDie i g).core c = d.core c := rfl
@[simp] theorem Dev.core_modChan (d : Dev) (i c : Nat) (g : ChanSt → ChanSt) : (d.modChan i g).core c = d.core c := rfl

@[simp] theorem Dev.dieOps_modDie_same (d : Dev) (i : Nat) (g : DieSt → DieSt) : (d.modDie i g).dieOps i = (g (d.die i)).ops := by
  simp [Dev.dieOps, Dev.modDie, Dev.die]

theorem Dev.dieOps_modDie_other (d : Dev) {i j : Nat} (h : j ≠ i) (g : DieSt → DieSt) : (d.modDie i g).dieOps j = d.dieOps j := by
  simp [Dev.dieOps, Dev.modDie, Dev.die, Tab.get_set_other _ _ h]

/-- A queued operation joins its die's queue and changes no other queue, no core and no memory. -/
theorem Dev.enqueue_spec (d : Dev) (x : FopDesc) (c : Nat) :
    (∃ o : DieOp, o.desc = x ∧ o.stage = .queued ∧ o.origin = .fop ∧ (d.enqueue x .fop c).dieOps x.die = d.dieOps x.die ++ [o])
    ∧ (∀ i, i ≠ x.die → (d.enqueue x .fop c).dieOps i = d.dieOps i) ∧ (∀ j, (d.enqueue x .fop c).core j = d.core j)
    ∧ (d.enqueue x .fop c).mem = d.mem := by
  unfold Dev.enqueue
  dsimp only
  split
  · exact ⟨⟨_, rfl, rfl, rfl, (Dev.dieOps_slotUse ..).trans (Dev.dieOps_modDie_same ..)⟩,
      fun i hi => (Dev.dieOps_slotUse ..).trans (Dev.dieOps_modDie_other _ hi _), fun _ => rfl, rfl⟩
  · exact ⟨⟨_, rfl, rfl, rfl, Dev.dieOps_modDie_same _ _ _⟩, fun i hi => Dev.dieOps_modDie_other _ hi _, fun _ => rfl, rfl⟩

/-! ### The status of an issue -/

/-- The status of an issue names a condition that holds, or no condition holds and it is 0. -/
theorem Dev.fopStatus_spec (d : Dev) {c : Nat} (x : FopDesc) (hc : 9 ≤ c) :
    fopRefused d c x (d.fopStatus (c - 9) x) ∨ d.fopStatus (c - 9) x = 0 ∧ ∀ n, ¬ fopRefused d c x n := by
  have hdie : (4096 ≤ x.die ∨ x.die / 32 / 4 ≠ c - 9) ↔ (4096 ≤ x.die ∨ droverOf (x.die / 32) ≠ c) := by
    unfold droverOf; omega
  unfold Dev.fopStatus
  simp only [hdie, Bool.or_eq_true, Bool.and_eq_true, Bool.not_eq_true', bne_iff_ne, ne_eq]
  split
  · exact .inl (.inr (.inl ⟨rfl, ‹_›⟩))
  · split
    · exact .inl (.inr (.inr (.inr ⟨rfl, ‹_›⟩)))
    · split
      · next h3 => exact .inl (.inr (.inr (.inl ⟨rfl, by simpa only [or_assoc] using h3⟩)))
      · split
        · exact .inl (.inl ⟨rfl, ‹_›⟩)
        · next h2 h4 h3 h1 =>
          refine .inr ⟨rfl, fun n hn => ?_⟩
          rcases hn with ⟨-, h⟩ | ⟨-, h⟩ | ⟨-, h⟩ | ⟨-, h⟩
          · exact h1 h
          · exact h2 h
          · exact h3 (by simpa only [or_assoc] using h)
          · exact h4 h

theorem Dev.fopStatus_of_free {d : Dev} {c : Nat} {x : FopDesc} (hc : 9 ≤ c) (h : ∀ n, ¬ fopRefused d c x n) : d.fopStatus (c - 9) x = 0 := by
  rcases d.fopStatus_spec x hc with hr | ⟨h0, -⟩
  · exact absurd hr (h _)
  · exact h0

theorem Dev.fopStatus_of_one {d : Dev} {c n : Nat} {x : FopDesc} (hc : 9 ≤ c) (hn : fopRefused d c x n)
    (h : ∀ m, m ≠ n → ¬ fopRefused d c x m) : d.fopStatus (c - 9) x = n := by
  rcases d.fopStatus_spec x hc with hr | ⟨-, hno⟩
  · exact Classical.not_not.mp fun hne => h _ hne hr
  · exact absurd hn (hno n)

theorem ne_zero_of_fopRefused {d : Dev} {c n : Nat} {x : FopDesc} (h : fopRefused d c x n) : n ≠ 0 := by
  rcases h with ⟨h, -⟩ | ⟨h, -⟩ | ⟨h, -⟩ | ⟨h, -⟩ <;> omega

/-! ### FOP -/

/-- Each FOP row issues the operation of its code. -/
theorem exec_fopOps :
    ∀ r ∈ fopOps, ∀ (c : CoreId) (f : Fields) (s : State), exec (r.2 c f) s = s.apply fun d => d.runFop c.val f r.1 := by
  iterate 9 refine List.forall_mem_cons.mpr ⟨fun _ _ _ => rfl, ?_⟩
  exact List.forall_mem_nil _

/-- A core that executes a Drover instruction is a Drover core. -/
theorem drover_of_ready {d : Dev} {c : CoreId} {f : Fields} {i : OpInfo} (h : Ready d c f i) (hk : i.kinds = [.drover]) : 9 ≤ c.val := by
  obtain ⟨-, hcheck, -⟩ := h
  obtain ⟨-, hkind, -⟩ := OpInfo.check_eq_none.mp hcheck
  rw [hk, List.mem_singleton] at hkind
  have hkinds : ∀ n < 9, kindOf n ≠ .drover := by decide
  exact Nat.le_of_not_lt fun hc => hkinds c.val hc hkind

/-- FOP with its descriptor read writes its status and leaves what its issue leaves. -/
theorem Dev.runFop_read {d : Dev} {c : CoreId} {f : Fields} {b : Bytes} (h : Ready d c f ((opR1 0x70).only [.drover] [.v]))
    (hb : d.descriptor c.val (d.core c.val).level (d.x c.val f).toNat = .ok b) :
    d.runFop c.val f (FopDesc.ofBytes b).op = (d.fop c.val (FopDesc.ofBytes b) .fop).1.setCore c.val
      (Core.wrote (d.core c.val) f (BitVec.ofNat 64 (d.fop c.val (FopDesc.ofBytes b) .fop).2)) := by
  have hcore : (d.fop c.val (FopDesc.ofBytes b) .fop).1.core c.val = d.core c.val := by
    unfold Dev.fop; dsimp only; split
    · obtain ⟨-, -, hcores, -⟩ := d.enqueue_spec (FopDesc.ofBytes b) c.val
      exact hcores _
    · rfl
  simp only [Dev.runFop, hb, bne_self_eq_false, Bool.false_and, Bool.false_eq_true, if_false]
  rw [Dev.runInstr_writes_of _ h (by rw [hcore]), hcore]

/-- FOP of a descriptor that nothing refuses, and of one that one condition refuses. -/
theorem fop_outcome {r : Nat × (CoreId → Fields → Instr)} (hr : r ∈ fopOps) (c : CoreId) (f : Fields) (s : State) (b : Bytes) (x : FopDesc)
    (h : Ready s.dev c f ((opR1 0x70).only [.drover] [.v]))
    (hb : s.dev.descriptor c.val (s.dev.core c.val).level ((s.dev.core c.val).reg f.rs1).toNat = .ok b) (hx : x = FopDesc.ofBytes b)
    (hop : x.op = r.1) :
    ((∀ n, ¬ fopRefused s.dev c.val x n) → Does (r.2 c f) s fun d =>
      (d.core c.val) = Core.wrote (s.dev.core c.val) f 0
      ∧ (∃ o : DieOp, o.desc = x ∧ o.stage = .queued ∧ o.origin = .fop ∧ d.dieOps x.die = s.dev.dieOps x.die ++ [o])
      ∧ (∀ i, i ≠ x.die → d.dieOps i = s.dev.dieOps i) ∧ d.mem = s.dev.mem ∧ (∀ j, j ≠ c.val → d.core j = s.dev.core j))
    ∧ (∀ n, fopRefused s.dev c.val x n → (∀ m, m ≠ n → ¬ fopRefused s.dev c.val x m) →
        Gives (r.2 c f) s (s.dev.setCore c.val (Core.wrote (s.dev.core c.val) f (BitVec.ofNat 64 n)))) := by
  have hexec := exec_fopOps r hr
  have hc : 9 ≤ c.val := drover_of_ready h rfl
  have hrun := Dev.runFop_read h hb
  rw [← hx, hop] at hrun
  refine ⟨fun hno => does_of_exec (hexec c f s) ?_, fun n hn hone => gives_of_exec (hexec c f s) ?_⟩
  · rw [hrun, Dev.fop, Dev.fopStatus_of_free hc hno]
    obtain ⟨hjoin, hother, hcores, hmem⟩ := s.dev.enqueue_spec x c.val
    exact ⟨Dev.core_setCore _ _ _, hjoin, hother, hmem, fun j hj => (Dev.core_setCore_other _ hj _).trans (hcores j)⟩
  · rw [hrun, Dev.fop, Dev.fopStatus_of_one hc hn hone]
    simp only [if_neg (ne_zero_of_fopRefused hn)]

/-! ### FOPC and FOPQ -/

theorem FopRec.word_eq (x : FopRec) :
    x.word = BitVec.ofNat 64 (x.tag + 2 ^ 16 * x.die + 2 ^ 32 * x.status + 2 ^ 40 * x.retries + 2 ^ 63) := by
  rw [FopRec.word, Nat.mul_comm x.die, Nat.mul_comm x.status, Nat.mul_comm x.retries]

/-- Collecting the oldest record takes it from its core; other dies' queues and memory stay. -/
theorem Dev.fopCollect_cons {d : Dev} {c : Nat} {x : FopRec} {rest : List FopRec} (h : (d.core c).fopDone = x :: rest) :
    (d.fopCollect c).2 = x.word ∧ (d.fopCollect c).1.core c = { d.core c with fopDone := rest }
      ∧ (∀ i, i ≠ x.die → (d.fopCollect c).1.dieOps i = d.dieOps i) ∧ (d.fopCollect c).1.mem = d.mem := by
  simp only [Dev.fopCollect, h, true_and]
  refine ⟨?_, fun i hi => ?_, ?_⟩ <;> split
  · rw [Dev.core_modChan, Dev.core_modDie, Dev.core_modCore]
  · rw [Dev.core_modDie, Dev.core_modCore]
  · rw [Dev.dieOps_modChan, Dev.dieOps_modDie_other _ hi, Dev.dieOps_modCore]
  · rw [Dev.dieOps_modDie_other _ hi, Dev.dieOps_modCore]
  · rfl
  · rfl

/-- FOPC with no record waiting and with one. -/
theorem fopc_outcome (c : CoreId) (f : Fields) (s : State) (h : Ready s.dev c f ({ opR1 0x71 with rs1 := false }.only [.drover] [.v])) :
    ((s.dev.core c.val).fopDone = [] → Gives (.fopc c f) s (s.dev.setCore c.val (Core.wrote (s.dev.core c.val) f 0)))
    ∧ (∀ x rest, (s.dev.core c.val).fopDone = x :: rest → Does (.fopc c f) s fun d =>
        d.core c.val = Core.wrote { s.dev.core c.val with fopDone := rest } f
          (BitVec.ofNat 64 (x.tag + 2 ^ 16 * x.die + 2 ^ 32 * x.status + 2 ^ 40 * x.retries + 2 ^ 63))
        ∧ (∀ i, i ≠ x.die → d.dieOps i = s.dev.dieOps i) ∧ d.mem = s.dev.mem) := by
  refine ⟨fun hnil => gives_of_exec (execFopc.eq_1 c f s) ?_, fun x rest hx => does_of_exec (execFopc.eq_1 c f s) ?_⟩
  · simp only [Dev.fopCollect, hnil]
    exact Dev.runInstr_writes _ h
  · obtain ⟨hword, hcore, hops, hmem⟩ := Dev.fopCollect_cons hx
    dsimp only
    rw [Dev.runInstr_writes_of _ h (by rw [hcore]), hcore, hword, FopRec.word_eq, Dev.core_setCore]
    exact ⟨rfl, hops, hmem⟩

theorem Dev.fopqCount_eq (d : Dev) (c die : Nat) :
    d.fopqCount c die = if die < 4096 ∧ droverOf (die / 32) = c then BitVec.ofNat 64 (d.dieOps die).length else BitVec.allOnes 64 := by
  unfold Dev.fopqCount
  rw [← ite_not]
  simp only [not_or, Nat.not_le, ne_eq, Classical.not_not]

/-- FOPQ writes the length of a die's queue. -/
theorem gives_fopq (c : CoreId) (f : Fields) (s : State) (h : Ready s.dev c f ((opR1 0x72).only [.drover] [.v])) :
    Gives (.fopq c f) s (s.dev.setCore c.val (Core.wrote (s.dev.core c.val) f
      (if ((s.dev.core c.val).reg f.rs1).toNat < 4096 ∧ droverOf (((s.dev.core c.val).reg f.rs1).toNat / 32) = c.val
       then BitVec.ofNat 64 (s.dev.dieOps ((s.dev.core c.val).reg f.rs1).toNat).length else BitVec.allOnes 64))) := by
  rw [← Dev.fopqCount_eq]
  exact gives_of_exec (execFopq.eq_1 c f s) (Dev.runInstr_writes _ h)

/-- Settles O13, by the three commands. -/
theorem dieOperationIssue : Obligations.DieOperationIssue :=
  ⟨fun _ hr c f s b x h hb hx hop => fop_outcome hr c f s b x h hb hx hop, fopc_outcome, gives_fopq⟩

end Sys2Proof.Machine
end

section
/-! The configuration instructions (R97, R98, R114): what naming a field, reading it and changing a transaction leave, and the statement about
CGET, CVER and CSET. -/

namespace Sys2Proof.Machine

open Sys2Proof.Safety

/-! ### Transactions -/

/-- A change of transactions keeps every part of them that it keeps of each. -/
theorem Dev.map_modTxn {α : Type} (d : Dev) (h : Nat) {g : Txn → Txn} {p : Txn → α} (hg : ∀ t, p (g t) = p t) :
    (d.modTxn h g).cfg.txns.map p = d.cfg.txns.map p := by
  rw [Dev.modTxn, List.map_map]
  refine List.map_congr_left fun t _ => ?_
  simp only [Function.comp_apply]
  split
  · exact hg t
  · rfl

/-- A transaction of the handle that is changed comes from one of that handle. -/
theorem Dev.mem_modTxn {d : Dev} {h : Nat} {g : Txn → Txn} {u : Txn} (hu : u ∈ (d.modTxn h g).cfg.txns)
    (hh : u.handle = h) : ∃ t, u = g t := by
  obtain ⟨t, -, rfl⟩ := List.mem_map.mp hu
  split at hh
  · next ht => exact ⟨t, if_pos ht⟩
  · next ht => exact absurd hh ht

/-- A read of a field changes at most the conflict sets. -/
theorem Dev.noteRead_spec (d : Dev) (c id : Nat) (i : FieldInfo) :
    d.noteRead c id i = { d with cfg := { d.cfg with txns := (d.noteRead c id i).cfg.txns } }
      ∧ (d.noteRead c id i).cfg.txns.map (fun t => (t.handle, t.staged)) = d.cfg.txns.map (fun t => (t.handle, t.staged)) := by
  unfold Dev.noteRead
  split
  · exact ⟨rfl, rfl⟩
  · split
    · exact ⟨rfl, rfl⟩
    · exact ⟨rfl, d.map_modTxn _ fun _ => rfl⟩

@[simp] theorem Dev.core_noteRead (d : Dev) (c id j : Nat) (i : FieldInfo) : (d.noteRead c id i).core j = d.core j := by
  obtain ⟨heq, -⟩ := d.noteRead_spec c id i
  rw [heq]; rfl

/-! ### The field that an operand names -/

/-- Above level O an operand that names a field has it. -/
theorem Dev.cfgField_of_field {d : Dev} {c id : Nat} {x : Word} {i : FieldInfo} (acc : Nat) (hl : (d.core c).level ≠ .o) (hx : x.toNat = id)
    (hid : id < 2 ^ 32) (hf : d.field id = some i) : d.cfgField c x acc = .ok (id, i) := by
  have hperm : d.cfgPermitted c id acc = true := if_pos hl
  simp only [Dev.cfgField, hx, Nat.mod_eq_of_lt hid, if_neg (Nat.not_le.mpr hid), hf, hperm, if_true]

/-- An operand that names no field faults (Table 3-14, detail 2). -/
theorem Dev.cfgField_of_none {d : Dev} (c : Nat) {x : Word} (acc : Nat) (h : 2 ^ 32 ≤ x.toNat ∨ d.field x.toNat = none) :
    d.cfgField c x acc = .error (cfgFault 2 x) := by
  rcases Nat.lt_or_ge x.toNat (2 ^ 32) with hlt | hge
  · have hf : d.field x.toNat = none := h.resolve_left (Nat.not_le.mpr hlt)
    simp only [Dev.cfgField, if_neg (Nat.not_le.mpr hlt), Nat.mod_eq_of_lt hlt, hf]
  · simp only [Dev.cfgField, if_pos hge]

theorem cfgFault_eq {x : Word} {id : Nat} (n : Nat) (hx : x.toNat = id) (hid : id < 2 ^ 32) :
    cfgFault n x = .fault 5 n (BitVec.ofNat 64 id) := by
  rw [cfgFault, hx, Nat.mod_eq_of_lt hid]

/-! ### CGET and CVER -/

theorem Dev.cgetValue_eq (d : Dev) (c id : Nat) :
    d.cgetValue c id = ((d.openTxn c).bind fun t => t.staged.get? id).getD (BitVec.ofNat 64 (d.committed id)) := by
  unfold Dev.cgetValue
  split <;> simp [*]

/-- A field's read writes a value to rd and changes at most the conflict sets. -/
theorem Dev.runInstr_noteRead {d : Dev} {c : CoreId} {f : Fields} {o : OpInfo} (h : Ready d c f o) (id : Nat) (i : FieldInfo) (v : Word) :
    d.runInstr c.val f o ((d.noteRead c.val id i).writes c.val f v) =
      (d.noteRead c.val id i).setCore c.val (Core.wrote (d.core c.val) f v) := by
  rw [Dev.runInstr_writes_of v h (by rw [Dev.core_noteRead]), Dev.core_noteRead]

/-- The device after a field's read: the configuration's values stay, and of its transactions handles and staged values. -/
theorem Dev.noteRead_setCore_spec (d : Dev) (c id : Nat) (i : FieldInfo) (k : Core) :
    ((d.noteRead c id i).setCore c k).core c = k
      ∧ (d.noteRead c id i).setCore c k =
        { d with cores := ((d.noteRead c id i).setCore c k).cores, cfg := { d.cfg with txns := ((d.noteRead c id i).setCore c k).cfg.txns } }
      ∧ ((d.noteRead c id i).setCore c k).cfg.txns.map (fun t => (t.handle, t.staged)) = d.cfg.txns.map (fun t => (t.handle, t.staged)) := by
  obtain ⟨heq, hmap⟩ := d.noteRead_spec c id i
  refine ⟨Dev.core_setCore _ _ _, ?_, hmap⟩
  rw [heq]; rfl

/-- CGET above level O of an operand that names a field. -/
theorem does_cget (c : CoreId) (f : Fields) (s : State) (i : FieldInfo) (id : Nat) (h : Ready s.dev c f (opR1 0x90))
    (hl : (s.dev.core c.val).level ≠ .o) (hx : ((s.dev.core c.val).reg f.rs1).toNat = id) (hid : id < 2 ^ 32)
    (hf : s.dev.field id = some i) :
    Does (.cget c f) s fun d =>
      d.core c.val = Core.wrote (s.dev.core c.val) f
        (((s.dev.openTxn c.val).bind fun t => t.staged.get? id).getD (BitVec.ofNat 64 (s.dev.committed id)))
      ∧ d = { s.dev with cores := d.cores, cfg := { s.dev.cfg with txns := d.cfg.txns } }
      ∧ d.cfg.txns.map (fun t => (t.handle, t.staged)) = s.dev.cfg.txns.map (fun t => (t.handle, t.staged)) := by
  refine does_of_exec (execCget.eq_1 c f s) ?_
  simp only [Dev.x, Dev.cfgField_of_field 0 hl hx hid hf, Dev.cgetValue_eq]
  rw [Dev.runInstr_noteRead h]
  exact Dev.noteRead_setCore_spec _ _ _ _ _

/-- CVER above level O of an operand that names a field. -/
theorem does_cver (c : CoreId) (f : Fields) (s : State) (i : FieldInfo) (id : Nat) (h : Ready s.dev c f (opR1 0x92))
    (hl : (s.dev.core c.val).level ≠ .o) (hx : ((s.dev.core c.val).reg f.rs1).toNat = id) (hid : id < 2 ^ 32)
    (hf : s.dev.field id = some i) :
    Does (.cver c f) s fun d =>
      d.core c.val = Core.wrote (s.dev.core c.val) f (BitVec.ofNat 64 (if i.cls = .ro then 0 else s.dev.cfg.versions.get 0 id))
      ∧ d = { s.dev with cores := d.cores, cfg := { s.dev.cfg with txns := d.cfg.txns } } := by
  refine does_of_exec (execCver.eq_1 c f s) ?_
  simp only [Dev.x, Dev.cfgField_of_field 0 hl hx hid hf]
  rw [Dev.runInstr_noteRead h]
  obtain ⟨hcore, heq, -⟩ := s.dev.noteRead_setCore_spec c.val id i
    (Core.wrote (s.dev.core c.val) f (BitVec.ofNat 64 (if i.cls = .ro then 0 else s.dev.version id)))
  exact ⟨hcore, heq⟩

/-- CGET of an operand that names no field. -/
theorem traps_cget (c : CoreId) (f : Fields) (s : State) (h : Ready s.dev c f (opR1 0x90)) (hl : (s.dev.core c.val).level ≠ .o)
    (hin : (s.dev.core c.val).inTrap = false)
    (hx : 2 ^ 32 ≤ ((s.dev.core c.val).reg f.rs1).toNat ∨ s.dev.field ((s.dev.core c.val).reg f.rs1).toNat = none) :
    Traps (.cget c f) s c (.fault 5 2 (BitVec.ofNat 64 (((s.dev.core c.val).reg f.rs1).toNat % 2 ^ 32))) := by
  refine gives_of_exec (execCget.eq_1 c f s) ?_
  simp only [Dev.x, Dev.cfgField_of_none c.val 0 hx]
  exact Dev.runInstr_faults h rfl hin hl

/-! ### CSET -/

/-- What CSET's transaction has staged. -/
def Dev.stagedOf (d : Dev) (c : Nat) : Tab Word := ((d.openTxn c).map fun t => t.staged).getD []

/-- A transaction `u` once CSET has staged a value in it, where `t` has what was staged before (R98, R542). -/
def Txn.stages (t : Txn) (id : Nat) (v : Word) (u : Txn) : Txn :=
  let used := (acrossIds id).filter fun k => k != id && (t.staged.get? k).isNone
  { u with staged := u.staged.set id v, reads := used.foldl (fun l k => addOnce k l) u.reads }

theorem Dev.csetField_ro {d : Dev} {c id : Nat} {f : Fields} {i : FieldInfo} (hro : i.cls = .ro) :
    d.csetField c f id i = .error (cfgFault 3 (d.x c f)) := if_pos hro

theorem Dev.csetField_outOfLimits {d : Dev} {c id : Nat} {f : Fields} {i : FieldInfo} (hro : i.cls ≠ .ro)
    (hlim : d.outOfLimits (d.stagedOf c) i id (d.y c f).toNat = true) : d.csetField c f id i = .error (cfgFault 4 (d.x c f)) :=
  (if_neg hro).trans (if_pos hlim)

theorem Dev.csetField_within {d : Dev} {c id : Nat} {f : Fields} {i : FieldInfo} (hro : i.cls ≠ .ro)
    (hlim : d.outOfLimits (d.stagedOf c) i id (d.y c f).toNat = false) :
    (d.openTxn c = none → d.csetField c f id i = .error (.fault 6 1 (instrWord 0x91 f)))
    ∧ (∀ t, d.openTxn c = some t → t.staged.length < 256 →
        d.csetField c f id i = .ok (d.modTxn t.handle (t.stages id (d.y c f)), .next)) := by
  have hlim' : ¬ d.outOfLimits (d.stagedOf c) i id (d.y c f).toNat = true := by rw [hlim]; exact Bool.false_ne_true
  refine ⟨fun hno => ?_, fun t ht hlen => ?_⟩ <;> refine (if_neg hro).trans ((if_neg hlim').trans ?_)
  · rw [hno]
  · have hroom : ¬ (256 ≤ t.staged.length ∧ (t.staged.get? id).isNone) := fun e => Nat.not_le.mpr hlen e.1
    rw [ht]
    exact if_neg hroom

/-- CSET above level O: a value staged in the newest transaction, and the faults outside a trap. -/
theorem cset_outcome (c : CoreId) (f : Fields) (s : State) (i : FieldInfo) (id : Nat) (st : Tab Word)
    (h : Ready s.dev c f { opR 0x91 with rd := false }) (hl : (s.dev.core c.val).level ≠ .o)
    (hx : ((s.dev.core c.val).reg f.rs1).toNat = id) (hid : id < 2 ^ 32) (hf : s.dev.field id = some i)
    (hst : st = ((s.dev.openTxn c.val).map (fun t => t.staged)).getD []) :
    (∀ t, s.dev.openTxn c.val = some t → i.cls ≠ .ro → s.dev.outOfLimits st i id ((s.dev.core c.val).reg f.rs2).toNat = false →
      t.staged.length < 256 → Does (.cset c f) s fun d =>
        (∀ u ∈ d.cfg.txns, u.handle = t.handle → u.staged.get? id = some ((s.dev.core c.val).reg f.rs2))
        ∧ d.cfg.txns.map (fun u => u.handle) = s.dev.cfg.txns.map (fun u => u.handle)
        ∧ d.core c.val = Core.after (s.dev.core c.val) ((s.dev.core c.val).pc + 8)
        ∧ d = { s.dev with cores := d.cores, cfg := { s.dev.cfg with txns := d.cfg.txns } })
    ∧ ((s.dev.core c.val).inTrap = false →
        (i.cls = .ro → Traps (.cset c f) s c (.fault 5 3 (BitVec.ofNat 64 id)))
        ∧ (i.cls ≠ .ro → s.dev.outOfLimits st i id ((s.dev.core c.val).reg f.rs2).toNat = true →
            Traps (.cset c f) s c (.fault 5 4 (BitVec.ofNat 64 id)))
        ∧ (i.cls ≠ .ro → s.dev.outOfLimits st i id ((s.dev.core c.val).reg f.rs2).toNat = false → s.dev.openTxn c.val = none →
            Traps (.cset c f) s c (.fault 6 1 (instrWord 0x91 f)))) := by
  subst hst
  have hrun := execCset.eq_1 c f s
  have hfield : s.dev.cfgField c.val (s.dev.x c.val f) 1 = .ok (id, i) := Dev.cfgField_of_field 1 hl hx hid hf
  refine ⟨fun t ht hro hlim hlen => does_of_exec hrun ?_, fun hin => ⟨fun hro => gives_of_exec hrun ?_,
    fun hro hlim => gives_of_exec hrun ?_, fun hro hlim hno => gives_of_exec hrun ?_⟩⟩ <;> simp only [hfield]
  · obtain ⟨-, hstage⟩ := Dev.csetField_within hro hlim
    rw [hstage t ht hlen, Dev.runInstr_next_of h]
    refine ⟨fun u hu hh => ?_, Dev.map_modTxn _ _ fun _ => rfl, Dev.core_setCore _ _ _, rfl⟩
    obtain ⟨t0, rfl⟩ := Dev.mem_modTxn hu hh
    exact Tab.get?_set_same _ _ _
  · rw [Dev.csetField_ro hro, cfgFault_eq (x := s.dev.x c.val f) 3 hx hid, Dev.runInstr_faults h rfl hin hl]
  · rw [Dev.csetField_outOfLimits hro hlim, cfgFault_eq (x := s.dev.x c.val f) 4 hx hid, Dev.runInstr_faults h rfl hin hl]
  · obtain ⟨hclosed, -⟩ := Dev.csetField_within hro hlim
    rw [hclosed hno, Dev.runInstr_faults h rfl hin hl]

/-- Settles O17, by the three instructions. -/
theorem configurationAccess : Obligations.ConfigurationAccess :=
  ⟨does_cget, does_cver, traps_cget, cset_outcome⟩

end Sys2Proof.Machine
end

section
/-! Transactions (R99, R100, R113, R115): opening, abandoning and the commit of one that meets nothing, and the statement about TXB, TXA and
TXC. -/

namespace Sys2Proof.Machine

open Sys2Proof.Safety

/-! ### Tables -/

theorem Tab.get?_foldl_set_of_not_mem {α β : Type} (g : Nat × α → β) {k : Nat} {l : Tab α} (h : k ∉ l.keys) (t : Tab β) :
    (l.foldl (fun (t : Tab β) e => t.set e.1 (g e)) t).get? k = t.get? k := by
  induction l generalizing t with
  | nil => rfl
  | cons e l ih =>
    simp only [Tab.keys, List.map_cons, List.mem_cons, not_or] at h
    obtain ⟨hne, htail⟩ := h
    rw [List.foldl_cons, ih htail, Tab.get?_set_other _ hne]

/-- Setting each entry of a table in its form leaves each of its keys with its own entry's value. -/
theorem Tab.get?_foldl_set {α β : Type} (g : Nat × α → β) {k : Nat} {v : α} {l : Tab α} (w : l.keys.Pairwise (· < ·))
    (h : l.get? k = some v) (t : Tab β) : (l.foldl (fun (t : Tab β) e => t.set e.1 (g e)) t).get? k = some (g (k, v)) := by
  induction l generalizing t with
  | nil => cases h
  | cons e l ih =>
    obtain ⟨j, u⟩ := e
    obtain ⟨hhead, htail⟩ := List.pairwise_cons.mp w
    rw [List.foldl_cons]
    by_cases hj : j = k
    · subst hj
      have hu : u = v := by simpa [Tab.get?] using h
      have hnot : j ∉ Tab.keys l := fun hm => absurd (hhead j hm) (Nat.lt_irrefl j)
      rw [Tab.get?_foldl_set_of_not_mem g hnot, Tab.get?_set_same, hu]
    · exact ih htail (by simpa [Tab.get?, hj] using h) _

/-! ### TXB -/

/-- The next handle is one of 1 to 65,535. -/
theorem CfgSt.nextHandle_bounds (c : CfgSt) : 1 ≤ c.nextHandle ∧ c.nextHandle ≤ 65535 := by
  unfold CfgSt.nextHandle
  cases hfind : List.find? (fun h => !c.txns.any fun t => t.handle == h) ((List.range 16).map fun k => (c.lastHandle + k) % 65535 + 1) with
  | none => exact ⟨Nat.le_refl 1, by decide⟩
  | some h =>
    obtain ⟨k, -, rfl⟩ := List.mem_map.mp (List.mem_of_find?_eq_some hfind)
    rw [Option.getD_some]
    omega

theorem Dev.txBegin_full {d : Dev} (h : 8 ≤ (d.cfg.txns.filter (fun t => t.phase == .opened)).length) (x : TxCtx) (ctrl : Option Nat) (b : Nat) :
    d.txBegin x ctrl b = (d, 0) := if_pos h

/-- The device with one more transaction, under the handle given last. -/
def Dev.withTxn (d : Dev) (t : Txn) : Dev := { d with cfg := { d.cfg with txns := d.cfg.txns ++ [t], lastHandle := t.handle } }

/-- With fewer than 8 transactions open, TXB opens an empty one under the next handle. -/
theorem Dev.txBegin_room {d : Dev} (h : (d.cfg.txns.filter (fun t => t.phase == .opened)).length < 8) (x : TxCtx) (ctrl : Option Nat) (b : Nat) :
    ∃ t : Txn, d.txBegin x ctrl b = (d.withTxn t, t.handle) ∧ t.handle = d.cfg.nextHandle ∧ t.ctx = x ∧ t.phase = .opened
      ∧ t.staged = [] ∧ t.start = d.cfg.counter ∧ t.budgetUs = (if b = 0 then 10000 else min b 1000000) :=
  ⟨_, if_neg (Nat.not_le.mpr h), rfl, rfl, rfl, rfl, rfl, rfl⟩

/-- TXH of a context is the transaction that it opened last. -/
theorem CfgSt.txh_append {c : CfgSt} {l : List Txn} {t : Txn} (h : c.txns = l ++ [t]) (ho : t.phase = .opened) : c.txh t.ctx = t.handle := by
  simp [CfgSt.txh, CfgSt.openOf, h, ho]

/-- TXB with fewer than 8 transactions open, and with 8. -/
theorem txb_outcome (c : CoreId) (f : Fields) (s : State) (h : Ready s.dev c f ((opR1 0x98).only [.shepherd] [.v, .o])) :
    ((s.dev.cfg.txns.filter (fun t => t.phase == .opened)).length < 8 → ∃ h, 1 ≤ h ∧ h ≤ 65535 ∧ Does (.txb c f) s fun d =>
      d.core c.val = Core.wrote (s.dev.core c.val) f (BitVec.ofNat 64 h) ∧ d.cfg.txh (s.dev.ctxOf c.val) = h
      ∧ (∃ t : Txn, d.cfg.txns = s.dev.cfg.txns ++ [t] ∧ t.handle = h ∧ t.staged = [] ∧ t.start = s.dev.cfg.counter
          ∧ t.budgetUs = (if ((s.dev.core c.val).reg f.rs1).toNat = 0 then 10000 else min ((s.dev.core c.val).reg f.rs1).toNat 1000000))
      ∧ d.cfg.committed = s.dev.cfg.committed ∧ d.mem = s.dev.mem)
    ∧ (8 ≤ (s.dev.cfg.txns.filter (fun t => t.phase == .opened)).length →
        Gives (.txb c f) s (s.dev.setCore c.val (Core.wrote (s.dev.core c.val) f 0))) := by
  refine ⟨fun hroom => ?_, fun hfull => gives_of_exec (execTxb.eq_1 c f s) ?_⟩
  · obtain ⟨hlo, hhi⟩ := s.dev.cfg.nextHandle_bounds
    obtain ⟨t, hbegin, hh, hctx, hopen, hstaged, hstart, hbudget⟩ :=
      Dev.txBegin_room hroom (s.dev.ctxOf c.val) (s.dev.txnCtrl c.val) (s.dev.x c.val f).toNat
    refine ⟨t.handle, hh ▸ hlo, hh ▸ hhi, does_of_exec (execTxb.eq_1 c f s) ?_⟩
    simp only [hbegin]
    rw [Dev.runInstr_writes_of (d1 := s.dev.withTxn t) _ h rfl]
    exact ⟨Dev.core_setCore _ _ _, hctx ▸ CfgSt.txh_append rfl hopen, ⟨t, rfl, rfl, hstaged, hstart, hbudget⟩, rfl, rfl⟩
  · simp only [Dev.txBegin_full hfull]
    exact Dev.runInstr_writes _ h

/-! ### TXA -/

theorem Dev.ownHandle_of_open {d : Dev} {c : Nat} {x : Word} {t : Txn} (ht : d.openTxn c = some t) (hx : x.toNat = t.handle) :
    d.ownHandle c x = some t.handle := by
  simp [Dev.ownHandle, ht, hx]

/-- TXA of the context's newest transaction discards it. -/
theorem does_txa (c : CoreId) (f : Fields) (s : State) (t : Txn)
    (h : Ready s.dev c f ({ opR 0x9A with rd := false, rs2 := false }.only [.shepherd] [.v, .o])) (ht : s.dev.openTxn c.val = some t)
    (hx : ((s.dev.core c.val).reg f.rs1).toNat = t.handle) :
    Does (.txa c f) s fun d =>
      d.cfg.txns = s.dev.cfg.txns.filter (fun u => u.handle != t.handle)
      ∧ d.core c.val = Core.after (s.dev.core c.val) ((s.dev.core c.val).pc + 8)
      ∧ d = { s.dev with cores := d.cores, cfg := { s.dev.cfg with txns := d.cfg.txns } } := by
  refine does_of_exec (execTxa.eq_1 c f s) ?_
  simp only [Dev.x, Dev.ownHandle_of_open ht hx]
  have hrun := Dev.runInstr_next_of (d1 := s.dev.dropTxn t.handle) h
  exact hrun.symm ▸ ⟨rfl, Dev.core_setCore _ _ _, rfl⟩

/-! ### The end of a TXC (Table 3-11) -/

/-- A core that stalls in the TXC of a handle, once the outcome is known; another core stays as it is. -/
def Core.txcEnded (h outcome : Nat) (k : Core) : Core :=
  match k.run with
  | .inTxc rd hh =>
    if hh = h then { k.setReg rd (BitVec.ofNat 64 outcome) with pc := k.pc + 8, instret := k.instret + 1, run := .running } else k
  | _ => k

/-- The outcome reaches one core. -/
def Dev.endTxcAt (h outcome : Nat) (d : Dev) (c : Nat) : Dev :=
  match (d.core c).run with
  | .inTxc rd hh =>
    if hh = h then d.modCore c fun k =>
      { k.setReg rd (BitVec.ofNat 64 outcome) with pc := k.pc + 8, instret := k.instret + 1, run := .running } else d
  | _ => d

/-- The outcome counters move (Table 4-5). -/
def Dev.countOutcome (d : Dev) (outcome : Nat) : Dev :=
  { d with cfg := { d.cfg with conflicts := sat 0xFFFF (d.cfg.conflicts + bit (outcome == 1)),
                               drains := sat 0xFFFF (d.cfg.drains + bit (outcome == 2)) } }

theorem Dev.endTxc_eq (d : Dev) (h outcome : Nat) :
    d.endTxc h outcome = ((List.range 41).foldl (Dev.endTxcAt h outcome) (d.dropTxn h)).countOutcome outcome := by
  have hstep : ∃ F : Dev → Nat → Dev, d.endTxc h outcome = ((List.range 41).foldl F (d.dropTxn h)).countOutcome outcome
      ∧ ∀ e c, F e c = Dev.endTxcAt h outcome e c := ⟨_, rfl, fun _ _ => rfl⟩
  obtain ⟨F, hF, hat⟩ := hstep
  rw [hF, show F = Dev.endTxcAt h outcome from funext fun e => funext (hat e)]

@[simp] theorem Dev.core_countOutcome (d : Dev) (outcome c : Nat) : (d.countOutcome outcome).core c = d.core c := rfl

theorem Dev.core_endTxcAt_same (h outcome : Nat) (d : Dev) (c : Nat) :
    (d.endTxcAt h outcome c).core c = (d.core c).txcEnded h outcome := by
  unfold Dev.endTxcAt Core.txcEnded
  split
  · split
    · exact Dev.core_modCore _ _ _
    · rfl
  · rfl

theorem Dev.endTxcAt_eq (h outcome : Nat) (d : Dev) (c : Nat) :
    d.endTxcAt h outcome c = d ∨ ∃ g, d.endTxcAt h outcome c = d.modCore c g := by
  unfold Dev.endTxcAt
  split
  · split
    · exact .inr ⟨_, rfl⟩
    · exact .inl rfl
  · exact .inl rfl

theorem Dev.core_endTxcAt_other (h outcome : Nat) (d : Dev) {c j : Nat} (hj : j ≠ c) : (d.endTxcAt h outcome c).core j = d.core j := by
  rcases d.endTxcAt_eq h outcome c with he | ⟨g, he⟩ <;> rw [he]
  exact Dev.core_setCore_other _ hj _

theorem Dev.core_foldl_endTxcAt (h outcome n : Nat) (d : Dev) (j : Nat) :
    ((List.range n).foldl (Dev.endTxcAt h outcome) d).core j = if j < n then (d.core j).txcEnded h outcome else d.core j := by
  induction n with
  | zero => rfl
  | succ n ih =>
    rw [List.range_succ, List.foldl_append, List.foldl_cons, List.foldl_nil]
    rcases Nat.lt_trichotomy j n with hlt | rfl | hgt
    · rw [Dev.core_endTxcAt_other _ _ _ (by omega), ih, if_pos hlt, if_pos (by omega)]
    · rw [Dev.core_endTxcAt_same, ih, if_neg (Nat.lt_irrefl j), if_pos (Nat.lt_succ_self j)]
    · rw [Dev.core_endTxcAt_other _ _ _ (by omega), ih, if_neg (by omega), if_neg (by omega)]

/-- The outcome of a handle reaches every core. -/
theorem Dev.core_endTxc (d : Dev) (h outcome : Nat) (c : CoreId) : (d.endTxc h outcome).core c.val = (d.core c.val).txcEnded h outcome := by
  rw [Dev.endTxc_eq, Dev.core_countOutcome, Dev.core_foldl_endTxcAt, if_pos c.isLt]
  rfl

/-- A core stalled in the TXC of the handle writes the outcome to rd and goes on. -/
theorem Core.txcEnded_of_stalled {k : Core} {rd : BitVec 5} {h : Nat} (outcome : Nat) (hr : k.run = .inTxc rd h) (hrd : rd ≠ 0) :
    (k.txcEnded h outcome).reg rd = BitVec.ofNat 64 outcome ∧ (k.txcEnded h outcome).run = .running
      ∧ (k.txcEnded h outcome).pc = k.pc + 8 := by
  simp only [Core.txcEnded, hr, if_true, and_true]
  exact Core.reg_setReg_same _ _ _ hrd

/-- The counter, the versions and the committed values of the configuration. -/
def Dev.committedState (d : Dev) : Nat × Tab Nat × Tab Word := (d.cfg.counter, d.cfg.versions, d.cfg.committed)

@[simp] theorem Dev.committedState_countOutcome (d : Dev) (outcome : Nat) : (d.countOutcome outcome).committedState = d.committedState := rfl

theorem Dev.committedState_endTxcAt (h outcome : Nat) (d : Dev) (c : Nat) : (d.endTxcAt h outcome c).committedState = d.committedState := by
  rcases d.endTxcAt_eq h outcome c with he | ⟨g, he⟩ <;> rw [he]
  rfl

theorem Dev.committedState_endTxc (d : Dev) (h outcome : Nat) : (d.endTxc h outcome).committedState = d.committedState := by
  rw [Dev.endTxc_eq, Dev.committedState_countOutcome, Dev.foldl_keeps Dev.committedState _ (Dev.committedState_endTxcAt h outcome)]
  rfl

/-! ### The commit point (Table 4-2, steps 6 to 8) -/

theorem Dev.committedState_endIfApplied (d : Dev) (h : Nat) : (d.endIfApplied h).committedState = d.committedState := by
  unfold Dev.endIfApplied
  split
  · split
    · exact Dev.committedState_endTxc _ _ _
    · rfl
  · rfl

/-- At the commit point of a transaction without a quiescent field the counter rises, and its fields take their staged values under it. -/
theorem Dev.committedState_commitPoint (d : Dev) (t : Txn) (hqs : ∀ id ∈ t.staged.keys, d.isQs id = false) :
    (d.commitPoint t).committedState = (d.cfg.counter + 1,
      t.staged.foldl (fun (v : Tab Nat) e => v.set e.1 (d.cfg.counter + 1))
        (t.staged.foldl (fun d e => d.beginReturned e.1 e.2.toNat) d).cfg.versions,
      t.staged.foldl (fun (v : Tab Word) e => v.set e.1 e.2)
        (t.staged.foldl (fun d e => d.beginReturned e.1 e.2.toNat) d).cfg.committed) := by
  have hnone : t.staged.filter (fun e => d.isQs e.1) = [] :=
    List.filter_eq_nil_iff.mpr fun e he => by simp [hqs e.1 (List.mem_map_of_mem he)]
  unfold Dev.commitPoint
  simp only [hnone]
  rw [Dev.committedState_endIfApplied]
  refine Dev.foldl_keeps Dev.committedState _ (fun d b => ?_) _ _
  split <;> rfl

/-- The commit point of a transaction commits its staged table. -/
theorem Dev.commitPoint_commits {d : Dev} {t : Txn} (w : t.staged.wf = true) (hqs : ∀ id ∈ t.staged.keys, d.isQs id = false) :
    (d.commitPoint t).cfg.counter = d.cfg.counter + 1
      ∧ ∀ id v, t.staged.get? id = some v →
        (d.commitPoint t).cfg.committed.get? id = some v ∧ (d.commitPoint t).cfg.versions.get? id = some (d.cfg.counter + 1) := by
  have hstate := d.committedState_commitPoint t hqs
  simp only [Dev.committedState, Prod.mk.injEq] at hstate
  obtain ⟨hcounter, hversions, hcommitted⟩ := hstate
  refine ⟨hcounter, fun id v hv => ?_⟩
  have hkeys := Tab.keys_pairwise w
  rw [hcommitted, hversions]
  exact ⟨Tab.get?_foldl_set (fun e => e.2) hkeys hv _, Tab.get?_foldl_set (fun _ => d.cfg.counter + 1) hkeys hv _⟩

/-! ### Steps 1 to 5 -/

theorem Dev.crookAllows_of_unneeded {d : Dev} {ids : List Nat} (ctrl : Option Nat) (h : d.needsCrook ids = false) :
    d.crookAllows ctrl ids = true := by
  simp [Dev.crookAllows, h]

/-- A commit that needs no Crook and meets a later version ends with outcome 1. -/
theorem Dev.commitStep2_conflict {d : Dev} {t : Txn} (hc : d.needsCrook t.staged.keys = false)
    (hv : ∃ id ∈ t.staged.keys ++ t.reads, t.start < d.version id) : d.commitStep2 t = d.endTxc t.handle 1 := by
  have hany : (t.staged.keys ++ t.reads).any (fun id => decide (t.start < d.version id)) = true := by
    simpa only [List.any_eq_true, decide_eq_true_eq] using hv
  simp only [Dev.commitStep2, Dev.crookAllows_of_unneeded _ hc, hany, Bool.not_true, Bool.false_eq_true, if_false, if_true]

/-- A commit that commits at once goes from step 1 to its commit point. -/
theorem Dev.commitStep2_at_once {d : Dev} {t : Txn} (h : CommitsAtOnce d t) : d.commitStep2 t = d.commitPoint t := by
  obtain ⟨-, -, hc, hver, hplain⟩ := h
  have hallow : ∀ ctrl, d.crookAllows ctrl t.staged.keys = true := fun ctrl => Dev.crookAllows_of_unneeded ctrl hc
  have hany : (t.staged.keys ++ t.reads).any (fun id => decide (t.start < d.version id)) = false := by
    simpa only [List.any_eq_false, decide_eq_true_eq, Nat.not_lt] using hver
  have hqs : t.staged.filter (fun e => d.isQs e.1) = [] :=
    List.filter_eq_nil_iff.mpr fun e he => by simp [(hplain e.1 (List.mem_map_of_mem he)).1]
  have hps : t.staged.any (fun e => d.isPs e.1) = false :=
    List.any_eq_false.mpr fun e he => by simp [(hplain e.1 (List.mem_map_of_mem he)).2]
  simp only [Dev.commitStep2, Dev.commitStep4, hallow, hany, hqs, hps, Bool.not_true, Bool.false_eq_true, if_false, if_true, List.foldl_nil,
    List.filter_nil]

theorem Dev.commitTry_goes_on {d : Dev} {h : Nat} {t : Txn} (ht : d.txn h = some t) (hp : t.phase = .waiting) (hw : d.mustWait t = false) :
    d.commitTry h = d.commitStep2 t := by
  simp [Dev.commitTry, ht, hp, hw]

/-! ### TXC -/

theorem Dev.txn_modTxn {d : Dev} {h : Nat} {t : Txn} {g : Txn → Txn} (hg : ∀ t, (g t).handle = t.handle) (ht : d.txn h = some t) :
    (d.modTxn h g).txn h = some (g t) := by
  have hh : t.handle = h := by simpa using List.find?_some ht
  have hp : ((fun t : Txn => t.handle == h) ∘ fun t => if t.handle = h then g t else t) = fun t => t.handle == h := by
    funext u
    simp only [Function.comp_apply]
    split
    · rw [hg]
    · rfl
  rw [Dev.txn, Dev.modTxn, List.find?_map, hp]
  have ht' : d.cfg.txns.find? (fun t => t.handle == h) = some t := ht
  rw [ht', Option.map_some, if_pos hh]

/-- Whether a commit waits does not depend on its own transaction. -/
theorem Dev.mustWait_modTxn {d : Dev} {t : Txn} {g : Txn → Txn} (hg : ∀ t, (g t).handle = t.handle) :
    (d.modTxn t.handle g).mustWait t = d.mustWait t := by
  rw [Dev.mustWait, Dev.mustWait, Dev.modTxn, List.any_map]
  congr 1
  funext u
  simp only [Function.comp_apply]
  split
  · next hu => simp [hg, hu]
  · rfl

/-- A transaction that reaches step 1. -/
def Dev.waits (d : Dev) (t : Txn) : Txn := { t with phase := .waiting, order := d.cfg.orders, began := d.now }

@[simp] theorem Dev.waits_handle (d : Dev) (t : Txn) : (d.waits t).handle = t.handle := rfl

/-- A core stalls in the TXC of a handle, and the commit reaches step 1. -/
def Dev.stalls (d : Dev) (c : Nat) (rd : BitVec 5) (h : Nat) : Dev :=
  ({ d.modCore c (fun k => { k with run := .inTxc rd h }) with cfg := { d.cfg with orders := d.cfg.orders + 1 } }).modTxn h d.waits

theorem Dev.core_stalls (d : Dev) (c : Nat) (rd : BitVec 5) (h : Nat) :
    (d.stalls c rd h).core c = { d.core c with run := .inTxc rd h } :=
  Dev.core_modCore d c fun k => { k with run := .inTxc rd h }

theorem Dev.txn_stalls {d : Dev} {t : Txn} (c : Nat) (rd : BitVec 5) (ht : d.txn t.handle = some t) :
    (d.stalls c rd t.handle).txn t.handle = some (d.waits t) := Dev.txn_modTxn (fun _ => rfl) ht

theorem Dev.mustWait_stalls (d : Dev) (c : Nat) (rd : BitVec 5) (t : Txn) :
    (d.stalls c rd t.handle).mustWait (d.waits t) = d.mustWait (d.waits t) := Dev.mustWait_modTxn (t := d.waits t) fun _ => rfl

/-- The end of a TXC at the core that stalls in it: the outcome in rd, and nothing committed. -/
theorem Dev.endTxc_stalls (d : Dev) (c : CoreId) {rd : BitVec 5} (h outcome : Nat) (hrd : rd ≠ 0) :
    (((d.stalls c.val rd h).endTxc h outcome).core c.val).reg rd = BitVec.ofNat 64 outcome
      ∧ (((d.stalls c.val rd h).endTxc h outcome).core c.val).run = .running
      ∧ (((d.stalls c.val rd h).endTxc h outcome).core c.val).pc = (d.core c.val).pc + 8
      ∧ ((d.stalls c.val rd h).endTxc h outcome).cfg.committed = d.cfg.committed
      ∧ ((d.stalls c.val rd h).endTxc h outcome).cfg.versions = d.cfg.versions := by
  have hstate := (d.stalls c.val rd h).committedState_endTxc h outcome
  simp only [Dev.committedState, Prod.mk.injEq] at hstate
  obtain ⟨-, hversions, hcommitted⟩ := hstate
  rw [Dev.core_endTxc, Dev.core_stalls]
  obtain ⟨hreg, hrun, hpc⟩ := Core.txcEnded_of_stalled (k := { d.core c.val with run := .inTxc rd h }) outcome rfl hrd
  exact ⟨hreg, hrun, hpc, hcommitted, hversions⟩

/-- TXC of the context's newest transaction, where no commit makes it wait, takes it to step 2. -/
theorem gives_txc_step2 {c : CoreId} {f : Fields} {s : State} {t : Txn} (h : Ready s.dev c f ((opR1 0x99).only [.shepherd] [.v, .o]))
    (hopen : s.dev.openTxn c.val = some t) (hx : ((s.dev.core c.val).reg f.rs1).toNat = t.handle) (ht : s.dev.txn t.handle = some t)
    (hw : s.dev.mustWait (s.dev.waits t) = false) :
    Gives (.txc c f) s ((s.dev.stalls c.val f.rd t.handle).commitStep2 (s.dev.waits t)) := by
  refine gives_of_exec (execTxc.eq_1 c f s) ?_
  simp only [Dev.x, Dev.ownHandle_of_open hopen hx]
  rw [Dev.runInstr_ready _ h, Dev.finish_stay (eventDue_of_ready h)]
  exact Dev.commitTry_goes_on (d := s.dev.stalls c.val f.rd t.handle) (Dev.txn_stalls c.val f.rd ht) rfl ((Dev.mustWait_stalls ..).trans hw)

/-- TXC of a transaction that conflicts, and of one that commits at once. -/
theorem txc_outcome (c : CoreId) (f : Fields) (s : State) (t : Txn) (h : Ready s.dev c f ((opR1 0x99).only [.shepherd] [.v, .o]))
    (hopen : s.dev.openTxn c.val = some t) (hx : ((s.dev.core c.val).reg f.rs1).toNat = t.handle) (ht : s.dev.txn t.handle = some t)
    (hrd : f.rd ≠ 0) :
    (s.dev.mustWait { t with phase := .waiting, order := s.dev.cfg.orders, began := s.dev.now } = false →
      s.dev.needsCrook t.staged.keys = false → (∃ id ∈ t.staged.keys ++ t.reads, t.start < s.dev.version id) →
      Does (.txc c f) s fun d => (d.core c.val).reg f.rd = 1 ∧ (d.core c.val).run = .running
        ∧ (d.core c.val).pc = (s.dev.core c.val).pc + 8 ∧ d.cfg.committed = s.dev.cfg.committed ∧ d.cfg.versions = s.dev.cfg.versions)
    ∧ (CommitsAtOnce s.dev { t with phase := .waiting, order := s.dev.cfg.orders, began := s.dev.now } →
      Does (.txc c f) s (Committed s t)) := by
  refine ⟨fun hw hcrook hconf => ⟨_, gives_txc_step2 h hopen hx ht hw, ?_⟩, fun hnow => ?_⟩
  · rw [Dev.commitStep2_conflict (d := s.dev.stalls c.val f.rd t.handle) (t := s.dev.waits t) hcrook hconf, Dev.waits_handle]
    exact s.dev.endTxc_stalls c t.handle 1 hrd
  · obtain ⟨hwf, hw, hcrook, hver, hplain⟩ := hnow
    have hnow : CommitsAtOnce (s.dev.stalls c.val f.rd t.handle) (s.dev.waits t) :=
      ⟨hwf, (Dev.mustWait_stalls ..).trans hw, hcrook, hver, hplain⟩
    refine ⟨_, gives_txc_step2 h hopen hx ht hw, ?_⟩
    rw [Dev.commitStep2_at_once hnow]
    exact Dev.commitPoint_commits (d := s.dev.stalls c.val f.rd t.handle) (t := s.dev.waits t) hwf fun id hid => (hplain id hid).1

/-! ### The statement -/

/-- TXC and TXA of another handle than TXH trap outside a trap. -/
theorem traps_other_handle (c : CoreId) (f : Fields) (s : State) (hin : (s.dev.core c.val).inTrap = false)
    (hl : (s.dev.core c.val).level ≠ .o) (hx : s.dev.ownHandle c.val ((s.dev.core c.val).reg f.rs1) = none) :
    (Ready s.dev c f ((opR1 0x99).only [.shepherd] [.v, .o]) → Traps (.txc c f) s c (.fault 6 2 (instrWord 0x99 f)))
    ∧ (Ready s.dev c f ({ opR 0x9A with rd := false, rs2 := false }.only [.shepherd] [.v, .o]) →
        Traps (.txa c f) s c (.fault 6 2 (instrWord 0x9A f))) := by
  refine ⟨fun h => gives_of_exec (execTxc.eq_1 c f s) ?_, fun h => gives_of_exec (execTxa.eq_1 c f s) ?_⟩ <;> simp only [Dev.x, hx]
  · exact Dev.runInstr_faults h rfl hin hl
  · exact Dev.runInstr_faults h rfl hin hl

/-- Settles O18, by the three instructions. -/
theorem transactions : Obligations.Transactions :=
  ⟨txb_outcome, does_txa, txc_outcome, traps_other_handle⟩

end Sys2Proof.Machine
end

section
/-! What says which blocks can be used, and with it that the media is read-only (R276, R278, R299): devices that agree in it. -/

namespace Sys2Proof.Machine

/-- `a` and `b` agree in what says which blocks can be used: the configuration, the straps, the dies, the block table and the droves. -/
structure SameBlocks (a b : Dev) : Prop where
  cfg : a.cfg = b.cfg
  pins : a.pins = b.pins
  media : a.media = b.media
  mem : a.mem = b.mem
  drove : a.drove = b.drove

section
variable {a b : Dev} (h : SameBlocks a b)
include h

theorem SameBlocks.cfgv : a.cfgv = b.cfgv := by
  funext blk f
  exact Dev.applied_congr h.cfg h.pins _

theorem SameBlocks.die : a.die = b.die := by
  unfold Dev.die
  rw [h.media]

theorem SameBlocks.diePresent : a.diePresent = b.diePresent := by
  unfold Dev.diePresent Dev.chan
  rw [h.media]

theorem SameBlocks.presentDies : a.presentDies = b.presentDies := by
  unfold Dev.presentDies
  rw [h.media, h.diePresent]

theorem SameBlocks.dieFailed : a.dieFailed = b.dieFailed := by
  unfold Dev.dieFailed
  rw [h.cfgv]

theorem SameBlocks.liveDies : a.liveDies = b.liveDies := by
  unfold Dev.liveDies
  rw [h.presentDies, h.dieFailed]

theorem SameBlocks.chanDies : a.chanDies = b.chanDies := by
  unfold Dev.chanDies
  rw [h.liveDies]

theorem SameBlocks.firstDie : a.firstDie = b.firstDie := by
  unfold Dev.firstDie
  rw [h.chanDies]

theorem SameBlocks.dieGroups : a.dieGroups = b.dieGroups := by
  unfold Dev.dieGroups Dev.dieP
  rw [h.die]

theorem SameBlocks.blkState : a.blkState = b.blkState := by
  unfold Dev.blkState Dev.blkGet Dev.bytes Dev.blkAddr Dev.reservedBase Dev.dramSize
  rw [h.mem, h.pins]

theorem SameBlocks.isLowBlk : a.isLowBlk = b.isLowBlk := by
  unfold Dev.isLowBlk Dev.isLogBlk Dev.lowDie Dev.lambTop Dev.lambBlocks Dev.liveChans
  rw [h.presentDies, h.liveDies, h.firstDie, h.cfgv]

theorem SameBlocks.dumpMask : a.dumpMask = b.dumpMask := by
  unfold Dev.dumpMask
  rw [h.cfgv]

theorem SameBlocks.dumpChans : a.dumpChans = b.dumpChans := by
  unfold Dev.dumpChans Dev.chanQuiesced
  rw [h.dumpMask, h.firstDie, h.media]

theorem SameBlocks.isDumpBlk : a.isDumpBlk = b.isDumpBlk := by
  unfold Dev.isDumpBlk
  rw [h.dumpMask, h.dumpChans, h.chanDies, h.dieGroups]

theorem SameBlocks.poolDie : a.poolDie = b.poolDie := by
  unfold Dev.poolDie Dev.dieNamed
  rw [h.cfgv, h.drove]

theorem SameBlocks.usable : a.usable = b.usable := by
  unfold Dev.usable
  rw [h.diePresent, h.dieFailed, h.dieGroups, h.blkState, h.isLowBlk, h.isDumpBlk, h.poolDie]

theorem SameBlocks.usableOf : a.usableOf = b.usableOf := by
  unfold Dev.usableOf
  rw [h.liveDies, h.dieGroups, h.usable]

/-- Devices with the same blocks and namespaces are read-only together (R299). -/
theorem SameBlocks.readOnly (hns : a.nvme.ns = b.nvme.ns) : a.readOnly = b.readOnly := by
  unfold Dev.readOnly Dev.spareFor Dev.dataKib Dev.iuUsed Dev.namespaces Dev.iuCount Dev.iuKib
  rw [hns, h.cfgv, h.liveDies, h.die, h.usableOf]
end

end Sys2Proof.Machine
end

section
/-! Hurdles (R165, R171, R425): when an entry becomes Held and what its command then does, and the statement about them. -/

namespace Sys2Proof.Machine

open Sys2Proof.Safety

@[simp] theorem Dev.nvme_advanceTo (d : Dev) (t : Nat) : (d.advanceTo t).nvme = d.nvme := by
  unfold Dev.advanceTo; split
  · rfl
  · split <;> rfl

@[simp] theorem Dev.pen_setPen (d : Dev) (p : Nat) (x : PenSt) : (d.setPen p x).pen p = some x := by
  simp [Dev.pen, Dev.setPen]

/-- The device with the hurdle of a pen Held, its wait counted and its command executing. -/
def Dev.takeHurdle (d : Dev) (p : Nat) (x : PenSt) (h : HurdleSt) : Dev :=
  ({ d with nvme := { d.nvme with hurdles := d.nvme.hurdles.set p { h with state := 2 },
                                  maxWait := sat 0xFFFFFFFF (Nat.max d.nvme.maxWait ((d.now - h.placedAt) / 1000)) } } : Dev).setPen p
    { x with stage := .executing }

theorem Dev.takeHurdle_hurdle (d : Dev) (p : Nat) (x : PenSt) (h : HurdleSt) :
    (d.takeHurdle p x h).nvme.hurdles.get? p = some { h with state := 2 } :=
  Tab.get?_set_same ..

theorem Dev.takeHurdle_pen (d : Dev) (p : Nat) (x : PenSt) (h : HurdleSt) :
    (d.takeHurdle p x h).pen p = some { x with stage := .executing } :=
  Dev.pen_setPen ..

/-- The last checks of a command do not look at the hurdle table. -/
theorem Dev.heldChecks_hurdles (d : Dev) (x : PenSt) (t : Tab HurdleSt) (n : Nat) :
    ({ d with nvme := { d.nvme with hurdles := t, maxWait := n } } : Dev).heldChecks x = d.heldChecks x := by
  have hreadOnly : ({ d with nvme := { d.nvme with hurdles := t, maxWait := n } } : Dev).readOnly = d.readOnly :=
    SameBlocks.readOnly ⟨rfl, rfl, rfl, rfl, rfl⟩ rfl
  unfold Dev.heldChecks
  rw [hreadOnly]
  rfl

/-- A Waiting hurdle that nothing blocks is taken, and its command ends where a last check fails (R165). -/
theorem Dev.hurdleHeld_free {d : Dev} {p : Nat} {x : PenSt} {h : HurdleSt} (hx : d.pen p = some x) (hh : d.nvme.hurdles.get? p = some h)
    (hs : h.state = 1) (hw : h.waits = []) (hwalk : x.walk ≠ 0) (hdue : x.due = none) :
    d.hurdleHeld p =
      if d.heldChecks x = 0 then d.takeHurdle p x h else (d.takeHurdle p x h).complete p (d.heldChecks x) 0 := by
  have hfree : ¬ (h.state ≠ 1 ∨ h.waits != [] ∨ x.walk = 0 ∨ x.due.isSome) := by simp [hs, hw, hwalk, hdue]
  simp only [Dev.hurdleHeld, hx, hh, if_neg hfree, Dev.heldChecks_hurdles]
  rfl

/-- A hurdle that waits for an entry or for its command's walk stays as it is. -/
theorem Dev.hurdleHeld_blocked {d : Dev} {p : Nat} {x : PenSt} {h : HurdleSt} (hx : d.pen p = some x)
    (hh : d.nvme.hurdles.get? p = some h) (hblocked : h.waits ≠ [] ∨ x.walk = 0) : d.hurdleHeld p = d := by
  have hwaits : h.state ≠ 1 ∨ h.waits != [] ∨ x.walk = 0 ∨ x.due.isSome :=
    .inr (hblocked.imp bne_iff_ne.mpr .inl)
  simp only [Dev.hurdleHeld, hx, hh, if_pos hwaits]

theorem exec_hurdleHeld (p : Pen) (s : State) : exec (.hurdleHeld p) s = s.apply fun d => d.hurdleHeld p.val := rfl

theorem exec_hurdleLongWait (p : Pen) (s : State) : exec (.hurdleLongWait p) s = s.apply fun d => d.longWait p.val := rfl

/-- HURDLE_HELD of a hurdle that nothing blocks (R165, R171, R425). -/
theorem does_hurdleHeld (p : Pen) (s : State) (x : PenSt) (h : HurdleSt) (hx : s.dev.pen p.val = some x)
    (hh : s.dev.nvme.hurdles.get? p.val = some h) (hs : h.state = 1) (hw : h.waits = []) (hwalk : x.walk ≠ 0) (hdue : x.due = none) :
    (s.dev.heldChecks x = 0 → Does (.hurdleHeld p) s fun d => d.pen p.val = some { x with stage := .executing }
      ∧ (∃ g, d.nvme.hurdles.get? p.val = some g ∧ g = { h with state := 2 }) ∧ d = { s.dev with nvme := d.nvme })
    ∧ (s.dev.heldChecks x ≠ 0 → Does (.hurdleHeld p) s (EndedWith p.val x (s.dev.heldChecks x) 0)) := by
  have held := Dev.hurdleHeld_free hx hh hs hw hwalk hdue
  refine ⟨fun hpass => ?_, fun hfail => ?_⟩ <;> refine does_of_exec (exec_hurdleHeld p s) ?_
  · rw [held, if_pos hpass]
    exact ⟨Dev.takeHurdle_pen .., ⟨_, Dev.takeHurdle_hurdle .., rfl⟩, rfl⟩
  · rw [held, if_neg hfail]
    exact Dev.complete_ended _ _ { x with stage := .executing } _ _ (Dev.takeHurdle_pen ..) (by simp)

/-- HURDLE_LONG_WAIT marks a Waiting entry once and counts it (R165). -/
theorem does_hurdleLongWait (p : Pen) (s : State) (h : HurdleSt) (hh : s.dev.nvme.hurdles.get? p.val = some h) (hs : h.state = 1)
    (hlong : h.longPosted = false) :
    Does (.hurdleLongWait p) s fun d => d.nvme.hurdles.get? p.val = some { h with longPosted := true }
      ∧ d.nvme.longWaits = min 0xFFFF (s.dev.nvme.longWaits + 1) ∧ d.nvme.pens = s.dev.nvme.pens ∧ d.mem = s.dev.mem := by
  have hwaiting : ¬ (h.state ≠ 1 ∨ h.longPosted) := by simp [hs, hlong]
  refine does_of_exec (exec_hurdleLongWait p s) ?_
  simp only [Dev.longWait, hh, if_neg hwaiting, Dev.postInfo_nvme, Dev.postInfo_mem, Dev.nvme_advanceTo, Dev.mem_advanceTo,
    Tab.get?_set_same, sat_eq_min, and_self]

/-- Settles O26: a hurdle that nothing blocks is taken, one that waits stays, and a long wait is marked. -/
theorem hurdles : Obligations.Hurdles := by
  refine ⟨fun p s x h hx hh => ⟨fun hs hw hwalk hdue _ => ?_, fun hblocked => ?_⟩, does_hurdleLongWait⟩
  · exact does_hurdleHeld p s x h hx hh hs hw hwalk hdue
  · exact gives_of_exec (exec_hurdleHeld p s) (Dev.hurdleHeld_blocked hx hh hblocked)

end Sys2Proof.Machine
end

section
/-! MAPC touches the map cache and DRAM alone (R216, R351 to R359): what each of its functions leaves of the rest of the device. -/

namespace Sys2Proof.Machine

/-- `b` differs from `a` at most in the map cache, the memory and its marks. -/
def SameButMap (a b : Dev) : Prop := ∃ m w c, b = { a with mem := m, marks := w, mapc := c }

theorem SameButMap.refl (a : Dev) : SameButMap a a := ⟨a.mem, a.marks, a.mapc, rfl⟩

theorem SameButMap.trans {a b c : Dev} (h : SameButMap a b) (g : SameButMap b c) : SameButMap a c := by
  obtain ⟨m, w, p, rfl⟩ := h
  obtain ⟨n, x, q, rfl⟩ := g
  exact ⟨n, x, q, rfl⟩

theorem SameButMap.pwr {a b : Dev} (h : SameButMap a b) : b.pwr = a.pwr := by
  obtain ⟨m, w, c, rfl⟩ := h
  rfl

/-- A fold keeps the rest of the device that each of its steps keeps. -/
theorem SameButMap.foldl {α β : Type} (p : β → Dev) (f : β → α → β) (hf : ∀ b x, SameButMap (p b) (p (f b x))) (l : List α)
    (b : β) : SameButMap (p b) (p (l.foldl f b)) := by
  induction l generalizing b with
  | nil => exact .refl _
  | cons x l ih => exact (hf b x).trans (ih (f b x))

theorem Dev.setWay_sameButMap (d : Dev) (k : Nat) (w : MapLine) : SameButMap d (d.setWay k w) := ⟨_, _, _, rfl⟩

theorem Dev.writeLine_sameButMap (d : Dev) (l : Nat) (data : Bytes) (marks : List Nat) : SameButMap d (d.writeLine l data marks) :=
  SameButMap.trans ⟨_, _, _, rfl⟩ (SameButMap.foldl (fun d => d) _ (fun _ _ => ⟨_, _, _, rfl⟩) marks _)

theorem Dev.takeRepair_sameButMap {d e : Dev} {l w : Nat} (h : d.takeRepair l w = some e) : SameButMap d e := by
  unfold Dev.takeRepair at h
  split at h
  · exact Option.some.inj h ▸ .refl d
  · split at h
    · nomatch h
    · exact Option.some.inj h ▸ ⟨_, _, _, rfl⟩

theorem Dev.mapcDirect_sameButMap (d : Dev) (r : MapcReq) : SameButMap d (d.mapcDirect r).1 := by
  unfold Dev.mapcDirect
  split
  · next w _ =>
    cases h : d.takeRepair (lineOf r.diu) w with
    | none => exact .refl d
    | some e => exact Dev.takeRepair_sameButMap h
  · dsimp only
    split <;> exact ⟨_, _, _, rfl⟩

theorem Dev.mapcHit_sameButMap (d : Dev) (k : Nat) (r : MapcReq) : SameButMap d (d.mapcHit k r) := by
  unfold Dev.mapcHit
  dsimp only
  split <;> exact ⟨_, _, _, rfl⟩

theorem Dev.chooseFor_sameButMap (d : Dev) (k l : Nat) (pre : Bool) : SameButMap d (d.chooseFor k l pre) := by
  unfold Dev.chooseFor
  dsimp only
  split <;> exact Dev.setWay_sameButMap ..

theorem Dev.prefetchAfter_sameButMap (d : Dev) (l : Nat) : SameButMap d (d.prefetchAfter l) := by
  unfold Dev.prefetchAfter
  dsimp only
  split
  · exact Dev.chooseFor_sameButMap ..
  · exact .refl d

theorem Dev.dropMarkedLine_sameButMap (d : Dev) (k : Nat) : SameButMap d (d.dropMarkedLine k) := by
  unfold Dev.dropMarkedLine
  dsimp only
  split
  · split
    · next e he =>
      obtain ⟨w, -, hw⟩ := Option.bind_eq_some_iff.mp he
      exact ((Dev.takeRepair_sameButMap hw).trans (Dev.writeLine_sameButMap ..)).trans (Dev.setWay_sameButMap ..)
    · exact .refl d
  · exact Dev.setWay_sameButMap ..

theorem Dev.mapcMiss_sameButMap (d : Dev) (l : Nat) : SameButMap d (d.mapcMiss l) := by
  unfold Dev.mapcMiss
  dsimp only
  split
  · exact .refl d
  · exact (SameButMap.trans ⟨_, _, _, rfl⟩ (Dev.chooseFor_sameButMap ..)).trans (Dev.prefetchAfter_sameButMap ..)

theorem Dev.mapcTry_sameButMap (d : Dev) (r : MapcReq) : SameButMap d (d.mapcTry r).1 := by
  unfold Dev.mapcTry
  dsimp only
  split
  · exact .refl d
  · split
    · exact Dev.mapcDirect_sameButMap d r
    · split
      · next k _ =>
        split
        · exact .refl d
        · split
          · dsimp only
            split
            · exact Dev.dropMarkedLine_sameButMap d k
            · exact (Dev.dropMarkedLine_sameButMap d k).trans (Dev.mapcMiss_sameButMap ..)
          · exact Dev.mapcHit_sameButMap d k r
      · split
        · exact Dev.mapcDirect_sameButMap d r
        · dsimp only
          split
          · exact .refl d
          · exact Dev.mapcMiss_sameButMap ..

theorem Dev.mapcServe_sameButMap (d : Dev) : SameButMap d d.mapcServe := by
  refine SameButMap.trans (SameButMap.foldl Prod.fst _ (fun b q => ?_) d.mapc.waiting (d, [])) ⟨_, _, _, rfl⟩
  dsimp only
  split
  · exact .refl _
  · exact Dev.mapcTry_sameButMap b.1 q

/-- Writing the map cache back before its banks go Off touches nothing else. -/
theorem Dev.mapcFlushBanks_sameButMap (d : Dev) : SameButMap d d.mapcFlushBanks :=
  ((SameButMap.foldl (fun d => d) _ (fun _ _ => Dev.writeLine_sameButMap ..) _ d).trans ⟨_, _, _, rfl⟩).trans
    (Dev.mapcServe_sameButMap _)

end Sys2Proof.Machine
end

section
/-! The power sequencer (R177, R457 to R466): what taking paddocks to a state changes, the steps of an entry, its suspension and the exit,
the autonomous transition, background work and L1.2, and the statement about them. -/

namespace Sys2Proof.Machine

open Sys2Proof.Safety

/-! ### Paddocks -/

/-- Erasing keys from a table empties them and keeps the others. -/
theorem Tab.get_foldl_erase {α : Type} (d : α) (ks : List Nat) (j : Nat) (t : Tab α) :
    (ks.foldl (fun t k => t.erase k) t).get d j = if j ∈ ks then d else t.get d j := by
  induction ks generalizing t with
  | nil => simp
  | cons k ks ih =>
    rw [List.foldl_cons, ih]
    by_cases hj : j = k
    · simp [hj]
    · simp [hj, Tab.get_erase_other d hj t]

theorem mem_padRange {a b p : Nat} : p ∈ padRange a b ↔ a ≤ p ∧ p ≤ b := by
  simp only [padRange, List.mem_map, List.mem_range]
  constructor
  · rintro ⟨i, hi, rfl⟩
    omega
  · rintro ⟨ha, hb⟩
    exact ⟨p - a, by omega, by omega⟩

/-- What a paddock loses lies in its channel, the memory, the map cache, the DRAM channels, the digest slots and the store's ports. -/
theorem Dev.losePad_eq (d : Dev) (p : Nat) :
    d.losePad p = { d with media := (d.losePad p).media, mem := (d.losePad p).mem, marks := (d.losePad p).marks,
                           mapc := (d.losePad p).mapc, dram := (d.losePad p).dram, dig := (d.losePad p).dig,
                           ilu := (d.losePad p).ilu } := by
  unfold Dev.losePad
  repeat' split
  all_goals rfl

/-- Taking a paddock to a state changes what it loses, the clocks' gates and the paddocks. -/
theorem Dev.setPad_eq (d : Dev) (p st : Nat) :
    d.setPad p st = { d with media := (d.setPad p st).media, mem := (d.setPad p st).mem, marks := (d.setPad p st).marks,
                             mapc := (d.setPad p st).mapc, dram := (d.setPad p st).dram, dig := (d.setPad p st).dig,
                             ilu := (d.setPad p st).ilu, clk := (d.setPad p st).clk,
                             pwr := { d.pwr with pads := (d.setPad p st).pwr.pads } } := by
  unfold Dev.setPad
  dsimp only
  rw [Dev.losePad_eq]
  repeat' split
  all_goals rfl

theorem Dev.setPad_pwr (d : Dev) (p st : Nat) : (d.setPad p st).pwr = { d.pwr with pads := (d.setPad p st).pwr.pads } :=
  congrArg Dev.pwr (d.setPad_eq p st)

theorem Dev.setPad_links (d : Dev) (p st : Nat) : (d.setPad p st).links = d.links := by
  rw [Dev.setPad_eq]

/-- The device with another table of paddocks. -/
def Dev.withPads (d : Dev) (t : Tab Nat) : Dev := { d with pwr := { d.pwr with pads := t } }

theorem Dev.withPads_padDead (d : Dev) (t : Tab Nat) (p : Nat) : (d.withPads t).padDead p = d.padDead p :=
  Dev.padDead_congr (a := d.withPads t) (b := d) rfl rfl rfl p

/-- Returning a paddock to On changes nothing else. -/
theorem Dev.setPad_on (d : Dev) (p : Nat) : d.setPad p 0 = d.withPads (d.pwr.pads.erase p) := by
  simp [Dev.setPad, Dev.withPads]

theorem Dev.setPads_pwr (d : Dev) (f : Nat → Nat) (ps : List Nat) :
    (d.setPads f ps).pwr = { d.pwr with pads := (d.setPads f ps).pwr.pads } := by
  induction ps generalizing d with
  | nil => rfl
  | cons p ps ih =>
    have hstep : d.setPads f (p :: ps) = (d.setPad p (f p)).setPads f ps := rfl
    rw [hstep, ih, Dev.setPad_pwr]

theorem Dev.setPads_on (d : Dev) (ps : List Nat) :
    d.setPads (fun _ => 0) ps = d.withPads (ps.foldl (fun t p => t.erase p) d.pwr.pads) := by
  induction ps generalizing d with
  | nil => rfl
  | cons p ps ih =>
    have hstep : d.setPads (fun _ => 0) (p :: ps) = (d.setPad p 0).setPads (fun _ => 0) ps := rfl
    rw [hstep, ih, Dev.setPad_on]
    rfl

/-- A paddock that may be On in `b` is On in `a`, of the same dies, configuration and straps, when it stands at On there. -/
theorem Dev.padOn_of_get {a b : Dev} {p : Nat} (hm : a.media = b.media) (hc : a.cfg = b.cfg) (hp : a.pins = b.pins)
    (hlive : b.padDead p = false) (h : a.pwr.pads.get 0 p = 0) : a.padOn p = true := by
  simp [Dev.padOn, Dev.pad, Dev.padDead_congr hm hc hp, hlive, h]

/-- An access to a paddock that may be On makes it so and no other paddock changes. -/
theorem Dev.wakePad_live {d : Dev} {p : Nat} (h : d.padDead p = false) : d.wakePad p = d.withPads (d.pwr.pads.erase p) :=
  (if_neg (Bool.eq_false_iff.mp h)).trans (d.setPad_on p)

theorem Dev.wakePad_dead {d : Dev} {p : Nat} (h : d.padDead p = true) : d.wakePad p = d := if_pos h

theorem Dev.wakePad_on {d : Dev} {p : Nat} (h : d.padDead p = false) : (d.wakePad p).padOn p = true := by
  rw [Dev.wakePad_live h]
  exact Dev.padOn_of_get (a := d.withPads (d.pwr.pads.erase p)) (b := d) rfl rfl rfl h (Tab.get_erase_same ..)

theorem Dev.wakePad_other {d : Dev} {p q : Nat} (h : d.padDead p = false) (hq : q ≠ p) : (d.wakePad p).pad q = d.pad q := by
  have hget : (d.withPads (d.pwr.pads.erase p)).pwr.pads.get 0 q = d.pwr.pads.get 0 q := Tab.get_erase_other _ hq _
  rw [Dev.wakePad_live h, Dev.pad, Dev.withPads_padDead, hget, Dev.pad]

/-! ### The commands that wait for the sequencer -/

@[simp] theorem Dev.complete_pwr (d : Dev) (p st dw0 : Nat) : (d.complete p st dw0).pwr = d.pwr := by
  obtain ⟨n, u, o, h⟩ := d.complete_same p st dw0
  rw [h]

@[simp] theorem Dev.finishPowerPens_pwr (d : Dev) : d.finishPowerPens.pwr = { d.pwr with pens := [] } :=
  Dev.foldl_keeps Dev.pwr (fun d p => d.complete p scOk 0) (fun _ _ => Dev.complete_pwr ..) d.pwr.pens _

/-! ### The steps of an entry (R462) -/

/-- The sequencer has carried out a step. -/
def Dev.atStep (d : Dev) (k : Nat) : Dev := { d with pwr := { d.pwr with step := k } }

/-- The sequencer has taken the paddocks of a step to the target state. -/
def Dev.stepTaken (d : Dev) (t k : Nat) : Dev := (d.setPads (d.padTarget t) (stepPads t k)).atStep k

theorem Dev.stepTaken_pwr (d : Dev) (t k : Nat) : ∃ pads, (d.stepTaken t k).pwr = { d.pwr with step := k, pads := pads } := by
  refine ⟨(d.setPads (d.padTarget t) (stepPads t k)).pwr.pads, ?_⟩
  rw [Dev.stepTaken, Dev.atStep, Dev.setPads_pwr]

theorem Dev.entryStep_takes {d : Dev} {k : Nat} (hk : d.pwr.step + 1 = k)
    (h : k ∈ [1, 4, 6, 7] ∨ (k = 5 ∧ (d.pwr.target < 2 ∨ d.anyDieOp = false))) : d.entryStep = d.stepTaken d.pwr.target k := by
  rcases h with h | ⟨rfl, hquiet⟩
  · simp only [List.mem_cons, List.not_mem_nil, or_false] at h
    rcases h with rfl | rfl | rfl | rfl <;> simp only [Dev.entryStep, hk] <;> rfl
  · have hgo : ¬ (2 ≤ d.pwr.target ∧ d.anyDieOp = true) := by
      rintro ⟨ht, hop⟩
      rcases hquiet with hlt | hidle
      · omega
      · simp [hidle] at hop
    simp only [Dev.entryStep, hk, if_neg hgo]
    rfl

theorem Dev.entryStep_two {d : Dev} (hk : d.pwr.step + 1 = 2) (ht : d.pwr.target < 3) : d.entryStep = d.atStep 2 := by
  simp only [Dev.entryStep, hk, if_pos ht]
  rfl

theorem Dev.entryStep_three {d : Dev} (hk : d.pwr.step + 1 = 3) :
    d.entryStep = if d.pwr.target = 4 then d.mapcFlushBanks.stepTaken d.pwr.target 3 else d.atStep 3 := by
  simp only [Dev.entryStep, hk]
  rfl

theorem Dev.entryStep_eight {d : Dev} (hk : d.pwr.step + 1 = 8) : d.entryStep = d.finishPowerPens.atStep 8 := by
  simp only [Dev.entryStep, hk]
  rfl

theorem Dev.entryStep_nine {d : Dev} (hk : d.pwr.step + 1 = 9) : d.entryStep = (d.stepTaken d.pwr.target 9).entryDone := by
  simp only [Dev.entryStep, hk]
  rfl

/-- A step before the ninth whose condition holds changes of the sequencer its step and paddocks, and the eighth its waiting commands. -/
theorem Dev.entryStep_pwr {d : Dev} {k : Nat} (hk : d.pwr.step + 1 = k)
    (h : k ∈ [1, 3, 4, 6, 7, 8] ∨ (k = 2 ∧ d.pwr.target < 3) ∨ (k = 5 ∧ (d.pwr.target < 2 ∨ d.anyDieOp = false))) :
    ∃ pads, d.entryStep.pwr = { d.pwr with step := k, pads := pads, pens := if k = 8 then [] else d.pwr.pens } := by
  by_cases h8 : k = 8
  · subst h8
    rw [Dev.entryStep_eight hk, if_pos rfl, Dev.atStep, Dev.finishPowerPens_pwr]
    exact ⟨_, rfl⟩
  rw [if_neg h8]
  by_cases h2 : k = 2
  · subst h2
    have ht : d.pwr.target < 3 := by simpa using h
    exact ⟨d.pwr.pads, by rw [Dev.entryStep_two hk ht]; rfl⟩
  by_cases h3 : k = 3
  · subst h3
    rw [Dev.entryStep_three hk]
    split
    · rw [← d.mapcFlushBanks_sameButMap.pwr]
      exact Dev.stepTaken_pwr ..
    · exact ⟨d.pwr.pads, rfl⟩
  have htakes : k ∈ [1, 4, 6, 7] ∨ (k = 5 ∧ (d.pwr.target < 2 ∨ d.anyDieOp = false)) := by simpa [h8, h2, h3] using h
  rw [Dev.entryStep_takes hk htakes]
  exact Dev.stepTaken_pwr ..

/-- The end of an entry puts its target in effect; Standby is the target 5 (R456, R467). -/
theorem Dev.entryDone_pwr (d : Dev) :
    d.entryDone.pwr.entering = false ∧ d.entryDone.pwr.current = d.pwr.target
      ∧ d.entryDone.pwr.standby = (decide (d.pwr.target = 5) || d.pwr.standby) := by
  unfold Dev.entryDone
  dsimp only
  split <;> next h => simp [h]

theorem Dev.powerEntry_waits {d : Dev} (h : d.ioPens = true) : d.powerEntry = d := by
  simp [Dev.powerEntry, h]

theorem Dev.powerEntry_steps {d : Dev} (hin : d.pwr.entering = true) (hsus : d.pwr.suspended = false) (hstb : d.pwr.standby = false)
    (ht : d.pwr.current < d.pwr.target) (hpf : d.pwr.pf = .idle) (hio : d.ioPens = false) : d.powerEntry = d.entryStep := by
  simp [Dev.powerEntry, hin, hsus, hstb, Nat.not_le.mpr ht, hpf, hio]

theorem exec_powerStateEntry (s : State) : exec .powerStateEntry s = s.apply Dev.powerEntry := rfl

/-- A step of an entry that is not suspended (R462, R464). -/
theorem powerStateEntry_step (s : State) (k : Nat) (hin : s.dev.pwr.entering = true) (hsus : s.dev.pwr.suspended = false)
    (hstb : s.dev.pwr.standby = false) (ht : s.dev.pwr.current < s.dev.pwr.target) (hpf : s.dev.pwr.pf = .idle)
    (hk : k = s.dev.pwr.step + 1) :
    (s.dev.ioPens = true → Gives .powerStateEntry s s.dev)
    ∧ (s.dev.ioPens = false → (k ∈ [1, 3, 4, 6, 7, 8] ∨ (k = 2 ∧ s.dev.pwr.target < 3)
        ∨ (k = 5 ∧ (s.dev.pwr.target < 2 ∨ s.dev.anyDieOp = false))) →
      Does .powerStateEntry s fun d => d.pwr.step = k ∧ d.pwr.entering = true ∧ d.pwr.current = s.dev.pwr.current
        ∧ d.pwr.target = s.dev.pwr.target ∧ (k = 8 → d.pwr.pens = []))
    ∧ (s.dev.ioPens = false → k = 9 → Does .powerStateEntry s fun d => d.pwr.entering = false ∧ d.pwr.current = s.dev.pwr.target
        ∧ d.pwr.standby = decide (s.dev.pwr.target = 5)) := by
  refine ⟨fun hio => gives_of_exec (exec_powerStateEntry s) (Dev.powerEntry_waits hio), fun hio hcond => ?_, fun hio h9 => ?_⟩ <;>
    refine does_of_exec (exec_powerStateEntry s) ?_ <;> rw [Dev.powerEntry_steps hin hsus hstb ht hpf hio]
  · obtain ⟨pads, hpwr⟩ := Dev.entryStep_pwr hk.symm hcond
    rw [hpwr]
    exact ⟨rfl, hin, rfl, rfl, fun h8 => if_pos h8⟩
  · obtain ⟨pads, hpwr⟩ := s.dev.stepTaken_pwr s.dev.pwr.target 9
    obtain ⟨hout, hcur, hsb⟩ := Dev.entryDone_pwr (s.dev.stepTaken s.dev.pwr.target 9)
    rw [Dev.entryStep_nine (hk.symm.trans h9)]
    rw [hpwr] at hcur hsb
    exact ⟨hout, hcur, by simpa [hstb] using hsb⟩

/-! ### Suspension and exit (R464, R465) -/

theorem exec_entrySuspend (s : State) : exec .entrySuspend s = s.apply Dev.entrySuspend := rfl

theorem exec_entryResume (s : State) : exec .entryResume s = s.apply Dev.entryResume := rfl

theorem exec_powerStateExit (s : State) : exec .powerStateExit s = s.apply Dev.powerExit := rfl

/-- An I/O command suspends the entry, and the paddocks that the entry has changed are On. -/
theorem does_entrySuspend (s : State) (hin : s.dev.pwr.entering = true) (hsus : s.dev.pwr.suspended = false)
    (ht : s.dev.pwr.current < s.dev.pwr.target) (hio : s.dev.ioPens = true) :
    Does .entrySuspend s fun d => d.pwr.suspended = true ∧ d.pwr.step = 0 ∧ d.pwr.suspends = min 0xFFFF (s.dev.pwr.suspends + 1)
      ∧ (∀ p, 1 ≤ p → p ≤ 229 → s.dev.pwr.pads.get 0 p ≠ s.dev.padTarget s.dev.pwr.current p → d.pwr.pads.get 0 p = 0) := by
  have hgo : ¬ (!s.dev.pwr.entering ∨ s.dev.pwr.suspended ∨ s.dev.pwr.target ≤ s.dev.pwr.current ∨ !s.dev.ioPens) := by
    simp [hin, hsus, Nat.not_le.mpr ht, hio]
  refine does_of_exec (exec_entrySuspend s) ?_
  rw [Dev.entrySuspend, if_neg hgo]
  simp only [Dev.setPads_on, Dev.withPads, sat_eq_min, true_and, Tab.get_foldl_erase]
  intro p h1 h229 hchanged
  exact if_pos (List.mem_filter.mpr ⟨mem_padRange.mpr ⟨h1, h229⟩, by simpa using hchanged⟩)

/-- With no I/O command left the entry starts again at step 1. -/
theorem gives_entryResume (s : State) (hin : s.dev.pwr.entering = true) (hsus : s.dev.pwr.suspended = true) (hio : s.dev.ioPens = false) :
    Gives .entryResume s { s.dev with pwr := { s.dev.pwr with suspended := false, step := 0 } } :=
  gives_of_exec (exec_entryResume s) (if_pos (by simp [hin, hsus, hio]))

/-- An exit ends at its target, e11 asserted and no command waiting on it. -/
theorem does_powerStateExit (s : State) (hin : s.dev.pwr.entering = true) (hstb : s.dev.pwr.standby = false)
    (ht : s.dev.pwr.target ≤ s.dev.pwr.current) (hpf : s.dev.pwr.pf = .idle) :
    Does .powerStateExit s fun d => d.pwr.current = s.dev.pwr.target ∧ d.pwr.entering = false ∧ d.pwr.wakeEvt = true
      ∧ d.pwr.pens = [] := by
  have hgo : ¬ (!s.dev.pwr.entering ∨ s.dev.pwr.standby ∨ s.dev.pwr.current < s.dev.pwr.target ∨ s.dev.pwr.pf ≠ .idle) := by
    simp [hin, hstb, Nat.not_lt.mpr ht, hpf]
  refine does_of_exec (exec_powerStateExit s) ?_
  rw [Dev.powerExit, if_neg hgo]
  simp only [Dev.finishPowerPens_pwr, and_self]

/-! ### Access wakes (R457) -/

theorem exec_paddockAccessWake (p : Paddock) (s : State) :
    exec (.paddockAccessWake p) s = s.apply fun d => if d.pwr.standby then d else d.wakePad p.val := rfl

/-- An access wakes any paddock but a dead one. -/
theorem paddockAccessWake_outcome (p : Paddock) (s : State) :
    (s.dev.pwr.standby = false → s.dev.padDead p.val = false → Does (.paddockAccessWake p) s fun d =>
      d.padOn p.val = true ∧ d.mem = s.dev.mem ∧ (∀ q, q ≠ p.val → d.pad q = s.dev.pad q))
    ∧ ((s.dev.pwr.standby = true ∨ s.dev.padDead p.val = true) → Gives (.paddockAccessWake p) s s.dev) := by
  refine ⟨fun hstb hlive => does_of_exec (exec_paddockAccessWake p s) ?_, fun h => gives_of_exec (exec_paddockAccessWake p s) ?_⟩
  · rw [if_neg (Bool.eq_false_iff.mp hstb)]
    exact ⟨Dev.wakePad_on hlive, Dev.mem_wakePad .., fun q hq => Dev.wakePad_other hlive hq⟩
  · by_cases hstb : s.dev.pwr.standby
    · exact if_pos hstb
    · exact (if_neg hstb).trans (Dev.wakePad_dead (h.resolve_left hstb))

/-! ### Autonomous transitions and background work (R460, R461) -/

/-- A change of requests changes of the device the sequencer's state alone. -/
theorem Dev.retarget_eq (d : Dev) : d.retarget = { d with pwr := d.retarget.pwr } := by
  unfold Dev.retarget
  dsimp only
  repeat' split
  all_goals rfl

theorem Dev.retarget_nvme (d : Dev) : d.retarget.nvme = d.nvme := by rw [Dev.retarget_eq]

theorem Dev.retarget_now (d : Dev) : d.retarget.now = d.now := by rw [Dev.retarget_eq]

/-- A change of requests keeps the paddocks and the wake that is recorded. -/
theorem Dev.retarget_pwr (d : Dev) : d.retarget.pwr.pads = d.pwr.pads ∧ d.retarget.pwr.wakeCause = d.pwr.wakeCause := by
  unfold Dev.retarget
  dsimp only
  repeat' split
  all_goals exact ⟨rfl, rfl⟩

theorem Dev.le_now_advanceTo (d : Dev) (t : Nat) : t ≤ (d.advanceTo t).now := by
  unfold Dev.advanceTo; split
  · assumption
  · split <;> exact Nat.le_refl t

theorem exec_apstTransition (k : Ctrl) (s : State) : exec (.apstTransition k) s = s.apply fun d => d.apst k.val := rfl

/-- An autonomous transition requests the state of the controller's table no earlier than its idle time. -/
theorem does_apstTransition (k : Ctrl) (s : State) (hen : (s.dev.ctrl k.val).en = true) (hd3 : (s.dev.ctrl k.val).d3hot = false)
    (hon : bitOf ((s.dev.ctrl k.val).features.get 0 0x0C) 0 = true) (htime : (s.dev.apstEntry k.val).2 ≠ 0)
    (hps : (s.dev.apstEntry k.val).1 ≤ 4) (hidle : ∀ e ∈ s.dev.nvme.pens, e.2.ctrl = k.val → e.2.isAdmin = true) :
    Does (.apstTransition k) s fun d =>
      (d.ctrl k.val).reqPs = (s.dev.apstEntry k.val).1 ∧ (s.dev.ctrl k.val).lastIo + (s.dev.apstEntry k.val).2 * 1000000 ≤ d.now := by
  have hnone : s.dev.nvme.pens.any (fun x => x.2.ctrl == k.val && !x.2.isAdmin) = false :=
    List.any_eq_false.mpr fun e he => by simpa using hidle e he
  refine does_of_exec (exec_apstTransition k s) ?_
  simp only [Dev.apst, hen, hd3, hon, htime, Nat.not_lt.mpr hps, hnone, Bool.not_true, Bool.false_eq_true, or_self, if_false]
  refine ⟨?_, ?_⟩
  · rw [Dev.ctrl, Dev.retarget_nvme, Dev.modCtrl, Dev.setCtrl, Tab.get_set_same]
  · rw [Dev.retarget_now, Dev.modCtrl_now]
    exact Dev.le_now_advanceTo ..

/-- The device with a table of paddocks, in which background work may run until a time. -/
def Dev.background (d : Dev) (pads : Tab Nat) (t : Nat) : Dev := { d with pwr := { d.pwr with pads := pads, noppUntil := some t } }

theorem Dev.noppmeWork_starts {d : Dev} (hstb : d.pwr.standby = false) (hcur : 2 ≤ d.pwr.current) (hin : d.pwr.entering = false)
    (hperm : d.noppme = true) (hnone : d.pwr.noppUntil = none) :
    d.noppmeWork true = d.background ((padRange 1 224).foldl (fun t p => t.erase p) d.pwr.pads) (d.now + 100000000) := by
  have hgo : ¬ (d.pwr.current < 2 ∨ d.pwr.standby ∨ d.pwr.entering ∨ !d.noppme ∨ d.pwr.noppUntil.isSome) := by
    simp [Nat.not_lt.mpr hcur, hstb, hin, hperm, hnone]
  rw [Dev.noppmeWork, if_pos rfl, if_neg hgo, Dev.setPads_on, Dev.background, Dev.withPads]

/-- A paddock that may be On and stands at On while background work runs is On. -/
theorem Dev.background_padOn {d : Dev} {pads : Tab Nat} {p : Nat} (t : Nat) (hlive : d.padDead p = false) (h : pads.get 0 p = 0) :
    (d.background pads t).padOn p = true :=
  Dev.padOn_of_get (a := d.background pads t) (b := d) rfl rfl rfl hlive h

theorem exec_noppmeWork (start : Bool) (s : State) : exec (.noppmeWork start) s = s.apply fun d => d.noppmeWork start := rfl

/-- Background work has its paddocks On for 100 ms at most. -/
theorem noppmeWork_outcome (s : State) (hstb : s.dev.pwr.standby = false) :
    (2 ≤ s.dev.pwr.current → s.dev.pwr.entering = false → s.dev.noppme = true → s.dev.pwr.noppUntil = none →
      Does (.noppmeWork true) s fun d => d.pwr.noppUntil = some (s.dev.now + 100000000)
        ∧ (∀ p, 1 ≤ p → p ≤ 224 → s.dev.padDead p = false → d.padOn p = true))
    ∧ (∀ t, s.dev.pwr.noppUntil = some t → Does (.noppmeWork false) s fun d =>
      d.pwr.noppUntil = none ∧ d.pwr.current = s.dev.pwr.current) := by
  refine ⟨fun hcur hin hperm hnone => does_of_exec (exec_noppmeWork true s) ?_,
    fun t hrun => does_of_exec (exec_noppmeWork false s) ?_⟩
  · rw [Dev.noppmeWork_starts hstb hcur hin hperm hnone]
    refine ⟨rfl, fun p h1 h224 hlive => Dev.background_padOn _ hlive ?_⟩
    rw [Tab.get_foldl_erase, if_pos (mem_padRange.mpr ⟨h1, h224⟩)]
  · have hback : (if s.dev.pwr.current = 4 then s.dev.mapcFlushBanks else s.dev).pwr = s.dev.pwr := by
      split
      · exact s.dev.mapcFlushBanks_sameButMap.pwr
      · rfl
    simp only [Dev.noppmeWork, Bool.false_eq_true, if_false, hrun, Option.isNone_some, true_and]
    rw [Dev.setPads_pwr, hback]

/-! ### L1.2 (R457, R466) -/

@[simp] theorem Dev.link_setLink (d : Dev) (l : Nat) (x : LinkSt) : (d.setLink l x).link l = x := by
  simp [Dev.link, Dev.setLink]

theorem Dev.link_congr {a b : Dev} (h : a.links = b.links) (l : Nat) : a.link l = b.link l := by
  rw [Dev.link, h, Dev.link]

/-- Controllers that return to their operational state change the front end alone. -/
theorem Dev.foldl_ctrlOperational_eq (ks : List Nat) (d : Dev) :
    ks.foldl (fun d k => d.ctrlOperational k) d = { d with nvme := (ks.foldl (fun d k => d.ctrlOperational k) d).nvme } := by
  induction ks generalizing d with
  | nil => rfl
  | cons k ks ih =>
    rw [List.foldl_cons, ih]
    rfl

/-- A wake of a port changes the controllers and the sequencer alone. -/
theorem Dev.portWake_eq (d : Dev) (port cause : Nat) :
    d.portWake port cause = { d with nvme := (d.portWake port cause).nvme, pwr := (d.portWake port cause).pwr } := by
  unfold Dev.portWake
  dsimp only
  split
  · rfl
  · rw [Dev.retarget_eq, Dev.noteWake, Dev.foldl_ctrlOperational_eq]

theorem Dev.portWake_pads (d : Dev) (port cause : Nat) : (d.portWake port cause).pwr.pads = d.pwr.pads := by
  unfold Dev.portWake
  dsimp only
  split
  · rfl
  · rw [(Dev.retarget_pwr _).1, Dev.noteWake, Dev.foldl_ctrlOperational_eq]

theorem Dev.portWake_cause {d : Dev} (port cause : Nat) (hcur : 2 ≤ d.pwr.current) (hstb : d.pwr.standby = false) :
    (d.portWake port cause).pwr.wakeCause = cause := by
  have hgo : ¬ (d.pwr.current < 2 ∨ d.pwr.standby) := by simp [Nat.not_lt.mpr hcur, hstb]
  rw [Dev.portWake, if_neg hgo]
  exact (Dev.retarget_pwr _).2

/-- The paddock of a link's port is never dead. -/
theorem Dev.padDead_linkPad (d : Dev) (l : Fin 4) : d.padDead (linkPad l.val) = false := by
  have hnone : ¬ (1 ≤ linkPad l.val ∧ linkPad l.val ≤ 128) ∧ ¬ (221 ≤ linkPad l.val ∧ linkPad l.val ≤ 224) := by
    unfold linkPad
    omega
  rw [Dev.padDead, if_neg hnone.1, if_neg hnone.2]

theorem exec_l12Entry (l : Fin 4) (s : State) : exec (.l12Entry l) s = s.apply fun d => d.l12Enter l.val := rfl

theorem exec_l12Exit (l : Fin 4) (s : State) : exec (.l12Exit l) s = s.apply fun d => d.l12Exit l.val := rfl

/-- A link that is up enters L1.2; another does not. -/
theorem l12Entry_outcome (l : Fin 4) (s : State) :
    ((s.dev.link l.val).width ≠ 0 → Does (.l12Entry l) s fun d => d.link l.val = { s.dev.link l.val with l12 := true })
    ∧ ((s.dev.link l.val).width = 0 → Gives (.l12Entry l) s s.dev) := by
  refine ⟨fun hup => does_of_exec (exec_l12Entry l s) ?_, fun hdown => gives_of_exec (exec_l12Entry l s) (if_pos hdown)⟩
  simp only [Dev.l12Enter, if_neg hup]
  split
  · rw [Dev.link_congr (Dev.setPad_links ..), Dev.link_setLink]
  · rw [Dev.link_setLink]

/-- A link in L1.2 leaves it with its port On, and the device leaves a state from PS2 to PS4. -/
theorem l12Exit_outcome (l : Fin 4) (s : State) :
    ((s.dev.link l.val).l12 = true → Does (.l12Exit l) s fun d => d.link l.val = { s.dev.link l.val with l12 := false }
        ∧ d.padOn (linkPad l.val) = true ∧ (2 ≤ s.dev.pwr.current → s.dev.pwr.standby = false → d.pwr.wakeCause = 3))
    ∧ ((s.dev.link l.val).l12 = false → Gives (.l12Exit l) s s.dev) := by
  refine ⟨fun hin => does_of_exec (exec_l12Exit l s) ?_, fun hout => gives_of_exec (exec_l12Exit l s) (if_pos (by simp [hout]))⟩
  rw [Dev.l12Exit, if_neg (by simp [hin]), Dev.wakePad_live (Dev.padDead_linkPad _ l)]
  refine ⟨?_, ?_, fun hcur hstb => Dev.portWake_cause _ _ hcur hstb⟩
  · rw [Dev.portWake_eq]
    exact Dev.link_setLink ..
  · refine Dev.padOn_of_get (b := s.dev) ?_ ?_ ?_ (Dev.padDead_linkPad _ l) ?_
    · rw [Dev.portWake_eq]; rfl
    · rw [Dev.portWake_eq]; rfl
    · rw [Dev.portWake_eq]; rfl
    · rw [Dev.portWake_pads]
      exact Tab.get_erase_same ..

/-- Settles O45, by the rows of the power sequencer. -/
theorem powerStates : Obligations.PowerStates :=
  ⟨powerStateEntry_step, does_entrySuspend, gives_entryResume, does_powerStateExit, paddockAccessWake_outcome, does_apstTransition,
    noppmeWork_outcome, fun l s => and_assoc.mp ⟨l12Entry_outcome l s, l12Exit_outcome l s⟩⟩

end Sys2Proof.Machine
end

section
/-! Collection and wear (R279 to R281, R285, R289, R291, R293 to R295): the steps of a cycle and the read epochs, the erase log's pages, erases
and retirement, and the statement about them. -/

namespace Sys2Proof.Machine

open Sys2Proof.Safety

/-! ### The start of a cycle (R279, R281) -/

theorem exec_gcCycleStart (grp : Fin 8) (s : State) : exec (.gcCycleStart grp) s = s.apply fun d => d.cycleStart grp.val := rfl

theorem Dev.cycleStart_held {d : Dev} (grp : Nat) (h : d.drove.stopped = true ∨ d.cyclesOn = false) : d.cycleStart grp = d :=
  if_pos (h.imp id fun hoff => .inr (.inl (by simp [hoff])))

/-- A group that may start a cycle starts it on its victim, if it has one. -/
theorem gcCycleStart_outcome (grp : Fin 8) (s : State) (hstop : s.dev.drove.stopped = false) (hrb : s.dev.mapc.rbPhase = 0)
    (hon : s.dev.cyclesOn = true) (hroom : (s.dev.drove.cycles.filter (fun c => c.group == grp.val)).length < 2) :
    (∀ x wear, s.dev.chooseVictim grp.val = some (x, wear) → Does (.gcCycleStart grp) s fun d =>
      ∃ c, d.drove.cycles = s.dev.drove.cycles ++ [c] ∧ c.victim = x.serial ∧ c.group = grp.val ∧ c.step = 2 ∧ c.wear = wear ∧ c.copies = [])
    ∧ (s.dev.chooseVictim grp.val = none → Gives (.gcCycleStart grp) s s.dev) := by
  have hgo : ¬ (s.dev.drove.stopped ∨ s.dev.mapc.rbPhase ≠ 0 ∨ !s.dev.cyclesOn
      ∨ 2 ≤ (s.dev.drove.cycles.filter (fun c => c.group == grp.val)).length) := by
    simp [hstop, hrb, hon, hroom]
  refine ⟨fun x wear hx => does_of_exec (exec_gcCycleStart grp s) ?_, fun hnone => gives_of_exec (exec_gcCycleStart grp s) ?_⟩
  · simp only [Dev.cycleStart, if_neg hgo, hx]
    exact ⟨_, rfl, rfl, rfl, rfl, rfl, rfl⟩
  · simp only [Dev.cycleStart, if_neg hgo, hnone]

/-! ### The cycle of a victim -/

theorem Dev.cycle?_congr {a b : Dev} (h : a.drove.cycles = b.drove.cycles) (serial : Nat) : a.cycle? serial = b.cycle? serial := by
  rw [Dev.cycle?, h, Dev.cycle?]

/-- A change of a victim's cycle that keeps the victim. -/
theorem Dev.cycle?_modCycle {d : Dev} {serial : Nat} {c : GcCycle} {f : GcCycle → GcCycle} (hf : ∀ c, (f c).victim = c.victim)
    (h : d.cycle? serial = some c) : (d.modCycle serial f).cycle? serial = some (f c) := by
  have hvictim : c.victim = serial := by simpa using List.find?_some h
  have hsame : ((fun c : GcCycle => c.victim == serial) ∘ fun c => if c.victim = serial then f c else c) = fun c => c.victim == serial := by
    funext e
    simp only [Function.comp_apply, apply_ite GcCycle.victim, hf, ite_self]
  have hfind : d.drove.cycles.find? (fun c => c.victim == serial) = some c := h
  rw [Dev.cycle?, Dev.modCycle, List.find?_map, hsame, hfind, Option.map_some, if_pos hvictim]

/-! ### Copies and their destinations (R281) -/

theorem exec_copyBatch (serial : W32) (bad : List (BitVec 38)) (s : State) :
    exec (.copyBatch serial bad) s = s.apply fun d => d.copyBatch serial.toNat (bad.map BitVec.toNat) := rfl

theorem exec_gcDestinationsClosed (serial : W32) (s : State) :
    exec (.gcDestinationsClosed serial) s = s.apply fun d => d.destsClosed serial.toNat := rfl

section
variable {d : Dev} {serial : Nat} {x : Drove} {c : GcCycle} (hc : d.cycle? serial = some c)
include hc

/-- With nothing left to copy the cycle goes to step 3 with the destinations it has. -/
theorem Dev.copyBatch_done {bad : List Nat} (hx : d.drv? serial = some x) (hstep : c.step = 2) (hstop : d.drove.stopped = false)
    (hlive : d.liveEntries bad x = []) (htomb : d.liveTombs x = []) :
    d.copyBatch serial bad = d.modCycle serial fun e => { e with step := 3 } := by
  simp [Dev.copyBatch, hx, hc, hstep, hstop, hlive, htomb]

theorem Dev.copyBatch_other_step (bad : List Nat) (hx : d.drv? serial = some x) (hstep : c.step ≠ 2) : d.copyBatch serial bad = d := by
  simp [Dev.copyBatch, hx, hc, hstep]

/-- With every destination Closed or Released the cycle records the read epoch. -/
theorem Dev.destsClosed_all (hstep : c.step = 3) (hall : ∀ q ∈ c.dests, ∀ y, d.drv? q = some y → y.state = 5 ∨ y.state = 7) :
    d.destsClosed serial = d.modCycle serial fun e => { e with step := 4, epoch := d.drove.epoch } := by
  have hdests : c.dests.all (fun s => ((d.drv? s).map (fun x => x.state == 5 || x.state == 7)).getD true) = true := by
    refine List.all_eq_true.mpr fun q hq => ?_
    cases hy : d.drv? q with
    | none => rfl
    | some y => simpa using hall q hq y hy
  simp only [Dev.destsClosed, hc, if_pos (And.intro hstep hdests)]

/-- A destination that is neither Closed nor Released keeps the cycle at its step. -/
theorem Dev.destsClosed_waits {q : Nat} {y : Drove} (hq : q ∈ c.dests) (hy : d.drv? q = some y) (h5 : y.state ≠ 5) (h7 : y.state ≠ 7) :
    d.destsClosed serial = d := by
  have hdests : ¬ (c.dests.all (fun s => ((d.drv? s).map (fun x => x.state == 5 || x.state == 7)).getD true) = true) := fun hall => by
    have := List.all_eq_true.mp hall q hq
    simp [hy, h5, h7] at this
  rw [Dev.destsClosed, hc]
  exact if_neg fun h => hdests h.2
end

/-- COPY_BATCH of a victim with nothing left to copy, and at another step. -/
theorem copyBatch_outcome (serial : W32) (bad : List (BitVec 38)) (s : State) (x : Drove) (c : GcCycle)
    (hx : s.dev.drv? serial.toNat = some x) (hc : s.dev.cycle? serial.toNat = some c) :
    (c.step = 2 → s.dev.drove.stopped = false → s.dev.liveEntries (bad.map BitVec.toNat) x = [] → s.dev.liveTombs x = [] →
      Does (.copyBatch serial bad) s fun d => d.cycle? serial.toNat = some { c with step := 3 } ∧ d.mem = s.dev.mem)
    ∧ (c.step ≠ 2 → Gives (.copyBatch serial bad) s s.dev) := by
  refine ⟨fun hstep hstop hlive htomb => does_of_exec (exec_copyBatch serial bad s) ?_, fun hstep => ?_⟩
  · rw [Dev.copyBatch_done hc hx hstep hstop hlive htomb]
    exact ⟨Dev.cycle?_modCycle (fun _ => rfl) hc, rfl⟩
  · exact gives_of_exec (exec_copyBatch serial bad s) (Dev.copyBatch_other_step hc _ hx hstep)

/-- GC_DESTINATIONS_CLOSED with the destinations closed, and with one open. -/
theorem gcDestinationsClosed_outcome (serial : W32) (s : State) (c : GcCycle) (hc : s.dev.cycle? serial.toNat = some c) :
    (c.step = 3 → (∀ q ∈ c.dests, ∀ y, s.dev.drv? q = some y → y.state = 5 ∨ y.state = 7) → Does (.gcDestinationsClosed serial) s fun d =>
      d.cycle? serial.toNat = some { c with step := 4, epoch := s.dev.drove.epoch } ∧ d.mem = s.dev.mem)
    ∧ (c.step = 3 → (∃ q ∈ c.dests, ∃ y, s.dev.drv? q = some y ∧ y.state = 2) → Gives (.gcDestinationsClosed serial) s s.dev) := by
  refine ⟨fun hstep hall => does_of_exec (exec_gcDestinationsClosed serial s) ?_, fun _ ⟨q, hq, y, hy, h2⟩ => ?_⟩
  · rw [Dev.destsClosed_all hc hstep hall]
    exact ⟨Dev.cycle?_modCycle (fun _ => rfl) hc, rfl⟩
  · exact gives_of_exec (exec_gcDestinationsClosed serial s) (Dev.destsClosed_waits hc hq hy (by omega) (by omega))

/-! ### Read epochs (R285) -/

theorem exec_readEpochAdvance (s : State) : exec .readEpochAdvance s = s.apply Dev.epochAdvance := rfl

theorem exec_readEpochDrained (serial : W32) (s : State) :
    exec (.readEpochDrained serial) s = s.apply fun d => d.epochPassed serial.toNat := rfl

/-- The epoch advances unless the one 15 behind is counted. -/
theorem readEpochAdvance_outcome (s : State) :
    (s.dev.epochCount (s.dev.drove.epoch + 1) = 0 →
      Gives .readEpochAdvance s { s.dev with drove := { s.dev.drove with epoch := s.dev.drove.epoch + 1 } })
    ∧ (s.dev.epochCount (s.dev.drove.epoch + 1) ≠ 0 → Gives .readEpochAdvance s s.dev) :=
  ⟨fun h => gives_of_exec (exec_readEpochAdvance s) (if_neg fun hcounted => hcounted h),
    fun h => gives_of_exec (exec_readEpochAdvance s) (if_pos h)⟩

@[simp] theorem Dev.beginErase_cycles (d : Dev) (die g serial : Nat) : (d.beginErase die g serial).drove.cycles = d.drove.cycles := rfl

theorem Dev.retireBlock_cycles (d : Dev) (die g reason serial : Nat) :
    (d.retireBlock die g reason serial).drove.cycles = d.drove.cycles := by
  unfold Dev.retireBlock
  dsimp only
  split <;> rfl

/-- A cycle whose epoch has drained hands the victim's blocks on: it goes to step 6, and no rebuild pass of the victim is left. -/
theorem Dev.epochPassed_drained {d : Dev} {serial : Nat} {x : Drove} {c : GcCycle} (hx : d.drv? serial = some x)
    (hc : d.cycle? serial = some c) (hstep : c.step = 4) (hdrained : d.epochDrained c.epoch = true) (hrep : d.repairsUsed = 0)
    (hvalid : d.validSum x = 0) :
    (d.epochPassed serial).cycle? serial = some { c with step := 6 } ∧ ∀ p ∈ (d.epochPassed serial).drove.passes, p.serial ≠ serial := by
  have hgo : ¬ (c.step ≠ 4 ∨ !d.epochDrained c.epoch ∨ d.repairsUsed ≠ 0 ∨ d.validSum x ≠ 0) := by simp [hstep, hdrained, hrep, hvalid]
  simp only [Dev.epochPassed, hx, hc, if_neg hgo]
  refine ⟨Dev.cycle?_modCycle (fun _ => rfl) ((Dev.cycle?_congr ?_ serial).trans hc), fun p hp => ?_⟩
  · refine (Dev.foldl_keeps (fun d => d.drove.cycles) _ (fun d p => Dev.beginErase_cycles d ..) _ _).trans ?_
    refine Dev.foldl_keeps (fun d => d.drove.cycles) _ (fun d i => ?_) _ _
    split
    · rfl
    · split
      · exact Dev.retireBlock_cycles ..
      · exact Dev.beginErase_cycles ..
  · exact bne_iff_ne.mp (List.mem_filter.mp hp).2

theorem Dev.epochPassed_counted {d : Dev} {serial : Nat} {x : Drove} {c : GcCycle} (hx : d.drv? serial = some x)
    (hc : d.cycle? serial = some c) (hcounted : d.epochDrained c.epoch = false) : d.epochPassed serial = d := by
  simp [Dev.epochPassed, hx, hc, hcounted]

/-- READ_EPOCH_DRAINED once the epoch has drained with no valid IU left, and before. -/
theorem readEpochDrained_outcome (serial : W32) (s : State) (x : Drove) (c : GcCycle) (hx : s.dev.drv? serial.toNat = some x)
    (hc : s.dev.cycle? serial.toNat = some c) :
    (c.step = 4 → s.dev.epochDrained c.epoch = true → s.dev.repairsUsed = 0 → s.dev.validSum x = 0 → Does (.readEpochDrained serial) s fun d =>
      d.cycle? serial.toNat = some { c with step := 6 } ∧ (∀ p ∈ d.drove.passes, p.serial ≠ serial.toNat))
    ∧ (c.step = 4 → s.dev.epochDrained c.epoch = false → Gives (.readEpochDrained serial) s s.dev) :=
  ⟨fun hstep hdrained hrep hvalid =>
      does_of_exec (exec_readEpochDrained serial s) (Dev.epochPassed_drained hx hc hstep hdrained hrep hvalid),
    fun _ hcounted => gives_of_exec (exec_readEpochDrained serial s) (Dev.epochPassed_counted hx hc hcounted)⟩

/-! ### Release (R295) -/

theorem exec_droveRelease (serial : W32) (s : State) : exec (.droveRelease serial) s = s.apply fun d => d.droveRelease serial.toNat := rfl

@[simp] theorem Dev.drv?_setDrove (d : Dev) (x : Drove) : (d.setDrove x).drv? x.serial = some x := Tab.get?_set_same ..

theorem Dev.modDrove_of_drv? {d : Dev} {serial : Nat} {x : Drove} (h : d.drv? serial = some x) (f : Drove → Drove) :
    d.modDrove serial f = d.setDrove (f x) := by
  rw [Dev.modDrove, h]

theorem Dev.drv?_congr {a b : Dev} (h : a.drove.droves = b.drove.droves) (serial : Nat) : a.drv? serial = b.drv? serial := by
  rw [Dev.drv?, h, Dev.drv?]

/-- A header that is written leaves the drove in its state. -/
theorem Dev.drv?_writeHeader {d : Dev} {x : Drove} (h : d.drv? x.serial = some x) :
    ∃ y, (d.writeHeader x.serial).drv? x.serial = some y ∧ y.state = x.state := by
  unfold Dev.writeHeader
  simp only [h]
  split
  · exact ⟨_, Dev.drv?_setDrove d { x with gen := x.gen + 1, hdrOnFlash := false }, rfl⟩
  · exact ⟨_, Dev.drv?_setDrove d { x with gen := x.gen + 1, hdrOnFlash := true }, rfl⟩

/-- With a drove's lamb slots released, each is marked so. -/
theorem Dev.released_of_releaseLamb {d : Dev} {serial : Nat} {e : Nat × LambSlot} (h : e ∈ (d.releaseLamb serial).drove.lamb)
    (hs : e.2.serial = serial) : e.2.released = true := by
  obtain ⟨b, _, rfl⟩ := List.mem_map.mp h
  by_cases hb : b.2.serial = serial
  · simp only [if_pos hb]
  · simp only [if_neg hb] at hs
    exact absurd hs hb

@[simp] theorem Dev.dropTombs_droves (d : Dev) (die g : Nat) : (d.dropTombs die g).drove.droves = d.drove.droves := rfl

/-- The victim's blocks are all handed on: the drove is Released, its cycle ends, and its lamb slots are released. -/
theorem Dev.droveRelease_done {d : Dev} {x : Drove} {c : GcCycle} (hx : d.drv? x.serial = some x) (hc : d.cycle? x.serial = some c)
    (hstep : c.step = 6) (hstop : d.drove.stopped = false)
    (hdone : ∀ i ∈ x.dataIdx ++ x.parityIdx, d.dieFailed (x.member i).die = true
      ∨ d.blkState (x.member i).die (x.member i).grp = 0 ∨ d.blkState (x.member i).die (x.member i).grp = 4) :
    (∃ y, (d.droveRelease x.serial).drv? x.serial = some y ∧ y.state = 7) ∧ (d.droveRelease x.serial).cycle? x.serial = none
      ∧ ∀ e ∈ (d.droveRelease x.serial).drove.lamb, e.2.serial = x.serial → e.2.released = true := by
  have hall : (x.dataIdx ++ x.parityIdx).all (fun i => d.dieFailed (x.member i).die || d.blkState (x.member i).die (x.member i).grp == 0
      || d.blkState (x.member i).die (x.member i).grp == 4) = true :=
    List.all_eq_true.mpr fun i hi => by simpa [or_assoc] using hdone i hi
  have hdroves : ((x.dataIdx ++ x.parityIdx).foldl (fun d i => d.dropTombs (x.member i).die (x.member i).grp) d).drv? x.serial = some x :=
    (Dev.drv?_congr (Dev.foldl_keeps (fun d => d.drove.droves) _ (fun d i => Dev.dropTombs_droves d ..) _ _) _).trans hx
  simp only [Dev.droveRelease, hx, hc, hall, hstep, hstop, Dev.modDrove_of_drv? hdroves, ne_eq, not_true_eq_false, Bool.not_true,
    Bool.false_eq_true, or_self, if_false]
  refine ⟨?_, ?_, fun e he => Dev.released_of_releaseLamb he⟩
  · obtain ⟨y, hy, hstate⟩ := Dev.drv?_writeHeader (Dev.drv?_setDrove
      ((x.dataIdx ++ x.parityIdx).foldl (fun d i => d.dropTombs (x.member i).die (x.member i).grp) d) { x with state := 7 })
    exact ⟨y, (Dev.drv?_congr rfl _).trans hy, hstate⟩
  · exact List.find?_eq_none.mpr fun e he => by simpa using (List.mem_filter.mp he).2

/-- DROVE_RELEASE of a victim with every block erased, retired or lost. -/
theorem does_droveRelease (serial : W32) (s : State) (x : Drove) (c : GcCycle) (hx : s.dev.drv? serial.toNat = some x)
    (hs : x.serial = serial.toNat) (hc : s.dev.cycle? serial.toNat = some c) (hstep : c.step = 6) (hstop : s.dev.drove.stopped = false)
    (hdone : ∀ i ∈ x.dataIdx ++ x.parityIdx, s.dev.dieFailed (x.member i).die = true
      ∨ s.dev.blkState (x.member i).die (x.member i).grp = 0 ∨ s.dev.blkState (x.member i).die (x.member i).grp = 4) :
    Does (.droveRelease serial) s fun d => (∃ y, d.drv? serial.toNat = some y ∧ y.state = 7) ∧ d.cycle? serial.toNat = none
      ∧ (∀ e ∈ d.drove.lamb, e.2.serial = serial.toNat → e.2.released = true) := by
  refine does_of_exec (exec_droveRelease serial s) ?_
  rw [← hs] at hx hc ⊢
  exact Dev.droveRelease_done hx hc hstep hstop hdone

/-! ### The erase log (R289) -/

theorem exec_eraseLogPageProgram (s : State) : exec .eraseLogPageProgram s =
    s.apply fun d => if d.elogDue || d.drove.elog.census then d.elogPageProgram else d := rfl

theorem exec_eraseLogPeriodExpiry (s : State) : exec .eraseLogPeriodExpiry s = s.apply Dev.elogExpiry := rfl

/-- Programming a page keeps the records that wait, and takes a SEQ if it succeeds. -/
theorem Dev.elogProgram_elog (d : Dev) (mk : Nat → Bytes) :
    (d.elogProgram mk).1.drove.elog.pending = d.drove.elog.pending
      ∧ (d.elogProgram mk).1.drove.elog.seq = d.drove.elog.seq + bit (d.elogProgram mk).2 := by
  unfold Dev.elogProgram
  dsimp only
  split
  · exact ⟨rfl, rfl⟩
  · split
    · rw [Dev.post_eq _ _ _ _ _ (by decide)]
      exact ⟨rfl, rfl⟩
    · exact ⟨rfl, rfl⟩

/-- In `b` the same records wait as in `a`, and SEQ has not fallen. -/
structure LogKept (a b : Dev) : Prop where
  pending : b.drove.elog.pending = a.drove.elog.pending
  seq : a.drove.elog.seq ≤ b.drove.elog.seq

theorem LogKept.of_eq {a b : Dev} (hp : b.drove.elog.pending = a.drove.elog.pending) (hs : b.drove.elog.seq = a.drove.elog.seq) :
    LogKept a b := ⟨hp, Nat.le_of_eq hs.symm⟩

theorem LogKept.trans {a b c : Dev} (h : LogKept a b) (g : LogKept b c) : LogKept a c :=
  ⟨g.pending.trans h.pending, Nat.le_trans h.seq g.seq⟩

theorem Dev.elogProgram_logKept (d : Dev) (mk : Nat → Bytes) : LogKept d (d.elogProgram mk).1 :=
  ⟨(d.elogProgram_elog mk).1, Nat.le.intro (d.elogProgram_elog mk).2.symm⟩

theorem Dev.retireDone_elog (d : Dev) (r : ElogRec) : (d.retireDone r).drove.elog = d.drove.elog := by
  unfold Dev.retireDone
  split
  · dsimp only
    rw [Dev.post_eq _ _ _ _ _ (by decide)]
    rfl
  · rfl

theorem Dev.censusStart_logKept (d : Dev) : LogKept d d.censusStart := by
  unfold Dev.censusStart
  dsimp only
  split <;> exact .of_eq rfl rfl

theorem Dev.censusStep_logKept (d : Dev) : LogKept d d.censusStep := by
  unfold Dev.censusStep
  dsimp only
  refine iteInduction (motive := LogKept d) (fun _ => .of_eq rfl rfl) fun _ => ?_
  refine iteInduction (motive := LogKept d) (fun _ => d.elogProgram_logKept _) fun _ => ?_
  exact (d.elogProgram_logKept _).trans (.of_eq rfl rfl)

/-- The next record page: the 510 oldest records that wait. -/
def Dev.recordPage (d : Dev) : Nat → Bytes := fun copy =>
  elogPage 1 copy d.drove.elog.seq d.drove.elog.base (d.drove.elog.pending.take 510).length 0 0 0 0
    ((d.drove.elog.pending.take 510).flatMap ElogRec.toBytes)

/-- A device without the 510 oldest records that wait in `d`, and with one more page since the last census. -/
def Dev.pageTaken (d e : Dev) : Dev :=
  { e with drove := { e.drove with elog := { e.drove.elog with pending := d.drove.elog.pending.drop 510,
                                                               pagesSince := e.drove.elog.pagesSince + 1 } } }

/-- A record page that is programmed takes the 510 oldest records; what follows keeps the log. -/
theorem Dev.elogPageProgram_logKept {d : Dev} (hstop : d.drove.stopped = false) (hwait : d.drove.elog.pending ≠ [])
    (hok : (d.elogProgram d.recordPage).2 = true) : LogKept (d.pageTaken (d.elogProgram d.recordPage).1) d.elogPageProgram := by
  unfold Dev.recordPage at hok
  unfold Dev.elogPageProgram
  simp only [hstop, hwait, hok, Bool.false_eq_true, Bool.not_true, if_false]
  have hretired : LogKept (d.pageTaken (d.elogProgram d.recordPage).1)
      ((d.drove.elog.pending.take 510).foldl Dev.retireDone (d.pageTaken (d.elogProgram d.recordPage).1)) := by
    have helog := Dev.foldl_keeps (fun d => d.drove.elog) Dev.retireDone Dev.retireDone_elog (d.drove.elog.pending.take 510)
      (d.pageTaken (d.elogProgram d.recordPage).1)
    exact .of_eq (congrArg ElogSt.pending helog) (congrArg ElogSt.seq helog)
  refine (hretired.trans ?_).trans (Dev.censusStep_logKept _)
  split
  · exact Dev.censusStart_logKept _
  · exact .of_eq rfl rfl

/-- A page that is due takes the 510 oldest records and a SEQ. -/
theorem does_eraseLogPageProgram (s : State) (rs : List ElogRec) (hrs : rs = s.dev.drove.elog.pending.take 510)
    (hstop : s.dev.drove.stopped = false) (hdue : s.dev.elogDue = true)
    (hok : (s.dev.elogProgram (fun copy => elogPage 1 copy s.dev.drove.elog.seq s.dev.drove.elog.base rs.length 0 0 0 0
      (rs.flatMap ElogRec.toBytes))).2 = true) :
    Does .eraseLogPageProgram s fun d =>
      d.drove.elog.pending = s.dev.drove.elog.pending.drop 510 ∧ s.dev.drove.elog.seq < d.drove.elog.seq := by
  subst hrs
  have hwait : s.dev.drove.elog.pending ≠ [] := fun h => by simp [Dev.elogDue, h] at hdue
  have hpage : (s.dev.elogProgram s.dev.recordPage).2 = true := hok
  have hnext := (s.dev.elogProgram_elog s.dev.recordPage).2
  rw [hpage] at hnext
  obtain ⟨hpending, hseq⟩ := Dev.elogPageProgram_logKept hstop hwait hpage
  refine does_of_exec (exec_eraseLogPageProgram s) ?_
  rw [if_pos (by simp [hdue])]
  exact ⟨hpending, Nat.lt_of_lt_of_le (hnext ▸ Nat.lt_succ_self _) hseq⟩

/-- The passing of time changes the times and the cores alone. -/
theorem Dev.advanceTo_eq (d : Dev) (t : Nat) :
    d.advanceTo t = { d with now := (d.advanceTo t).now, run := (d.advanceTo t).run, cores := (d.advanceTo t).cores } := by
  unfold Dev.advanceTo; split
  · rfl
  · split <;> rfl

theorem Dev.drove_advanceTo (d : Dev) (t : Nat) : (d.advanceTo t).drove = d.drove := by rw [Dev.advanceTo_eq]

theorem Dev.cfgv_advanceTo (d : Dev) (t blk f : Nat) : (d.advanceTo t).cfgv blk f = d.cfgv blk f :=
  Dev.applied_congr (by rw [Dev.advanceTo_eq]) (by rw [Dev.advanceTo_eq]) _

/-- Once the period since the oldest record has passed a page is due. -/
theorem Dev.elogExpiry_due {d : Dev} {r : ElogRec} {t : List ElogRec} (h : d.drove.elog.pending = r :: t) :
    r.createdAt + d.cfgv 7 0x30 * 1000 ≤ d.elogExpiry.now ∧ d.elogExpiry.elogDue = true ∧ d.elogExpiry.drove = d.drove := by
  have hlate := d.le_now_advanceTo (r.createdAt + d.cfgv 7 0x30 * 1000)
  simp only [Dev.elogExpiry, Dev.elogDue, h, Dev.drove_advanceTo, Dev.cfgv_advanceTo, hlate, decide_true, Bool.or_true, and_self]

/-- A page that is not due is not programmed, and the period's expiry makes a page with the oldest record due. -/
theorem eraseLog_outcome (s : State) :
    (s.dev.elogDue = false → s.dev.drove.elog.census = false → Gives .eraseLogPageProgram s s.dev)
    ∧ (s.dev.drove.elog.pending = [] → Gives .eraseLogPeriodExpiry s s.dev)
    ∧ (∀ r t, s.dev.drove.elog.pending = r :: t → Does .eraseLogPeriodExpiry s fun d => r.createdAt + s.dev.cfgv 7 0x30 * 1000 ≤ d.now
        ∧ d.elogDue = true ∧ d.drove = s.dev.drove) := by
  refine ⟨fun hdue hcensus => gives_of_exec (exec_eraseLogPageProgram s) (if_neg (by simp [hdue, hcensus])),
    fun hnone => gives_of_exec (exec_eraseLogPeriodExpiry s) (by rw [Dev.elogExpiry, hnone]),
    fun r t h => does_of_exec (exec_eraseLogPeriodExpiry s) (Dev.elogExpiry_due h)⟩

/-! ### Erases (R33, R289) -/

theorem exec_blockErase (die : DieId) (g : BitVec 12) (s : State) :
    exec (.blockErase die g) s = s.apply fun d => d.blockErase die.toNat g.toNat := rfl

/-- The BEGIN record of a block waits for a page. -/
theorem Dev.beginErase_begins (d : Dev) (die g serial : Nat) :
    (d.beginErase die g serial).drove.begunBlks.get? (die * 4096 + g) = some serial ∧ (d.beginErase die g serial).media = d.media
      ∧ ∃ r, (d.beginErase die g serial).drove.elog.pending = d.drove.elog.pending ++ [r] ∧ r.type = 1 ∧ r.die = die ∧ r.grp = g :=
  ⟨Tab.get?_set_same .., rfl, _, rfl, rfl, rfl, rfl⟩

/-- The bytes of a job's unit go into memory and its marks. -/
theorem Dev.putJob_media (d : Dev) (a : Nat) (j : WorkJob) : (d.putJob a j).media = d.media := by
  unfold Dev.putJob
  split
  · rfl
  · exact Dev.foldl_keeps Dev.media _ (fun d e => Dev.mark_media d _) _ _

/-- Posting the only job gives its item a buffer at most. -/
theorem Dev.postJob_jobs {d : Dev} {j : WorkJob} (h : d.media.jobs = [j]) (t : Nat) :
    ∃ buf posted, (d.postJob t).media.jobs = [{ j with item := { j.item with buf := buf }, posted := posted }] := by
  have hstays : d.media.jobs = [{ j with item := { j.item with buf := j.item.buf }, posted := j.posted }] := h
  unfold Dev.postJob
  split
  · exact ⟨_, _, hstays⟩
  · next e he =>
    rw [h] at he
    obtain rfl : e = j := List.mem_singleton.mp (List.mem_of_find?_eq_some he)
    have hpred := List.find?_some he
    simp only [Bool.and_eq_true, beq_iff_eq] at hpred
    dsimp only
    split
    · exact ⟨_, _, hstays⟩
    · next buf _ =>
      split
      · exact ⟨_, _, hstays⟩
      · refine ⟨buf, true, ?_⟩
        simp [Dev.modDrv, Dev.putJob_media, Dev.fillBytes, h, hpred.1]

/-- A work item that the drove engine makes while it has no other is its one job. -/
theorem Dev.addJob_jobs {d : Dev} (h : d.media.jobs = []) (w : WorkItem) (k : JobKind) (epoch : Option Nat) :
    ∃ j, (d.addJob w k epoch).1.media.jobs = [j] ∧ j.kind = k ∧ j.item.kind = w.kind ∧ j.item.die = w.die ∧ j.item.block = w.block := by
  unfold Dev.addJob
  dsimp only
  rw [h, List.nil_append]
  obtain ⟨buf, posted, hjobs⟩ := Dev.postJob_jobs
    (d := { d with drove := { d.drove with ticket := (d.drove.ticket + 1) % 2 ^ 32 }, media := { d.media with jobs := [_] } }) rfl d.drove.ticket
  exact ⟨_, hjobs, rfl, rfl, rfl, rfl⟩

section
variable {d : Dev} {die g : Nat} (hstop : d.drove.stopped = false) (hpres : d.diePresent die = true) (hlive : d.dieFailed die = false)
  (hg : g < d.dieGroups die) (hst : d.blkState die g = 1) (hjobs : d.media.jobs = [])
include hstop hpres hlive hg hst hjobs

/-- A block to erase that no drove names gets its BEGIN record. -/
theorem Dev.blockErase_begins (hnone : d.drove.begunBlks.get? (die * 4096 + g) = none) (hnamed : d.blkNamed die g = false) :
    d.blockErase die g = d.beginErase die g 0 := by
  simp [Dev.blockErase, hstop, hpres, hlive, Nat.not_le.mpr hg, hst, hjobs, hnone, hnamed]

/-- A block whose BEGIN record is on flash is erased by a work item. -/
theorem Dev.blockErase_erases (hbegun : d.begun die g = true) :
    ∃ j q, (d.blockErase die g).media.jobs = [j] ∧ j.item.kind = 4 ∧ j.item.die = die ∧ j.item.block = 4 * g ∧ j.kind = .erase die g q := by
  have hsome : (d.drove.begunBlks.get? (die * 4096 + g)).isNone = false := by
    have := (Bool.and_eq_true_iff.mp hbegun).1
    simpa [← Option.not_isSome] using this
  simp only [Dev.blockErase, hstop, hpres, hlive, Nat.not_le.mpr hg, hst, hjobs, hsome, hbegun, List.any_nil, ne_eq, not_true_eq_false,
    false_and, Bool.not_true, Bool.false_eq_true, or_self, if_false]
  obtain ⟨j, hj, hkind, hitem, hdie, hblock⟩ := Dev.addJob_jobs hjobs
    { kind := 4, flags := 2, die := die, block := 4 * g, page := 0, planes := 0xF, keyslot := 0, buf := 0, len := 0, tweak := 0, stage := 0,
      ticket := 0 } (.erase die g (d.drove.begunBlks.get 0 (die * 4096 + g))) none
  exact ⟨j, _, hj, hitem, hdie, hblock, hkind⟩
end

/-- BLOCK_ERASE of a block to erase: first its BEGIN record, then its erase. -/
theorem blockErase_outcome (die : DieId) (g : BitVec 12) (s : State) (hstop : s.dev.drove.stopped = false)
    (hpres : s.dev.diePresent die.toNat = true) (hlive : s.dev.dieFailed die.toNat = false) (hg : g.toNat < s.dev.dieGroups die.toNat)
    (hst : s.dev.blkState die.toNat g.toNat = 1) (hjobs : s.dev.media.jobs = []) :
    (s.dev.drove.begunBlks.get? (die.toNat * 4096 + g.toNat) = none → s.dev.blkNamed die.toNat g.toNat = false →
      Does (.blockErase die g) s fun d => d.drove.begunBlks.get? (die.toNat * 4096 + g.toNat) = some 0 ∧ d.media.jobs = []
        ∧ ∃ r, d.drove.elog.pending = s.dev.drove.elog.pending ++ [r] ∧ r.type = 1 ∧ r.die = die.toNat ∧ r.grp = g.toNat)
    ∧ (s.dev.begun die.toNat g.toNat = true → Does (.blockErase die g) s fun d => ∃ j q, d.media.jobs = [j] ∧ j.item.kind = 4
        ∧ j.item.die = die.toNat ∧ j.item.block = 4 * g.toNat ∧ j.kind = .erase die.toNat g.toNat q) := by
  refine ⟨fun hnone hnamed => does_of_exec (exec_blockErase die g s) ?_, fun hbegun => does_of_exec (exec_blockErase die g s) ?_⟩
  · rw [Dev.blockErase_begins hstop hpres hlive hg hst hjobs hnone hnamed]
    obtain ⟨hset, hmedia, hrec⟩ := s.dev.beginErase_begins die.toNat g.toNat 0
    exact ⟨hset, hmedia ▸ hjobs, hrec⟩
  · exact Dev.blockErase_erases hstop hpres hlive hg hst hjobs hbegun

/-! ### Retirement and wear (R291, R293, R294) -/

theorem exec_retire (die : DieId) (g : BitVec 12) (bad : List (BitVec 38)) (s : State) :
    exec (.retire die g bad) s = s.apply fun d => d.retire die.toNat g.toNat (bad.map BitVec.toNat) := rfl

/-- A block to retire that can be gets its RETIRE record, and no memory changes. -/
theorem Dev.retireBlock_records {d : Dev} {die g : Nat} (reason serial : Nat) (hst : d.blkState die g ≠ 4) (hlive : d.dieFailed die = false)
    (hnew : ∀ r ∈ d.drove.elog.pending, r.type ≠ 4) :
    ∃ r, (d.retireBlock die g reason serial).drove.elog.pending = d.drove.elog.pending ++ [r] ∧ r.type = 4 ∧ r.reason = reason
      ∧ r.die = die ∧ r.grp = g ∧ (d.retireBlock die g reason serial).mem = d.mem := by
  have hfirst : d.drove.elog.pending.any (fun r => r.type == 4 && r.die == die && r.grp == g) = false :=
    List.any_eq_false.mpr fun r hr => by simp [hnew r hr]
  have hgo : ¬ (d.blkState die g = 4 ∨ d.dieFailed die ∨ d.drove.elog.pending.any (fun r => r.type == 4 && r.die == die && r.grp == g)) := by
    simp only [hst, hlive, hfirst, Bool.false_eq_true, or_self, not_false_eq_true]
  simp only [Dev.retireBlock, if_neg hgo]
  exact ⟨_, rfl, rfl, rfl, rfl, rfl, rfl⟩

/-- RETIRE of a block without a mark, and of a marked block that no drove holds. -/
theorem retire_outcome (die : DieId) (g : BitVec 12) (bad : List (BitVec 38)) (s : State) :
    (s.dev.drove.retireMarks.get? (die.toNat * 4096 + g.toNat) = none → Gives (.retire die g bad) s s.dev)
    ∧ (∀ reason, s.dev.drove.retireMarks.get? (die.toNat * 4096 + g.toNat) = some reason → s.dev.blkState die.toNat g.toNat ≠ 4 →
        s.dev.drove.stopped = false → s.dev.ownerOf die.toNat g.toNat = none → s.dev.dieFailed die.toNat = false →
        (∀ r ∈ s.dev.drove.elog.pending, r.type ≠ 4) → Does (.retire die g bad) s fun d => ∃ r,
          d.drove.elog.pending = s.dev.drove.elog.pending ++ [r] ∧ r.type = 4 ∧ r.reason = reason ∧ r.die = die.toNat ∧ r.grp = g.toNat
            ∧ d.mem = s.dev.mem) := by
  refine ⟨fun hnone => gives_of_exec (exec_retire die g bad s) (by rw [Dev.retire, hnone]),
    fun reason hmark hst hstop howner hlive hnew => does_of_exec (exec_retire die g bad s) ?_⟩
  simp only [Dev.retire, hmark, hst, hstop, howner, Bool.false_eq_true, or_self, if_false]
  exact Dev.retireBlock_records reason 0 hst hlive hnew

theorem exec_wearLevelling (grp : Fin 8) (s : State) : exec (.wearLevelling grp) s = s.apply fun d => d.wearLevel grp.val := rfl

/-- Whether wear levelling runs in a group after its row. -/
theorem Dev.wearLevel_on (d : Dev) (grp : Nat) : (d.wearLevel grp).drove.wearOn.get false grp =
    if d.cfgv 0x011 1 < d.wearSpread grp then true
    else if d.wearSpread grp ≤ d.cfgv 0x011 1 * 3 / 4 then false else d.drove.wearOn.get false grp := by
  have hput : ∀ on : Bool, (if on then d.drove.wearOn.set grp true else d.drove.wearOn.erase grp).get false grp = on := by
    intro on
    cases on
    · exact Tab.get_erase_same ..
    · exact Tab.get_set_same ..
  exact hput _

/-- Wear levelling starts above WEAR_SPREAD, stops at three quarters of it, and between them goes on as it was. -/
theorem does_wearLevelling (grp : Fin 8) (s : State) : Does (.wearLevelling grp) s fun d => d.mem = s.dev.mem
    ∧ (s.dev.cfgv 0x011 1 < s.dev.wearSpread grp.val → d.drove.wearOn.get false grp.val = true)
    ∧ (s.dev.wearSpread grp.val ≤ s.dev.cfgv 0x011 1 * 3 / 4 → d.drove.wearOn.get false grp.val = false)
    ∧ (s.dev.wearSpread grp.val ≤ s.dev.cfgv 0x011 1 → s.dev.cfgv 0x011 1 * 3 / 4 < s.dev.wearSpread grp.val →
        d.drove.wearOn.get false grp.val = s.dev.drove.wearOn.get false grp.val) := by
  refine does_of_exec (exec_wearLevelling grp s) ?_
  rw [Dev.wearLevel_on]
  refine ⟨rfl, fun hover => if_pos hover, fun hlow => ?_, fun hle hover => ?_⟩
  · rw [if_neg (by omega), if_pos hlow]
  · rw [if_neg (by omega), if_neg (by omega)]

/-! ### The statement -/

/-- Settles O54, by the rows of a cycle in order, the erase log, erases, retirement and wear. -/
theorem collection : Obligations.Collection := by
  refine ⟨gcCycleStart_outcome, fun grp s h => gives_of_exec (exec_gcCycleStart grp s) (Dev.cycleStart_held _ h),
    fun serial bad s x c hx hs hc => ?_, readEpochAdvance_outcome, does_eraseLogPageProgram, eraseLog_outcome, blockErase_outcome,
    retire_outcome, does_wearLevelling⟩
  obtain ⟨hcopied, hotherStep⟩ := copyBatch_outcome serial bad s x c hx hc
  obtain ⟨hclosed, hopen⟩ := gcDestinationsClosed_outcome serial s c hc
  obtain ⟨hdrained, hcounted⟩ := readEpochDrained_outcome serial s x c hx hc
  exact ⟨hcopied, hotherStep, hclosed, hopen, hdrained, hcounted, does_droveRelease serial s x c hx hs hc⟩

end Sys2Proof.Machine
end

section
/-! The byte memories stay in canonical form (O59). `Dev.putBytes`, `Dev.loseRange` and `Dev.resetAs` alone change the byte memories, and
each keeps the form (`memWf_putBytes`, `memWf_filter`); every other function of the device leaves the memories as they are or calls one of
these. Each function has one frame lemma here, in the order of the model: `Dev.foo_mem` where it leaves the memories, `Dev.foo_memWf` where
it keeps the form, `Dev.mem_of_foo` and `Dev.memWf_of_foo` where it may answer nothing. A frame that holds by computation is proved by
`(rfl)`, not `rfl`: simp then rewrites with it, and the kernel does not compute two devices to compare their memories. -/
namespace Sys2Proof.Machine
open Sys2Proof.Safety

/-! ### Folds, branches and record updates -/

@[simp] theorem Dev.foldl_mem {α : Type} {f : Dev → α → Dev} (hf : ∀ d x, (f d x).mem = d.mem) (l : List α) (d : Dev) :
    (l.foldl f d).mem = d.mem := Dev.foldl_keeps Dev.mem f hf l d

@[simp] theorem Dev.foldl_memWf {α : Type} {f : Dev → α → Dev} (hf : ∀ d x, memWf d.mem = true → memWf (f d x).mem = true) (l : List α)
    {d : Dev} (h : memWf d.mem = true) : memWf (l.foldl f d).mem = true :=
  List.foldlRecOn l f h fun d hd x _ => hf d x hd

@[simp] theorem Dev.foldl_fst_mem {α β : Type} {f : Dev × β → α → Dev × β} (hf : ∀ a x, (f a x).1.mem = a.1.mem) (l : List α)
    (a : Dev × β) : (l.foldl f a).1.mem = a.1.mem :=
  List.foldlRecOn (motive := fun b => b.1.mem = a.1.mem) l f rfl fun b hb x _ => (hf b x).trans hb

@[simp] theorem Dev.foldl_fst_memWf {α β : Type} {f : Dev × β → α → Dev × β}
    (hf : ∀ a x, memWf a.1.mem = true → memWf (f a x).1.mem = true) (l : List α) {a : Dev × β} (h : memWf a.1.mem = true) :
    memWf (l.foldl f a).1.mem = true :=
  List.foldlRecOn l f h fun a ha x _ => hf a x ha

@[simp] theorem Dev.ite_mem {p : Prop} [Decidable p] (a b : Dev) : (if p then a else b).mem = if p then a.mem else b.mem :=
  apply_ite Dev.mem p a b

@[simp] theorem Dev.ite_fst_mem {β : Type} {p : Prop} [Decidable p] (a b : Dev × β) :
    (if p then a else b).1.mem = if p then a.1.mem else b.1.mem := apply_ite (fun x : Dev × β => x.1.mem) p a b

@[simp] theorem memWf_ite {p : Prop} [Decidable p] (a b : List Host.Cell) : memWf (if p then a else b) = if p then memWf a else memWf b :=
  apply_ite memWf p a b

theorem Dev.ite_memWf {p : Prop} [Decidable p] {a b : Dev} (ha : memWf a.mem = true) (hb : memWf b.mem = true) :
    memWf (if p then a else b).mem = true := by split <;> assumption

theorem Dev.ite_mem_eq {p : Prop} [Decidable p] {a b d : Dev} (ha : a.mem = d.mem) (hb : b.mem = d.mem) : (if p then a else b).mem = d.mem := by
  split <;> assumption

theorem Dev.mem_withDrove (d : Dev) (x : DroveSt) : ({ d with drove := x } : Dev).mem = d.mem := rfl

theorem Dev.mem_withFold (d : Dev) (x : FoldSt) : ({ d with fold := x } : Dev).mem = d.mem := rfl

theorem Dev.mem_withPwr (d : Dev) (x : PwrSt) : ({ d with pwr := x } : Dev).mem = d.mem := rfl

@[simp] theorem Dev.putBytes_memWf {d : Dev} (h : memWf d.mem = true) (a : Nat) (b : Bytes) : memWf (d.putBytes a b).mem = true :=
  memWf_putBytes a b h

/-! ### Frames of Machine/Ops -/

@[simp] theorem Dev.fillBytes_memWf {d : Dev} (h : memWf d.mem = true) (a : Nat) (b : Bytes) : memWf (d.fillBytes a b).mem = true := by
  simp [Dev.fillBytes, h]

@[simp] theorem Dev.carryRun_mem (d : Dev) (src dst n : Nat) : (d.carryRun src dst n).mem = d.mem := by
  unfold Dev.carryRun
  exact Dev.foldl_mem (fun d w => Dev.mark_mem ..) _ _

@[simp] theorem Dev.raiseE9_mem (d : Dev) (c : Nat) : (d.raiseE9 c).mem = d.mem := (rfl)

@[simp] theorem Dev.raiseE14_mem (d : Dev) (c : Nat) : (d.raiseE14 c).mem = d.mem := (rfl)

@[simp] theorem Dev.enterFatal_mem (d : Dev) (cause source : Nat) : (d.enterFatal cause source).mem = d.mem := by
  unfold Dev.enterFatal
  split <;> rfl

@[simp] theorem Dev.post_mem (d : Dev) (s obj arg cond cls : Nat) : (d.post s obj arg cond cls).mem = d.mem := by
  unfold Dev.post
  dsimp only
  split <;> simp

@[simp] theorem Dev.modPen_mem (d : Dev) (p : Nat) (f : PenSt → PenSt) : (d.modPen p f).mem = d.mem := by
  unfold Dev.modPen
  split <;> rfl

@[simp] theorem Dev.settlePosted_mem (d : Dev) (p : Nat) (posted : Bool) : (d.settlePosted p posted).mem = d.mem := by
  unfold Dev.settlePosted
  split <;> rfl

@[simp] theorem Dev.raiseIrq_mem (d : Dev) (ctrl q : Nat) (cq : CqSt) : (d.raiseIrq ctrl q cq).1.mem = d.mem := by
  unfold Dev.raiseIrq
  dsimp only
  (repeat' split) <;> rfl

@[simp] theorem Dev.tryPostOne_mem (d : Dev) (p : Nat) : (d.tryPostOne p).mem = d.mem := by
  unfold Dev.tryPostOne
  dsimp only
  (repeat' split) <;> simp

@[simp] theorem Dev.finishSqDelete_mem (d : Dev) (ctrl sq : Nat) : (d.finishSqDelete ctrl sq).mem = d.mem := by
  unfold Dev.finishSqDelete
  (repeat' split) <;> simp

@[simp] theorem Dev.tryPost_mem (d : Dev) (p : Nat) : (d.tryPost p).mem = d.mem := by
  unfold Dev.tryPost
  dsimp only
  (repeat' split) <;> simp

@[simp] theorem Dev.complete_mem (d : Dev) (p st res : Nat) : (d.complete p st res).mem = d.mem := Dev.mem_complete d p st res

@[simp] theorem Dev.completeData_mem (d : Dev) (p : Nat) (b : Bytes) : (d.completeData p b).mem = d.mem := by
  unfold Dev.completeData
  split <;> simp

@[simp] theorem Dev.flushDue_mem (d : Dev) (ctrl : Nat) : (d.flushDue ctrl).mem = d.mem := by simp [Dev.flushDue]

@[simp] theorem Dev.asyncEvent_mem (d : Dev) (ctrl type info page : Nat) : (d.asyncEvent ctrl type info page).mem = d.mem := by
  unfold Dev.asyncEvent
  dsimp only
  (repeat' split) <;> simp

/-! ### Frames of Machine/Nor -/

@[simp] theorem Dev.norProgramUnit_mem (d : Dev) (s u : Nat) (b : Bytes) : (d.norProgramUnit s u b).mem = d.mem := by
  unfold Dev.norProgramUnit
  dsimp only
  (repeat' split) <;> rfl

@[simp] theorem Dev.norProgram_mem (d : Dev) (a : Nat) (b : Bytes) : (d.norProgram a b).mem = d.mem := by simp [Dev.norProgram]

@[simp] theorem Dev.norFlag_mem (d : Dev) (a : Nat) : (d.norFlag a).mem = d.mem := by
  unfold Dev.norFlag
  dsimp only
  split <;> rfl

@[simp] theorem Dev.countErase_mem (d : Dev) (p : Nat) : (d.countErase p).mem = d.mem := (rfl)

@[simp] theorem Dev.norErase_mem (d : Dev) (s : Nat) : (d.norErase s).mem = d.mem := by
  unfold Dev.norErase
  dsimp only
  split <;> rfl

@[simp] theorem Dev.prepareRing_mem (d : Dev) (first last a len : Nat) : (d.prepareRing first last a len).mem = d.mem := by simp [Dev.prepareRing]

@[simp] theorem Dev.writeRecord_mem (d : Dev) (magic first last rtype chan nent : Nat) (body : Bytes) (atSector : Bool) :
    (d.writeRecord magic first last rtype chan nent body atSector).1.mem = d.mem := by simp [Dev.writeRecord]

@[simp] theorem Dev.commitRecord_mem (d : Dev) (a len : Nat) : (d.commitRecord a len).mem = d.mem := by simp [Dev.commitRecord]

@[simp] theorem Dev.voidRecord_mem (d : Dev) (a len : Nat) : (d.voidRecord a len).mem = d.mem := by simp [Dev.voidRecord]

@[simp] theorem Dev.writeSnapshot_mem (d : Dev) : d.writeSnapshot.mem = d.mem := by simp [Dev.writeSnapshot]

@[simp] theorem Dev.writePtrCopy_mem (d : Dev) (s : Nat) (b : Bytes) : (d.writePtrCopy s b).mem = d.mem := by
  unfold Dev.writePtrCopy
  dsimp only
  split <;> simp

@[simp] theorem Dev.writePointer_mem (d : Dev) (p : PtrRec) : (d.writePointer p).mem = d.mem := by simp [Dev.writePointer]

/-! ### Frames of Machine/Clock -/

@[simp] theorem Dev.modClk_mem (d : Dev) (f : ClkSt → ClkSt) : (d.modClk f).mem = d.mem := (rfl)

@[simp] theorem Dev.clkSwitch_mem (d : Dev) (v : Nat) : (d.clkSwitch v).mem = d.mem := (rfl)

@[simp] theorem Dev.clkRestart_mem (d : Dev) : d.clkRestart.mem = d.mem := (rfl)

@[simp] theorem Dev.clockPowerOn_mem (d : Dev) (x0 x1 : Bool) : (d.clockPowerOn x0 x1).mem = d.mem := by
  unfold Dev.clockPowerOn
  dsimp only
  (repeat' split) <;> rfl

@[simp] theorem Dev.referenceLoss_mem (d : Dev) : d.referenceLoss.mem = d.mem := by
  unfold Dev.referenceLoss
  dsimp only
  (repeat' split) <;> rfl

@[simp] theorem Dev.fioReady_mem (d : Dev) : d.fioReady.mem = d.mem := by
  unfold Dev.fioReady
  split <;> rfl

@[simp] theorem Dev.fioCheck_mem (d : Dev) (bad : Bool) : (d.fioCheck bad).mem = d.mem := by
  unfold Dev.fioCheck
  split <;> rfl

@[simp] theorem Dev.crystalReady_mem (d : Dev) (x : Nat) : (d.crystalReady x).mem = d.mem := (rfl)

@[simp] theorem Dev.applyFioKeep_mem (d : Dev) : d.applyFioKeep.mem = d.mem := by
  unfold Dev.applyFioKeep
  (repeat' split) <;> rfl

@[simp] theorem Dev.setGate_mem (d : Dev) (i : Nat) (g : GateSt) : (d.setGate i g).mem = d.mem := (rfl)

@[simp] theorem Dev.gateRequest_mem (d : Dev) (i : Nat) : (d.gateRequest i).mem = d.mem := by
  unfold Dev.gateRequest
  split <;> rfl

@[simp] theorem Dev.ungateRequest_mem (d : Dev) (i : Nat) : (d.ungateRequest i).mem = d.mem := by
  unfold Dev.ungateRequest
  split <;> rfl

@[simp] theorem Dev.clkGate_mem (d : Dev) (v : Nat) : (d.clkGate v).mem = d.mem := by
  unfold Dev.clkGate
  split <;> simp

@[simp] theorem Dev.gateAck_mem (d : Dev) (i : Nat) : (d.gateAck i).mem = d.mem := by
  unfold Dev.gateAck
  dsimp only
  split <;> rfl

@[simp] theorem Dev.gateTimeout_mem (d : Dev) (i : Nat) : (d.gateTimeout i).mem = d.mem := by
  unfold Dev.gateTimeout
  dsimp only
  split <;> simp

@[simp] theorem Dev.gatedTransaction_mem (d : Dev) (i : Nat) : (d.gatedTransaction i).mem = d.mem := by
  unfold Dev.gatedTransaction
  dsimp only
  split <;> rfl

@[simp] theorem Dev.clearGates_mem (d : Dev) (ids : List Nat) : (d.clearGates ids).mem = d.mem := (rfl)

/-! ### Frames of Machine/Thermal -/

@[simp] theorem Dev.takeSample_mem (d : Dev) (s : Nat) (raw : Int) : (d.takeSample s raw).mem = d.mem := by
  unfold Dev.takeSample
  dsimp only
  (repeat' split) <;> rfl

@[simp] theorem Dev.selfCheck_mem (d : Dev) (s : Nat) (ok : Bool) : (d.selfCheck s ok).mem = d.mem := by
  unfold Dev.selfCheck
  dsimp only
  (repeat' split) <;> rfl

@[simp] theorem Dev.setChan_mem (d : Dev) (c : Nat) (x : ChanSt) : (d.setChan c x).mem = d.mem := (rfl)

@[simp] theorem Dev.modChan_mem (d : Dev) (c : Nat) (f : ChanSt → ChanSt) : (d.modChan c f).mem = d.mem := (rfl)

@[simp] theorem Dev.nandTemp_mem (d : Dev) (die : Nat) (v : Int) : (d.nandTemp die v).mem = d.mem := by
  unfold Dev.nandTemp
  dsimp only
  (repeat' split) <;> rfl

@[simp] theorem Dev.thermalEvaluate_mem (d : Dev) : d.thermalEvaluate.mem = d.mem := by
  unfold Dev.thermalEvaluate
  dsimp only
  split <;> rfl

/-! ### Frames of Machine/Pads -/

@[simp] theorem Dev.loseRange_memWf {d : Dev} (h : memWf d.mem = true) (a n : Nat) : memWf (d.loseRange a n).mem = true := memWf_filter _ h

@[simp] theorem Dev.losePad_memWf {d : Dev} (h : memWf d.mem = true) (p : Nat) : memWf (d.losePad p).mem = true := by
  unfold Dev.losePad
  (repeat' split) <;> simp [h]

@[simp] theorem Dev.setPad_memWf {d : Dev} (h : memWf d.mem = true) (p st : Nat) : memWf (d.setPad p st).mem = true := by
  unfold Dev.setPad
  dsimp only
  (repeat' split) <;> simp [h]

@[simp] theorem Dev.setPads_memWf {d : Dev} (h : memWf d.mem = true) (f : Nat → Nat) (ps : List Nat) : memWf (d.setPads f ps).mem = true := by
  simp +contextual [Dev.setPads, h]

@[simp] theorem Dev.wakePad_mem (d : Dev) (p : Nat) : (d.wakePad p).mem = d.mem := Dev.mem_wakePad d p

@[simp] theorem Dev.retarget_mem (d : Dev) : d.retarget.mem = d.mem := by
  unfold Dev.retarget
  dsimp only
  (repeat' split) <;> rfl

@[simp] theorem Dev.noteWake_mem (d : Dev) (cause port : Nat) : (d.noteWake cause port).mem = d.mem := (rfl)

@[simp] theorem Dev.ctrlOperational_mem (d : Dev) (k : Nat) : (d.ctrlOperational k).mem = d.mem := (rfl)

@[simp] theorem Dev.ioWake_mem (d : Dev) (k : Nat) : (d.ioWake k).mem = d.mem := by
  unfold Dev.ioWake
  (repeat' split) <;> simp

@[simp] theorem Dev.portWake_mem (d : Dev) (port cause : Nat) : (d.portWake port cause).mem = d.mem := by
  unfold Dev.portWake
  split <;> simp

/-! ### Frames of Machine/Mapc -/

theorem Dev.mem_of_takeRepair {d : Dev} {l w : Nat} {e : Dev} (he : d.takeRepair l w = some e) : e.mem = d.mem := by
  unfold Dev.takeRepair at he
  split at he
  · cases he
    rfl
  · split at he
    · cases he
    · cases he
      rfl

@[simp] theorem Dev.mapcDirect_memWf {d : Dev} (h : memWf d.mem = true) (r : MapcReq) : memWf (d.mapcDirect r).1.mem = true := by
  unfold Dev.mapcDirect
  split
  · next w _ =>
    cases ht : d.takeRepair (lineOf r.diu) w with
    | none => exact h
    | some e => simp [Dev.mem_of_takeRepair ht, h]
  · dsimp only
    split <;> simp [h]

@[simp] theorem Dev.mapcHit_mem (d : Dev) (k : Nat) (r : MapcReq) : (d.mapcHit k r).mem = d.mem := by
  unfold Dev.mapcHit
  dsimp only
  split <;> rfl

@[simp] theorem Dev.chooseFor_mem (d : Dev) (k l : Nat) (pre : Bool) : (d.chooseFor k l pre).mem = d.mem := by
  unfold Dev.chooseFor
  dsimp only
  split <;> rfl

@[simp] theorem Dev.prefetchAfter_mem (d : Dev) (l : Nat) : (d.prefetchAfter l).mem = d.mem := by
  unfold Dev.prefetchAfter
  dsimp only
  split <;> simp

@[simp] theorem Dev.mapcQueue_mem (d : Dev) (r : MapcReq) : (d.mapcQueue r).mem = d.mem := (rfl)

@[simp] theorem Dev.dropMarkedLine_memWf {d : Dev} (h : memWf d.mem = true) (k : Nat) : memWf (d.dropMarkedLine k).mem = true := by
  unfold Dev.dropMarkedLine
  dsimp only
  split
  · split
    · next hd1 =>
      obtain ⟨_, _, ht⟩ := Option.bind_eq_some_iff.mp hd1
      simp [Dev.mem_of_takeRepair ht, memWf_memSetRun, h]
    · exact h
  · exact h

@[simp] theorem Dev.mapcMiss_mem (d : Dev) (l : Nat) : (d.mapcMiss l).mem = d.mem := by
  unfold Dev.mapcMiss
  dsimp only
  split <;> simp

@[simp] theorem Dev.mapcTry_memWf {d : Dev} (h : memWf d.mem = true) (r : MapcReq) : memWf (d.mapcTry r).1.mem = true := by
  unfold Dev.mapcTry
  dsimp only
  (repeat' split) <;> simp [h]

@[simp] theorem Dev.mapcServe_memWf {d : Dev} (h : memWf d.mem = true) : memWf d.mapcServe.mem = true := by simp +contextual [Dev.mapcServe, h]

@[simp] theorem Dev.mapcIssue_memWf {d : Dev} (h : memWf d.mem = true) (r : MapcReq) : memWf (d.mapcIssue r).mem = true := by
  unfold Dev.mapcIssue
  dsimp only
  (repeat' split) <;> simp [h]

@[simp] theorem Dev.fillReturn_memWf {d : Dev} (h : memWf d.mem = true) (l : Nat) : memWf (d.fillReturn l).mem = true := by
  unfold Dev.fillReturn
  split
  · exact h
  · dsimp only
    split
    · exact h
    · split
      · split
        · next ht => simp [Dev.mem_of_takeRepair ht, h]
        · exact h
      · simp [h]

@[simp] theorem Dev.evictNext_mem (d : Dev) : d.evictNext.mem = d.mem := by
  unfold Dev.evictNext
  (repeat' split) <;> rfl

@[simp] theorem Dev.writebackAccepted_memWf {d : Dev} (h : memWf d.mem = true) (l : Nat) : memWf (d.writebackAccepted l).mem = true := by
  unfold Dev.writebackAccepted
  split
  · exact h
  · dsimp only
    split
    · exact h
    · split <;> simp [memWf_memSetRun, h]

@[simp] theorem Dev.settleLine_memWf {d : Dev} (h : memWf d.mem = true) (l : Nat) : memWf (d.settleLine l).mem = true := by
  unfold Dev.settleLine
  refine Dev.fillReturn_memWf ?_ _
  repeat' split
  all_goals simp [h]

@[simp] theorem Dev.mapcRun_memWf {d : Dev} (h : memWf d.mem = true) (r : MapcReq) : memWf (d.mapcRun r).1.mem = true := by
  unfold Dev.mapcRun
  dsimp only
  have hd := Dev.settleLine_memWf (Dev.settleLine_memWf (Dev.mapcIssue_memWf (Dev.settleLine_memWf h (lineOf r.diu)) r) (lineOf r.diu)) (lineOf r.diu)
  repeat' split
  all_goals simp only [hd]

@[simp] theorem Dev.mapLookup_memWf {d : Dev} (h : memWf d.mem = true) (diu : Nat) : memWf (d.mapLookup diu).1.mem = true := by
  simp [Dev.mapLookup, h]

@[simp] theorem Dev.mapUpdate_memWf {d : Dev} (h : memWf d.mem = true) (diu e : Nat) : memWf (d.mapUpdate diu e).1.mem = true := by
  simp [Dev.mapUpdate, h]

@[simp] theorem Dev.mapUpdateIf_memWf {d : Dev} (h : memWf d.mem = true) (diu e oldKey : Nat) : memWf (d.mapUpdateIf diu e oldKey).1.mem = true := by
  simp [Dev.mapUpdateIf, h]

@[simp] theorem Dev.mapcDisable_memWf {d : Dev} (h : memWf d.mem = true) : memWf d.mapcDisable.mem = true := by
  unfold Dev.mapcDisable
  split <;> simp [h]

@[simp] theorem Dev.mapcEnable_mem (d : Dev) : d.mapcEnable.mem = d.mem := by
  unfold Dev.mapcEnable
  split <;> rfl

@[simp] theorem Dev.mapcFlushDone_mem (d : Dev) : d.mapcFlushDone.mem = d.mem := by
  unfold Dev.mapcFlushDone
  split <;> rfl

@[simp] theorem Dev.mapcClean_memWf {d : Dev} (h : memWf d.mem = true) : memWf d.mapcClean.mem = true := by
  unfold Dev.mapcClean
  split
  · exact h
  · exact Dev.foldl_memWf (fun d e hd => by simp [memWf_memSetRun, hd]) _ h

@[simp] theorem Dev.mapcFlushBanks_memWf {d : Dev} (h : memWf d.mem = true) : memWf d.mapcFlushBanks.mem = true := by
  unfold Dev.mapcFlushBanks
  exact Dev.mapcServe_memWf (Dev.foldl_memWf (fun d e hd => by simp [memWf_memSetRun, hd]) _ h)

@[simp] theorem Dev.repairRelease_memWf {d : Dev} (h : memWf d.mem = true) (k : Nat) : memWf (d.repairRelease k).mem = true := by
  simp [Dev.repairRelease, h]

/-! ### Frames of Machine/Tally -/

theorem Dev.mem_of_appendOnce {d : Dev} {kind : Nat} {body : Bytes} {good : Bool} {e : Dev} (he : d.appendOnce kind body good = some e) :
    e.mem = d.mem := by
  unfold Dev.appendOnce at he
  dsimp only at he
  (repeat' split at he) <;> cases he <;> simp

@[simp] theorem Dev.appendFailed_mem (d : Dev) : d.appendFailed.mem = d.mem := (rfl)

@[simp] theorem Dev.append_mem (d : Dev) (kind : Nat) (body : Bytes) (fails : TallyFails) : (d.append kind body fails).1.mem = d.mem := by
  unfold Dev.append
  split
  · simp
  · split
    · simp
    · next h1 =>
      split
      · exact Dev.mem_of_appendOnce h1
      · split
        · simp [Dev.mem_of_appendOnce h1]
        · next h2 => split <;> simp [Dev.mem_of_appendOnce h2, Dev.mem_of_appendOnce h1]

@[simp] theorem Dev.appendEntry_mem (d : Dev) (e : Entry) (fails : TallyFails) : (d.appendEntry e fails).1.mem = d.mem := by simp [Dev.appendEntry]

@[simp] theorem Dev.buildTree_mem (d : Dev) : d.buildTree.mem = d.mem := by
  unfold Dev.buildTree
  dsimp only
  split <;> rfl

@[simp] theorem Dev.recordRefusal_mem (d : Dev) (e : Entry) (fails : TallyFails) : (d.recordRefusal e fails).mem = d.mem := by
  unfold Dev.recordRefusal
  dsimp only
  (repeat' split) <;> simp

@[simp] theorem Dev.raiseCounter_mem (d : Dev) (cid v : Nat) (cntlid : Nat) (fails : TallyFails) :
    (d.raiseCounter cid v cntlid fails).1.mem = d.mem := by
  unfold Dev.raiseCounter
  dsimp only
  (repeat' split) <;> simp

/-! ### Frames of Machine/Dram -/

@[simp] theorem Dev.modDch_mem (d : Dev) (n : Nat) (f : DramChan → DramChan) : (d.modDch n f).mem = d.mem := (rfl)

@[simp] theorem Dev.saveFoldRemap_mem (d : Dev) : d.saveFoldRemap.mem = d.mem := by simp [Dev.saveFoldRemap]

@[simp] theorem Dev.saveRemap_mem (d : Dev) : d.saveRemap.mem = d.mem := by
  simp only [Dev.saveRemap]
  split <;> simp

@[simp] theorem Dev.sramHard_mem (d : Dev) (g base a : Nat) : (d.sramHard g base a).mem = d.mem := by
  unfold Dev.sramHard
  dsimp only
  (repeat' split) <;> simp

@[simp] theorem Dev.createMark_mem (d : Dev) (src obj : Nat) : (d.createMark src obj).mem = d.mem := (rfl)

@[simp] theorem Dev.markStaged_mem (d : Dev) (a : Nat) : (d.markStaged a).mem = d.mem := by
  unfold Dev.markStaged
  split <;> rfl

@[simp] theorem Dev.lostTable_mem (d : Dev) (src a : Nat) : (d.lostTable src a).mem = d.mem := by
  unfold Dev.lostTable
  split <;> simp

@[simp] theorem Dev.markDram_mem (d : Dev) (a : Nat) : (d.markDram a).mem = d.mem := (rfl)

@[simp] theorem Dev.dramRemapRow_mem (d : Dev) (n : Nat) (x : DramAddr) (dev : Nat) : (d.dramRemapRow n x dev).mem = d.mem := by
  unfold Dev.dramRemapRow
  dsimp only
  (repeat' split) <;> simp

@[simp] theorem Dev.dramCeRule_mem (d : Dev) (n : Nat) (x : DramAddr) (dev : Nat) : (d.dramCeRule n x dev).mem = d.mem := by
  unfold Dev.dramCeRule
  dsimp only
  split <;> simp

@[simp] theorem Dev.memFault_mem (d : Dev) (a : Nat) (f : MemFault) : (d.memFault a f).mem = d.mem := by
  unfold Dev.memFault
  (repeat' split) <;> simp

@[simp] theorem Dev.mapLineFault_mem (d : Dev) (line word : Nat) (f : MemFault) : (d.mapLineFault line word f).mem = d.mem := by
  unfold Dev.mapLineFault
  (repeat' split) <;> rfl

@[simp] theorem Dev.dramRequest_memWf {d : Dev} (h : memWf d.mem = true) (port a lat : Nat) (f : MemFault) :
    memWf (d.dramRequest port a lat f).mem = true := by
  unfold Dev.dramRequest
  dsimp only
  split <;> simp [h]

@[simp] theorem Dev.dramRefresh_mem (d : Dev) (n : Nat) : (d.dramRefresh n).mem = d.mem := by
  unfold Dev.dramRefresh
  split <;> rfl

@[simp] theorem Dev.zqStart_mem (d : Dev) (n : Nat) : (d.zqStart n).mem = d.mem := by
  unfold Dev.zqStart
  split <;> rfl

@[simp] theorem Dev.mr4Poll_mem (d : Dev) (need n : Nat) : (d.mr4Poll need n).mem = d.mem := by
  unfold Dev.mr4Poll
  (repeat' split) <;> rfl

@[simp] theorem Dev.driftCheck_mem (d : Dev) (n : Nat) (beyond : Bool) : (d.driftCheck n beyond).mem = d.mem := by
  unfold Dev.driftCheck
  split <;> rfl

@[simp] theorem Dev.retrainStart_mem (d : Dev) (n : Nat) : (d.retrainStart n).mem = d.mem := by
  unfold Dev.retrainStart
  dsimp only
  (repeat' split) <;> rfl

@[simp] theorem Dev.dramTraining_mem (d : Dev) (n fails ppr : Nat) : (d.dramTraining n fails ppr).mem = d.mem := by
  unfold Dev.dramTraining
  dsimp only
  split
  · rfl
  · split <;> simp

@[simp] theorem Dev.loadRemaps_mem (d : Dev) : d.loadRemaps.mem = d.mem := (rfl)

@[simp] theorem Dev.fillSram_mem (d : Dev) : d.fillSram.mem = d.mem := by simp [Dev.fillSram]

@[simp] theorem Dev.fillDram_memWf {d : Dev} (h : memWf d.mem = true) (fails : List Nat) : memWf (d.fillDram fails).mem = true := by
  unfold Dev.fillDram
  split <;> simp [h]

@[simp] theorem Dev.nandGrazeLate_mem (d : Dev) : d.nandGrazeLate.mem = d.mem := by
  unfold Dev.nandGrazeLate
  (repeat' split) <;> simp

/-! ### Frames of Machine/KeyStore -/

@[simp] theorem Dev.slotDrop_mem (d : Dev) (i : Nat) : (d.slotDrop i).mem = d.mem := by
  unfold Dev.slotDrop
  split <;> rfl

@[simp] theorem Dev.keyClear_mem (d : Dev) (i : Nat) : (d.keyClear i).mem = d.mem := by
  unfold Dev.keyClear
  split <;> rfl

@[simp] theorem Dev.slotEmpty_mem (d : Dev) (i : Nat) : (d.slotEmpty i).mem = d.mem := by
  unfold Dev.slotEmpty
  split <;> rfl

@[simp] theorem Dev.zeroize_mem (d : Dev) : d.zeroize.mem = d.mem := (rfl)

@[simp] theorem Dev.keyCmd_mem (d : Dev) (v : Nat) : (d.keyCmd v).mem = d.mem := by
  unfold Dev.keyCmd
  (repeat' split) <;> simp

@[simp] theorem Dev.keyBus_mem (d : Dev) (ch eng slot : Nat) : (d.keyBus ch eng slot).mem = d.mem := by
  unfold Dev.keyBus
  dsimp only
  (repeat' split) <;> rfl

@[simp] theorem Dev.unwrapStart_mem (d : Dev) (off : Nat) : (d.unwrapStart off).mem = d.mem := by
  unfold Dev.unwrapStart
  split <;> rfl

@[simp] theorem Dev.loadSlot_mem (d : Dev) (i : Nat) (key : Bytes) : (d.loadSlot i key).mem = d.mem := (rfl)

@[simp] theorem Dev.refuseLoad_mem (d : Dev) (st : Nat) : (d.refuseLoad st).1.mem = d.mem := (rfl)

@[simp] theorem Dev.unwrapRun_memWf {d : Dev} (h : memWf d.mem = true) (o : UnwrapOp) : memWf (d.unwrapRun o).1.mem = true := by
  unfold Dev.unwrapRun
  dsimp only
  repeat' split
  all_goals simp [h]

@[simp] theorem Dev.unwrapComplete_memWf {d : Dev} (h : memWf d.mem = true) : memWf d.unwrapComplete.mem = true := by
  unfold Dev.unwrapComplete
  split <;> simp [h]

@[simp] theorem Dev.unwrapStartOp_mem (d : Dev) (op off : Nat) : (d.unwrapStartOp op off).mem = d.mem := by
  unfold Dev.unwrapStartOp
  split <;> simp

@[simp] theorem Dev.storeBlob_mem (d : Dev) (b : Bytes) : (d.storeBlob b).mem = d.mem := by
  unfold Dev.storeBlob
  exact Dev.foldl_mem (fun d c => by split <;> simp) _ _

@[simp] theorem Dev.eraseBlob_mem (d : Dev) (slot : Nat) : (d.eraseBlob slot).mem = d.mem := by
  unfold Dev.eraseBlob
  exact Dev.foldl_mem (fun d c => by split <;> rfl) _ _

@[simp] theorem Dev.generateKey_mem (d : Dev) (nsid gen wsn : Nat) : (d.generateKey nsid gen wsn).1.mem = d.mem := by
  unfold Dev.generateKey
  (repeat' split) <;> simp

@[simp] theorem Dev.loadBlobs_mem (d : Dev) : d.loadBlobs.mem = d.mem := by
  unfold Dev.loadBlobs
  refine Dev.foldl_mem (fun d a => ?_) _ _
  dsimp only
  repeat' split
  all_goals simp

@[simp] theorem Dev.drbgReseed_mem (d : Dev) : d.drbgReseed.mem = d.mem := by
  unfold Dev.drbgReseed
  split <;> rfl

@[simp] theorem Dev.healthFail_mem (d : Dev) (rct : Bool) : (d.healthFail rct).mem = d.mem := (rfl)

@[simp] theorem Dev.healthRecover_mem (d : Dev) : d.healthRecover.mem = d.mem := by
  unfold Dev.healthRecover
  (repeat' split) <;> rfl

@[simp] theorem Dev.setAesDie_mem (d : Dev) (k : Nat) (x : AesDie) : (d.setAesDie k x).mem = d.mem := (rfl)

@[simp] theorem Dev.dieReseed_mem (d : Dev) (k : Nat) (katOk : Bool) : (d.dieReseed k katOk).mem = d.mem := by
  unfold Dev.dieReseed
  dsimp only
  (repeat' split) <;> simp

@[simp] theorem Dev.dieStarved_mem (d : Dev) (k : Nat) : (d.dieStarved k).mem = d.mem := by
  unfold Dev.dieStarved
  dsimp only
  split <;> simp

/-! ### Frames of Machine/Flash -/

@[simp] theorem Dev.modDie_mem (d : Dev) (i : Nat) (f : DieSt → DieSt) : (d.modDie i f).mem = d.mem := (rfl)

@[simp] theorem Dev.putCw_mem (d : Dev) (key : Nat) (c : Codeword) : (d.putCw key c).mem = d.mem := (rfl)

@[simp] theorem Dev.eraseGroup_mem (d : Dev) (die g : Nat) : (d.eraseGroup die g).mem = d.mem := (rfl)

@[simp] theorem Dev.enqueue_mem (d : Dev) (x : FopDesc) (o : OpOrigin) (core : Nat) : (d.enqueue x o core).mem = d.mem := by
  unfold Dev.enqueue
  split <;> rfl

@[simp] theorem Dev.fop_mem (d : Dev) (core : Nat) (x : FopDesc) (o : OpOrigin) : (d.fop core x o).1.mem = d.mem := by
  unfold Dev.fop
  dsimp only
  split <;> simp

@[simp] theorem Dev.setOp_mem (d : Dev) (die i : Nat) (o : DieOp) : (d.setOp die i o).mem = d.mem := (rfl)

@[simp] theorem Dev.endOp_mem (d : Dev) (die i status steps : Nat) : (d.endOp die i status steps).mem = d.mem := by
  unfold Dev.endOp
  (repeat' split) <;> simp

@[simp] theorem Dev.cutMedia_mem (d : Dev) (o : DieOp) : (d.cutMedia o).mem = d.mem := by
  unfold Dev.cutMedia
  (repeat' split) <;> simp

@[simp] theorem Dev.cancelDie_mem (d : Dev) (die : Nat) : (d.cancelDie die).mem = d.mem := by
  unfold Dev.cancelDie
  exact Dev.foldl_mem (fun d i => by split <;> simp) _ _

@[simp] theorem Dev.cancelChan_mem (d : Dev) (ch : Nat) : (d.cancelChan ch).mem = d.mem := by simp [Dev.cancelChan]

@[simp] theorem Dev.dropOps_mem (d : Dev) (die : Nat) : (d.dropOps die).mem = d.mem := by simp [Dev.dropOps]

@[simp] theorem Dev.dropChanOps_mem (d : Dev) (ch : Nat) : (d.dropChanOps ch).mem = d.mem := by simp [Dev.dropChanOps]

@[simp] theorem Dev.startOp_mem (d : Dev) (die i : Nat) : (d.startOp die i).mem = d.mem := by
  unfold Dev.startOp
  dsimp only
  (repeat' split) <;> simp

@[simp] theorem Dev.arrayStart_mem (d : Dev) (die : Nat) : (d.arrayStart die).mem = d.mem := by
  unfold Dev.arrayStart
  dsimp only
  (repeat' split) <;> simp

@[simp] theorem Dev.transferred_mem (d : Dev) (die : Nat) : (d.transferred die).mem = d.mem := by
  unfold Dev.transferred
  (repeat' split) <;> rfl

@[simp] theorem Dev.releaseRead_mem (d : Dev) (ch : Nat) : (d.releaseRead ch).1.mem = d.mem := by
  unfold Dev.releaseRead
  split <;> rfl

@[simp] theorem Dev.progSuspend_mem (d : Dev) (die : Nat) : (d.progSuspend die).mem = d.mem := by
  unfold Dev.progSuspend
  dsimp only
  (repeat' split) <;> simp

@[simp] theorem Dev.suspendAck_mem (d : Dev) (die : Nat) : (d.suspendAck die).mem = d.mem := (rfl)

@[simp] theorem Dev.suspendTimeout_mem (d : Dev) (die : Nat) : (d.suspendTimeout die).mem = d.mem := by
  unfold Dev.suspendTimeout
  split <;> rfl

@[simp] theorem Dev.progResume_mem (d : Dev) (die : Nat) : (d.progResume die).mem = d.mem := by
  unfold Dev.progResume
  (repeat' split) <;> rfl

@[simp] theorem Dev.deliverRead_memWf {d : Dev} (h : memWf d.mem = true) (o : DieOp) (bad : Nat) : memWf (d.deliverRead o bad).mem = true := by
  unfold Dev.deliverRead
  refine Dev.foldl_memWf (fun d i hd => ?_) _ h
  dsimp only
  repeat' split
  all_goals simp [hd]

@[simp] theorem Dev.programMedia_mem (d : Dev) (o : DieOp) (cond : CwCond) : (d.programMedia o cond).mem = d.mem := by
  unfold Dev.programMedia
  split <;> simp

@[simp] theorem Dev.channelFault_mem (d : Dev) (ch : Nat) : (d.channelFault ch).mem = d.mem := by simp [Dev.channelFault]

@[simp] theorem Dev.opComplete_memWf {d : Dev} (h : memWf d.mem = true) (die : Nat) (x : DieOutcome) : memWf (d.opComplete die x).mem = true := by
  unfold Dev.opComplete
  dsimp only
  (repeat' split) <;> simp [h]

@[simp] theorem Dev.busyTimeout_mem (d : Dev) (die : Nat) : (d.busyTimeout die).mem = d.mem := by
  unfold Dev.busyTimeout
  dsimp only
  (repeat' split) <;> simp

@[simp] theorem Dev.failMaskApplied_mem (d : Dev) (ch old new : Nat) : (d.failMaskApplied ch old new).mem = d.mem := by simp [Dev.failMaskApplied]

@[simp] theorem Dev.trainChan_mem (d : Dev) (ch fails : Nat) : (d.trainChan ch fails).mem = d.mem := by
  unfold Dev.trainChan
  dsimp only
  split <;> rfl

@[simp] theorem Dev.bringUp_mem (d : Dev) (ch : Nat) (ds : List DieInfo) (fails : Nat) : (d.bringUp ch ds fails).mem = d.mem := by
  simp [Dev.bringUp]

@[simp] theorem Dev.dqsCheck_mem (d : Dev) (ch : Nat) (lost : Bool) (fails : Nat) : (d.dqsCheck ch lost fails).mem = d.mem := by
  unfold Dev.dqsCheck
  (repeat' split) <;> simp

@[simp] theorem Dev.modDrv_mem (d : Dev) (v : Nat) (f : DrvSt → DrvSt) : (d.modDrv v f).mem = d.mem := (rfl)

@[simp] theorem Dev.putJob_memWf {d : Dev} (h : memWf d.mem = true) (a : Nat) (j : WorkJob) : memWf (d.putJob a j).mem = true := by
  unfold Dev.putJob
  split <;> simp +contextual [h]

@[simp] theorem Dev.postJob_memWf {d : Dev} (h : memWf d.mem = true) (t : Nat) : memWf (d.postJob t).mem = true := by
  unfold Dev.postJob
  dsimp only
  (repeat' split) <;> simp [h]

@[simp] theorem Dev.pumpJobs_memWf {d : Dev} (h : memWf d.mem = true) : memWf d.pumpJobs.mem = true := by simp +contextual [Dev.pumpJobs, h]

@[simp] theorem Dev.addJob_memWf {d : Dev} (h : memWf d.mem = true) (w : WorkItem) (k : JobKind) (epoch : Option Nat) :
    memWf (d.addJob w k epoch).1.mem = true := by simp [Dev.addJob, h]

@[simp] theorem Dev.issueItem_mem (d : Dev) (v : Nat) (w : WorkItem) : (d.issueItem v w).1.mem = d.mem := by
  unfold Dev.issueItem
  dsimp only
  split <;> simp

@[simp] theorem Dev.workItem_mem (d : Dev) (v : Nat) : (d.workItem v).mem = d.mem := by
  unfold Dev.workItem
  dsimp only
  (repeat' split) <;> simp

@[simp] theorem Dev.putResult_memWf {d : Dev} (h : memWf d.mem = true) (v ticket phase status steps die : Nat) :
    memWf (d.putResult v ticket phase status steps die).mem = true := by simp [Dev.putResult, h]

@[simp] theorem Dev.dropJob_mem (d : Dev) (ticket : Nat) : (d.dropJob ticket).mem = d.mem := by
  unfold Dev.dropJob
  split <;> rfl

@[simp] theorem Dev.moveToStage_memWf {d : Dev} (h : memWf d.mem = true) (w : WorkItem) : memWf (d.moveToStage w).mem = true := by
  unfold Dev.moveToStage
  split <;> simp [h]

@[simp] theorem Dev.postResult_memWf {d : Dev} (h : memWf d.mem = true) (ticket : Nat) : memWf (d.postResult ticket).1.mem = true := by
  unfold Dev.postResult
  dsimp only
  (repeat' split) <;> simp [h]

/-! ### Frames of Machine/Blocks -/

@[simp] theorem Dev.blkPut_memWf {d : Dev} (h : memWf d.mem = true) (die g off n v : Nat) : memWf (d.blkPut die g off n v).mem = true := by
  simp [Dev.blkPut, h]

@[simp] theorem Dev.setBlkState_memWf {d : Dev} (h : memWf d.mem = true) (die g st : Nat) : memWf (d.setBlkState die g st).mem = true := by
  simp [Dev.setBlkState, h]

@[simp] theorem Dev.openBlk_memWf {d : Dev} (h : memWf d.mem = true) (die g : Nat) : memWf (d.openBlk die g).mem = true := by
  unfold Dev.openBlk
  exact Dev.blkPut_memWf (Dev.blkPut_memWf (Dev.blkPut_memWf (Dev.blkPut_memWf (Dev.setBlkState_memWf h ..) ..) ..) ..) ..

@[simp] theorem Dev.addValid_memWf {d : Dev} (h : memWf d.mem = true) (key : Nat) : memWf (d.addValid key).mem = true := by simp [Dev.addValid, h]

@[simp] theorem Dev.subValid_memWf {d : Dev} (h : memWf d.mem = true) (e : Nat) : memWf (d.subValid e).mem = true := by
  unfold Dev.subValid
  split <;> simp [h]

@[simp] theorem Dev.addWritten_memWf {d : Dev} (h : memWf d.mem = true) (key wsn : Nat) : memWf (d.addWritten key wsn).mem = true := by
  simp [Dev.addWritten, h]

@[simp] theorem Dev.logRec_mem (d : Dev) (type reason die g count serial : Nat) : (d.logRec type reason die g count serial).mem = d.mem := (rfl)

theorem Dev.mem_of_elogWrite {d : Dev} {r pos seq : Nat} {page : Bytes} {e : Dev × Nat} (he : d.elogWrite r pos seq page = some e) :
    e.1.mem = d.mem := by
  unfold Dev.elogWrite at he
  dsimp only at he
  (repeat' split at he) <;> cases he <;> simp

@[simp] theorem Dev.elogProgram_mem (d : Dev) (mk : Nat → Bytes) : (d.elogProgram mk).1.mem = d.mem := by
  have hw : ∀ (d : Dev) r pos seq page, (((d.elogWrite r pos seq page).map (fun x => x.1)).getD d).mem = d.mem := by
    intro d r pos seq page
    cases he : d.elogWrite r pos seq page with
    | none => rfl
    | some e => exact Dev.mem_of_elogWrite he
  unfold Dev.elogProgram
  dsimp only
  split
  · rfl
  · split <;> simp [hw]

@[simp] theorem Dev.retireDone_memWf {d : Dev} (h : memWf d.mem = true) (r : ElogRec) : memWf (d.retireDone r).mem = true := by
  unfold Dev.retireDone
  split <;> simp [h]

@[simp] theorem Dev.censusStep_mem (d : Dev) : d.censusStep.mem = d.mem := by
  unfold Dev.censusStep
  dsimp only
  (repeat' split) <;> simp

@[simp] theorem Dev.censusStart_mem (d : Dev) : d.censusStart.mem = d.mem := by
  unfold Dev.censusStart
  dsimp only
  split <;> rfl

@[simp] theorem Dev.elogPageProgram_memWf {d : Dev} (h : memWf d.mem = true) : memWf d.elogPageProgram.mem = true := by
  unfold Dev.elogPageProgram
  dsimp only
  (repeat' split) <;> simp +contextual [h]

@[simp] theorem Dev.elogExpiry_mem (d : Dev) : d.elogExpiry.mem = d.mem := by
  unfold Dev.elogExpiry
  split <;> simp

@[simp] theorem Dev.retireBlock_mem (d : Dev) (die g reason serial : Nat) : (d.retireBlock die g reason serial).mem = d.mem := by
  unfold Dev.retireBlock
  split <;> rfl

@[simp] theorem Dev.beginErase_memWf {d : Dev} (h : memWf d.mem = true) (die g serial : Nat) : memWf (d.beginErase die g serial).mem = true := by
  simp [Dev.beginErase, h]

/-! ### Frames of Machine/Media -/

@[simp] theorem Dev.setDrove_mem (d : Dev) (x : Drove) : (d.setDrove x).mem = d.mem := (rfl)

@[simp] theorem Dev.modDrove_mem (d : Dev) (serial : Nat) (f : Drove → Drove) : (d.modDrove serial f).mem = d.mem := by
  unfold Dev.modDrove
  split <;> rfl

@[simp] theorem Dev.putLamb_mem (d : Dev) (i : Nat) (x : LambSlot) : (d.putLamb i x).mem = d.mem := (rfl)

@[simp] theorem Dev.writeHeader_mem (d : Dev) (serial : Nat) : (d.writeHeader serial).mem = d.mem := by
  unfold Dev.writeHeader
  (repeat' split) <;> rfl

@[simp] theorem Dev.releaseLamb_mem (d : Dev) (serial : Nat) : (d.releaseLamb serial).mem = d.mem := (rfl)

/-! ### Frames of Machine/Place -/

@[simp] theorem Dev.setUnit_mem (d : Dev) (u : UnitSt) : (d.setUnit u).mem = d.mem := (rfl)

@[simp] theorem Dev.dropUnit_mem (d : Dev) (serial row i : Nat) : (d.dropUnit serial row i).mem = d.mem := (rfl)

@[simp] theorem Dev.issueUnit_memWf {d : Dev} (h : memWf d.mem = true) (x : Drove) (u : UnitSt) : memWf (d.issueUnit x u).mem = true := by
  simp [Dev.issueUnit, h]

@[simp] theorem Dev.foldUnit_memWf {d : Dev} (h : memWf d.mem = true) (serial : Nat) (u : UnitSt) : memWf (d.foldUnit serial u).mem = true := by
  unfold Dev.foldUnit
  split
  · exact h
  · dsimp only
    refine Dev.issueUnit_memWf ?_ ..
    exact Dev.foldl_memWf (fun d k hd => Dev.mapUpdateIf_memWf hd ..) _ h

@[simp] theorem Dev.pumpDrove_memWf {d : Dev} (h : memWf d.mem = true) (serial : Nat) : memWf (d.pumpDrove serial).mem = true := by
  unfold Dev.pumpDrove
  split
  · exact h
  · split
    · exact h
    · refine Dev.foldl_memWf (fun d i hd => ?_) _ h
      split
      · split <;> simp [hd]
      · exact hd

@[simp] theorem Dev.fillRow_memWf {d : Dev} (h : memWf d.mem = true) (serial : Nat) : memWf (d.fillRow serial).mem = true := by
  unfold Dev.fillRow
  split
  · exact h
  · refine Dev.pumpDrove_memWf (Dev.foldl_memWf (fun d i hd => ?_) _ h) _
    split <;> split <;> simp [hd]

@[simp] theorem Dev.copyMoved_mem (d : Dev) (old new serial : Nat) : (d.copyMoved old new serial).mem = d.mem := (rfl)

@[simp] theorem Dev.takeWsn_mem (d : Dev) (w : Nat) : (d.takeWsn w).1.mem = d.mem := by
  unfold Dev.takeWsn
  split <;> rfl

@[simp] theorem Dev.keepUnit_memWf {d : Dev} (h : memWf d.mem = true) (x : Drove) (u : UnitSt) : memWf (d.keepUnit x u).mem = true := by
  simp [Dev.keepUnit, h]

@[simp] theorem Dev.placeIu_memWf {d : Dev} (h : memWf d.mem = true) (q : PlaceReq) : memWf (d.placeIu q).1.mem = true := by
  have hpad : ∀ (l : List UnitSt) (e : Dev), (l.foldl (fun d v => d.setUnit v.pad) e).mem = e.mem := Dev.foldl_mem fun d v => Dev.setUnit_mem ..
  simp only [Dev.placeIu]
  split
  · split
    · exact h
    · split
      · exact Dev.fillRow_memWf h _
      · have ht : memWf (d.takeWsn q.wsn).1.mem = true := by simp [h]
        split
        · simp only [Bool.not_true, Bool.false_eq_true, if_false]
          refine Dev.keepUnit_memWf ?_ ..
          simp only [Dev.ite_mem, hpad, ite_self]
          refine Dev.addWritten_memWf (Dev.ite_memWf ?_ (Dev.mapUpdateIf_memWf ht ..)) ..
          rw [Dev.copyMoved_mem]
          exact Dev.addValid_memWf (Dev.subValid_memWf (Dev.mapUpdateIf_memWf ht ..) _) _
        · split
          · simp only [Bool.not_true, Bool.false_eq_true, if_false]
            refine Dev.keepUnit_memWf ?_ ..
            simp only [Dev.ite_mem, hpad, ite_self]
            exact Dev.addWritten_memWf (Dev.addValid_memWf (Dev.subValid_memWf (Dev.mapUpdate_memWf ht ..) _) _) ..
          · exact h
  · exact h

@[simp] theorem Dev.placeTomb_memWf {d : Dev} (h : memWf d.mem = true) (t : TombRec) (use : DroveUse) : memWf (d.placeTomb t use).1.mem = true := by
  unfold Dev.placeTomb
  dsimp only
  (repeat' split) <;> simp [h]

@[simp] theorem Dev.unmap_memWf {d : Dev} (h : memWf d.mem = true) (nsid first count : Nat) : memWf (d.unmap nsid first count).mem = true := by
  unfold Dev.unmap
  refine Dev.foldl_memWf (fun d i hd => ?_) _ h
  dsimp only
  split <;> simp [hd]

@[simp] theorem Dev.trim_memWf {d : Dev} (h : memWf d.mem = true) (nsid first count stream : Nat) :
    memWf (d.trim nsid first count stream).1.mem = true := by
  unfold Dev.trim
  dsimp only
  split <;> simp [h]

@[simp] theorem Dev.trimAll_memWf {d : Dev} (h : memWf d.mem = true) (nsid : Nat) : memWf (d.trimAll nsid).1.mem = true := by
  unfold Dev.trimAll
  dsimp only
  split <;> simp [h]

@[simp] theorem Dev.unitResult_mem (d : Dev) (serial row i status : Nat) : (d.unitResult serial row i status).mem = d.mem := by
  unfold Dev.unitResult
  (repeat' split) <;> simp

/-! ### Frames of Machine/Drove -/

@[simp] theorem Dev.formDrove_memWf {d : Dev} (h : memWf d.mem = true) (stream : Nat) (use : DroveUse) :
    memWf (d.formDrove stream use).mem = true := by
  unfold Dev.formDrove
  dsimp only
  (repeat' split) <;> simp +contextual [h]

@[simp] theorem Dev.headerProgrammed_mem (d : Dev) (serial : Nat) : (d.headerProgrammed serial).mem = d.mem := by
  unfold Dev.headerProgrammed
  (repeat' split) <;> simp

@[simp] theorem Dev.beginClosing_mem (d : Dev) (serial : Nat) : (d.beginClosing serial).mem = d.mem := by
  unfold Dev.beginClosing
  split <;> simp

@[simp] theorem Dev.rowComplete_memWf {d : Dev} (h : memWf d.mem = true) (serial : Nat) : memWf (d.rowComplete serial).mem = true := by
  unfold Dev.rowComplete
  split
  · exact h
  · dsimp only
    split
    · exact h
    · split
      · exact h
      · refine Dev.ite_memWf ((congrArg memWf (Dev.beginClosing_mem ..)).trans ?_) (Dev.pumpDrove_memWf ?_ _)
        all_goals
          rw [Dev.setDrove_mem]
          exact Dev.foldl_memWf (fun d i hd => Dev.issueUnit_memWf hd ..) _ (by simp [h])

@[simp] theorem Dev.closeEarly_memWf {d : Dev} (h : memWf d.mem = true) (serial : Nat) : memWf (d.closeEarly serial).mem = true := by
  unfold Dev.closeEarly
  (repeat' split) <;> simp [h]

@[simp] theorem Dev.putMember_mem (d : Dev) (x : Drove) (i r k : Nat) (data spare : Bytes) : (d.putMember x i r k data spare).mem = d.mem := (rfl)

@[simp] theorem Dev.writeSummaries_mem (d : Dev) (x : Drove) : (d.writeSummaries x).mem = d.mem := by simp [Dev.writeSummaries]

@[simp] theorem Dev.summariesDone_memWf {d : Dev} (h : memWf d.mem = true) (serial : Nat) : memWf (d.summariesDone serial).mem = true := by
  unfold Dev.summariesDone
  split
  · exact h
  · dsimp only
    split
    · exact h
    · rw [Dev.writeHeader_mem]
      exact Dev.foldl_memWf (fun d i hd => Dev.blkPut_memWf (Dev.setBlkState_memWf hd ..) ..) _ (by simp [h])

@[simp] theorem Dev.copyTombs_memWf {d : Dev} (h : memWf d.mem = true) (bad : List Nat) (use : DroveUse) (stream key : Nat) :
    memWf (d.copyTombs bad use stream key).1.mem = true := by
  unfold Dev.copyTombs
  split
  · simp [h]
  · exact Dev.foldl_fst_memWf (fun a t ha => by simp [ha]) _ h

@[simp] theorem Dev.markRetire_mem (d : Dev) (key : Nat) : (d.markRetire key).mem = d.mem := by
  unfold Dev.markRetire
  dsimp only
  split <;> rfl

@[simp] theorem Dev.placedMark_mem (d : Dev) (diu : Nat) : (d.placedMark diu).mem = d.mem := (rfl)

@[simp] theorem Dev.copyIu_memWf {d : Dev} (h : memWf d.mem = true) (bad : List Nat) (use : DroveUse) (stream key wsn liu nsid : Nat) (src : Nat)
    (evac : Bool) : memWf (d.copyIu bad use stream key wsn liu nsid src evac).1.mem = true := by
  unfold Dev.copyIu
  dsimp only
  (repeat' split) <;> simp [h]

@[simp] theorem Dev.copyMember_memWf {d : Dev} (h : memWf d.mem = true) (bad : List Nat) (use : DroveUse) (evac : Bool) (x : Drove) (i : Nat)
    (es : List (Nat × Nat × Bytes)) : memWf (d.copyMember bad use evac x i es).1.mem = true := by simp +contextual [Dev.copyMember, h]

@[simp] theorem Dev.verifyResult_memWf {d : Dev} (h : memWf d.mem = true) (serial fails : Nat) : memWf (d.verifyResult serial fails).mem = true := by
  unfold Dev.verifyResult
  split
  · exact h
  · dsimp only
    split
    · exact h
    · split
      · exact Dev.foldl_fst_memWf (fun a i ha => by split <;> simp [ha]) _ h
      · rw [Dev.releaseLamb_mem, Dev.writeHeader_mem, Dev.modDrove_mem]
        refine Dev.foldl_memWf (fun d i hd => by simp [hd]) _ ?_
        exact Dev.foldl_fst_memWf (fun a i ha => by split <;> simp [ha]) _ h

@[simp] theorem Dev.replaceUnit_memWf {d : Dev} (h : memWf d.mem = true) (x : Drove) (u : UnitSt) : memWf (d.replaceUnit x u).1.mem = true := by
  simp only [Dev.replaceUnit]
  rw [apply_ite Prod.fst]
  simp only [Dev.ite_fst_mem, Dev.ite_mem, Dev.dropUnit_mem, ite_self]
  refine Dev.foldl_fst_memWf (fun a e ha => ?_) _ h
  split
  · exact ha
  · split
    · refine Dev.foldl_fst_memWf (fun b t hb => ?_) _ ha
      split
      · exact hb
      · split
        · refine Dev.placeTomb_memWf ?_ ..
          exact hb
        · exact hb
    · split
      · exact ha
      · exact Dev.placeIu_memWf ha _

@[simp] theorem Dev.replaceMember_memWf {d : Dev} (h : memWf d.mem = true) (serial i : Nat) : memWf (d.replaceMember serial i).mem = true := by
  unfold Dev.replaceMember
  split <;> simp +contextual [h]

@[simp] theorem Dev.narrowData_memWf {d : Dev} (h : memWf d.mem = true) (x : Drove) (i r status : Nat) :
    memWf (d.narrowData x i r status).mem = true := by
  unfold Dev.narrowData
  dsimp only
  (repeat' split) <;> simp [h]

@[simp] theorem Dev.narrowParity_memWf {d : Dev} (h : memWf d.mem = true) (x : Drove) (i r status : Nat) :
    memWf (d.narrowParity x i r status).mem = true := by
  unfold Dev.narrowParity
  dsimp only
  (repeat' split) <;> simp [h]

@[simp] theorem Dev.memberProgramFail_memWf {d : Dev} (h : memWf d.mem = true) (serial : Nat) : memWf (d.memberProgramFail serial).mem = true := by
  unfold Dev.memberProgramFail
  dsimp only
  (repeat' split) <;> simp +contextual [h]

@[simp] theorem Dev.lambErase_memWf {d : Dev} (h : memWf d.mem = true) (i : Nat) : memWf (d.lambErase i).mem = true := by
  unfold Dev.lambErase
  dsimp only
  (repeat' split) <;> simp [h]

/-! ### Frames of Machine/Rebuild -/

@[simp] theorem Dev.applyCensus_memWf {d : Dev} (h : memWf d.mem = true) (p : LogPage) : memWf (d.applyCensus p).mem = true := by
  unfold Dev.applyCensus
  refine Dev.foldl_memWf (fun d i hd => ?_) _ h
  dsimp only
  have hput : ∀ die g v, memWf (d.blkPut die g 0xC 4 v).mem = true := fun die g v => Dev.blkPut_memWf hd ..
  repeat' split
  all_goals simp [hput]

@[simp] theorem Dev.applyRec_memWf {d : Dev} (h : memWf d.mem = true) (r : ElogRec) : memWf (d.applyRec r).mem = true := by
  unfold Dev.applyRec
  (repeat' split) <;> simp [h]

@[simp] theorem Dev.loadElog_memWf {d : Dev} (h : memWf d.mem = true) (bad : List Nat) : memWf (d.loadElog bad).1.mem = true := by
  unfold Dev.loadElog
  dsimp only
  have hd : ∀ (cs : List LogPage) (rs : List ElogRec),
      memWf (rs.foldl Dev.applyRec (cs.foldl Dev.applyCensus (d.loseRange (d.reservedBase + 0x20000000) 0x20000000))).mem = true :=
    fun cs rs => Dev.foldl_memWf (fun d r hd => Dev.applyRec_memWf hd r) _
      (Dev.foldl_memWf (fun d p hd => Dev.applyCensus_memWf hd p) _ (Dev.loseRange_memWf h ..))
  split <;> simp [hd]

@[simp] theorem Dev.loadHeaders_mem (d : Dev) : d.loadHeaders.mem = d.mem := by simp [Dev.loadHeaders]

@[simp] theorem Dev.classify_memWf {d : Dev} (h : memWf d.mem = true) (untrusted : Bool) : memWf (d.classify untrusted).mem = true := by
  unfold Dev.classify
  dsimp only
  refine Dev.foldl_memWf (fun d e hd => ?_) _ ?_
  · split
    · exact hd
    · exact Dev.foldl_memWf (fun d i hd => by split <;> simp [hd]) _ hd
  · refine Dev.foldl_memWf (fun d i hd => ?_) _ ?_
    · exact Dev.foldl_memWf (fun d i hd => by split <;> simp [hd]) _ hd
    · refine Dev.foldl_memWf (fun d i hd => ?_) _ ?_
      · exact Dev.foldl_memWf (fun d i hd => by split <;> simp [hd]) _ hd
      · split
        · refine Dev.foldl_memWf (fun d i hd => ?_) _ ?_
          · exact Dev.foldl_memWf (fun d i hd => by split <;> simp [hd]) _ hd
          · exact Dev.foldl_memWf (fun d i hd => by split <;> simp [hd]) _ h
        · exact Dev.foldl_memWf (fun d i hd => by split <;> simp [hd]) _ h

@[simp] theorem Dev.loadMedia_memWf {d : Dev} (h : memWf d.mem = true) (bad : List Nat) : memWf (d.loadMedia bad).mem = true := by
  simp [Dev.loadMedia, h]

@[simp] theorem Dev.postLost_mem (d : Dev) (ks : List Nat) : (d.postLost ks).mem = d.mem := by simp [Dev.postLost]

@[simp] theorem Dev.writeWinner_memWf {d : Dev} (h : memWf d.mem = true) (cs : List Cand) (ts : List (TombRec × Nat)) (n : Nat × Nat) :
    memWf (d.writeWinner cs ts n).mem = true := by
  unfold Dev.writeWinner
  split <;> simp [h]

@[simp] theorem Dev.rebuildMap_memWf {d : Dev} (h : memWf d.mem = true) (bad : List Nat) (ms : Nat) : memWf (d.rebuildMap bad ms).mem = true := by
  unfold Dev.rebuildMap
  dsimp only
  refine Dev.foldl_memWf (fun d n hd => Dev.writeWinner_memWf hd ..) _ ?_
  refine Dev.foldl_memWf (fun d n hd => Dev.loseRange_memWf hd ..) _ ?_
  dsimp only
  refine Dev.foldl_memWf (fun d b hd => ?_) _ ?_
  · exact Dev.blkPut_memWf (Dev.blkPut_memWf (Dev.blkPut_memWf (Dev.blkPut_memWf (Dev.blkPut_memWf (Dev.setBlkState_memWf hd ..) ..) ..) ..) ..) ..
  · simp [h]

@[simp] theorem Dev.rebuildMeta_mem (d : Dev) : d.rebuildMeta.mem = d.mem := (rfl)

@[simp] theorem Dev.mapRepair_memWf {d0 : Dev} (h : memWf d0.mem = true) (k : Nat) (bad : List Nat) : memWf (d0.mapRepair k bad).mem = true := by
  unfold Dev.mapRepair
  dsimp only
  split
  · simp [h]
  · refine Dev.repairRelease_memWf ?_ _
    exact Dev.foldl_memWf (fun d u hd => by simp [hd]) _ (by simp [h])

/-! ### Frames of Machine/Journal -/

@[simp] theorem Dev.dumpMarks_memWf {d : Dev} (h : memWf d.mem = true) : memWf d.dumpMarks.mem = true := by
  unfold Dev.dumpMarks
  refine Dev.foldl_memWf (fun d u hd => ?_) _ h
  split
  · exact hd
  · dsimp only
    split
    · exact hd
    · split <;> simp +contextual [hd]

@[simp] theorem Dev.fixJournal_memWf {d : Dev} (h : memWf d.mem = true) : memWf d.fixJournal.mem = true := by
  unfold Dev.fixJournal
  split <;> simp [h]

@[simp] theorem Dev.programDump_mem (d : Dev) (failA failB : Bool) : (d.programDump failA failB).mem = d.mem := by
  unfold Dev.programDump
  split
  · rfl
  · dsimp only
    split
    · exact Dev.norProgram_mem ..
    · rfl

@[simp] theorem Dev.ensurePlaced_memWf {d : Dev} (h : memWf d.mem = true) (stream : Nat) {put : Dev → Dev × Bool}
    (hput : ∀ d, memWf d.mem = true → memWf (put d).1.mem = true) (n : Nat) : memWf (d.ensurePlaced stream put n).1.mem = true := by
  induction n generalizing d with
  | zero => exact hput d h
  | succ n ih =>
    have hrows : ∀ l : List (Nat × Drove), memWf (l.foldl (fun d e => d.rowComplete e.1) (put d).1).mem = true :=
      fun l => Dev.foldl_memWf (fun d e hd => Dev.rowComplete_memWf hd e.1) l (hput d h)
    unfold Dev.ensurePlaced
    dsimp only
    split
    · exact hput d h
    · refine ih ?_
      split
      · exact hrows _
      · simp [hrows]

@[simp] theorem Dev.replaceJournaled_memWf {d : Dev} (h : memWf d.mem = true) (x : Drove) (u : UnitSt) (lostCw : List Nat) :
    memWf (d.replaceJournaled x u lostCw).1.mem = true := by
  simp only [Dev.replaceJournaled]
  refine Dev.foldl_fst_memWf (fun a e ha => ?_) _ h
  split
  · split
    · simp [ha]
    · refine Dev.foldl_fst_memWf (fun b t hb => ?_) _ ha
      exact Dev.ensurePlaced_memWf hb _ (fun d hd => Dev.placeTomb_memWf hd ..) _
  · split
    · exact ha
    · have hp : ∀ q : PlaceReq, memWf (a.1.ensurePlaced x.stream (fun d => d.placeIu q) 3).1.mem = true := fun q =>
        Dev.ensurePlaced_memWf ha _ (fun d hd => Dev.placeIu_memWf hd _) _
      split <;> split <;> simp [hp]

@[simp] theorem Dev.copyRow_memWf {d : Dev} (h : memWf d.mem = true) (bad : List Nat) (x : Drove) (r : Nat) :
    memWf (d.copyRow bad x r).mem = true := by
  unfold Dev.copyRow
  refine Dev.foldl_memWf (fun d i hd => ?_) _ h
  dsimp only
  split
  · exact hd
  · refine Dev.foldl_memWf (fun d k hd => ?_) _ hd
    repeat' split
    all_goals simp +contextual [hd]

@[simp] theorem Dev.replayDrove_memWf {d : Dev} (h : memWf d.mem = true) (bad : List Nat) (x : Drove) (us : List (UnitSt × List Nat))
    (lostAcc : Bool) : memWf (d.replayDrove bad x us lostAcc).mem = true := by
  simp only [Dev.replayDrove]
  refine Dev.ite_memWf ?_ ?_
  · refine Dev.foldl_memWf (fun d u hd => ?_) _ h
    split
    · split
      · exact Dev.issueUnit_memWf (by simp [hd]) ..
      · exact hd
    · simp [hd]
  · refine Dev.foldl_memWf (fun d r hd => Dev.copyRow_memWf hd ..) _ ?_
    refine Dev.foldl_memWf (fun d u hd => ?_) _ ?_
    · refine Dev.ite_memWf (Dev.ite_memWf hd ?_) (Dev.replaceJournaled_memWf hd ..)
      exact Dev.issueUnit_memWf (by simp [hd]) ..
    · rw [Dev.writeHeader_mem]
      refine Dev.ite_memWf (by simp [h]) ?_
      rw [Dev.setDrove_mem]
      have hissue : ∀ (x : Drove) (l : List Nat), memWf (l.foldl (fun d i => d.issueUnit x (x.parityUnit i)) (d.setDrove x)).mem = true :=
        fun x l => Dev.foldl_memWf (fun d i hd => Dev.issueUnit_memWf hd ..) _ (by simp [h])
      split
      · rw [Dev.putLamb_mem]
        exact hissue ..
      · exact hissue ..

@[simp] theorem Dev.replayImage_memWf {d : Dev} (h : memWf d.mem = true) (bad : List Nat) (img : JImage) (lost : Nat → Bool) :
    memWf (d.replayImage bad img lost).mem = true := by
  unfold Dev.replayImage
  dsimp only
  split
  · exact h
  · refine Dev.foldl_memWf (fun d e hd => Dev.pumpDrove_memWf hd _) _ ?_
    refine Dev.foldl_memWf (fun d s hd => ?_) _ ?_
    · split
      · exact hd
      · exact Dev.replayDrove_memWf hd ..
    · exact Dev.foldl_memWf (fun d x hd => by simp [hd]) _ h

@[simp] theorem Dev.replayReset_mem (d : Dev) : d.replayReset.mem = d.mem := (rfl)

@[simp] theorem Dev.journalReplay_memWf {d : Dev} (h : memWf d.mem = true) (badA badB bad : List Nat) :
    memWf (d.journalReplay badA badB bad).mem = true := by
  unfold Dev.journalReplay
  (repeat' split) <;> simp [h]

@[simp] theorem Dev.dumpErased_memWf {d : Dev} (h : memWf d.mem = true) (die g : Nat) : memWf (d.dumpErased die g).mem = true := by
  simp [Dev.dumpErased, h]

/-- A descriptor is marked consumed and the blocks of its dumps are counted as erased. -/
def Dev.consumeDump (d : Dev) (x : DumpDesc) : Dev :=
  (d.dumpExtents false x.seq ++ d.dumpExtents true x.seq).foldl (fun d b => d.dumpErased b.1 b.2) (d.norFlag (descAddr x.slot + 0xFF8))

theorem Dev.consumeDump_memWf {d : Dev} (h : memWf d.mem = true) (x : DumpDesc) : memWf (d.consumeDump x).mem = true := by
  unfold Dev.consumeDump
  exact Dev.foldl_memWf (fun d b hd => Dev.dumpErased_memWf hd ..) _ (by simp [h])

@[simp] theorem Dev.replayConsumed_memWf {d : Dev} (h : memWf d.mem = true) : memWf d.replayConsumed.mem = true := by
  have hform : ∃ (p : Prop) (_ : Decidable p) (G : Dev → Nat → Dev) (ds : List DumpDesc) (y : DroveSt),
      d.replayConsumed = (if p then d else (List.range 8).foldl G { ds.foldl Dev.consumeDump d with drove := y })
        ∧ ∀ e s, (G e s).mem = e.mem :=
    ⟨_, _, _, _, _, rfl, fun e s => by dsimp only; split <;> simp⟩
  obtain ⟨p, _, G, ds, y, hform, hG⟩ := hform
  rw [hform]
  refine Dev.ite_memWf h ?_
  rw [Dev.foldl_mem hG, Dev.mem_withDrove]
  exact Dev.foldl_memWf (fun d x hd => Dev.consumeDump_memWf hd x) _ h

/-! ### Frames of Machine/Gc -/

@[simp] theorem Dev.cycleStart_mem (d : Dev) (grp : Nat) : (d.cycleStart grp).mem = d.mem := by
  unfold Dev.cycleStart
  (repeat' split) <;> rfl

@[simp] theorem Dev.modCycle_mem (d : Dev) (serial : Nat) (f : GcCycle → GcCycle) : (d.modCycle serial f).mem = d.mem := (rfl)

@[simp] theorem Dev.copyBatch_memWf {d : Dev} (h : memWf d.mem = true) (serial : Nat) (bad : List Nat) :
    memWf (d.copyBatch serial bad).mem = true := by
  unfold Dev.copyBatch
  split
  · dsimp only
    split
    · exact h
    · split
      · refine Dev.foldl_fst_memWf (fun a e ha => ?_) _ h
        repeat' split
        all_goals simp [ha]
      · refine Dev.ite_memWf ((congrArg memWf (Dev.modCycle_mem ..)).trans ?_) ?_
        all_goals exact Dev.foldl_fst_memWf (fun a k ha => by split <;> simp [ha]) _ h
  · exact h

@[simp] theorem Dev.destsClosed_mem (d : Dev) (serial : Nat) : (d.destsClosed serial).mem = d.mem := by
  unfold Dev.destsClosed
  (repeat' split) <;> rfl

@[simp] theorem Dev.epochTake_mem (d : Dev) : d.epochTake.1.mem = d.mem := (rfl)

@[simp] theorem Dev.epochDrop_mem (d : Dev) (e : Nat) : (d.epochDrop e).mem = d.mem := (rfl)

@[simp] theorem Dev.epochAdvance_mem (d : Dev) : d.epochAdvance.mem = d.mem := by
  unfold Dev.epochAdvance
  split <;> rfl

@[simp] theorem Dev.epochPassed_memWf {d : Dev} (h : memWf d.mem = true) (serial : Nat) : memWf (d.epochPassed serial).mem = true := by
  unfold Dev.epochPassed
  split
  · dsimp only
    split
    · exact h
    · rw [Dev.modCycle_mem]
      refine Dev.foldl_memWf (fun d p hd => Dev.beginErase_memWf hd ..) _ ?_
      refine Dev.foldl_memWf (fun d i hd => ?_) _ h
      repeat' split
      all_goals simp [hd]
  · exact h

@[simp] theorem Dev.blockErase_memWf {d : Dev} (h : memWf d.mem = true) (die g : Nat) : memWf (d.blockErase die g).mem = true := by
  unfold Dev.blockErase
  dsimp only
  (repeat' split) <;> simp [h]

@[simp] theorem Dev.dropTombs_mem (d : Dev) (die g : Nat) : (d.dropTombs die g).mem = d.mem := (rfl)

@[simp] theorem Dev.eraseResult_memWf {d : Dev} (h : memWf d.mem = true) (die g serial status : Nat) :
    memWf (d.eraseResult die g serial status).mem = true := by
  unfold Dev.eraseResult
  split
  · simp [h]
  · split <;> simp [h]

@[simp] theorem Dev.droveRelease_mem (d : Dev) (serial : Nat) : (d.droveRelease serial).mem = d.mem := by
  unfold Dev.droveRelease
  dsimp only
  (repeat' split) <;> simp

@[simp] theorem Dev.retire_memWf {d : Dev} (h : memWf d.mem = true) (die g : Nat) (bad : List Nat) : memWf (d.retire die g bad).mem = true := by
  unfold Dev.retire
  dsimp only
  (repeat' split) <;> simp [h]

@[simp] theorem Dev.wearLevel_mem (d : Dev) (grp : Nat) : (d.wearLevel grp).mem = d.mem := (rfl)

/-! ### Frames of Machine/Cfg -/

@[simp] theorem Dev.modTxn_mem (d : Dev) (h : Nat) (f : Txn → Txn) : (d.modTxn h f).mem = d.mem := (rfl)

@[simp] theorem Dev.dropTxn_mem (d : Dev) (h : Nat) : (d.dropTxn h).mem = d.mem := (rfl)

@[simp] theorem Dev.txBegin_mem (d : Dev) (x : TxCtx) (ctrl : Option Nat) (budget : Nat) : (d.txBegin x ctrl budget).1.mem = d.mem := by
  unfold Dev.txBegin
  split <;> rfl

@[simp] theorem Dev.dropPasses_memWf {d : Dev} (h : memWf d.mem = true) (p : RebuildPass → Bool) : memWf (d.dropPasses p).mem = true := by
  unfold Dev.dropPasses
  dsimp only
  (repeat' split) <;> simp +contextual [h]

@[simp] theorem Dev.applyField_memWf {d : Dev} (h : memWf d.mem = true) (id v : Nat) : memWf (d.applyField id v).mem = true := by
  unfold Dev.applyField
  dsimp only
  (repeat' split) <;> simp [h]

@[simp] theorem Dev.applyAll_memWf {d : Dev} (h : memWf d.mem = true) (t : Tab Word) : memWf (d.applyAll t).mem = true := by
  simp +contextual [Dev.applyAll, h]

@[simp] theorem Dev.trainFor_mem (d : Dev) (t : Tab Word) : (d.trainFor t).mem = d.mem := by simp [Dev.trainFor]

@[simp] theorem Dev.endTxc_mem (d : Dev) (h outcome : Nat) : (d.endTxc h outcome).mem = d.mem := by
  have hcount : ∀ e : Dev, (e.countOutcome outcome).mem = e.mem := fun _ => rfl
  rw [Dev.endTxc_eq, hcount, Dev.foldl_mem, Dev.dropTxn_mem]
  intro d c
  rcases d.endTxcAt_eq h outcome c with he | ⟨g, he⟩ <;> rw [he]
  exact Dev.modCore_mem ..

@[simp] theorem Dev.endIfApplied_mem (d : Dev) (h : Nat) : (d.endIfApplied h).mem = d.mem := by
  unfold Dev.endIfApplied
  (repeat' split) <;> simp

@[simp] theorem Dev.beginReturned_memWf {d : Dev} (h : memWf d.mem = true) (id v : Nat) : memWf (d.beginReturned id v).mem = true := by
  unfold Dev.beginReturned
  dsimp only
  split
  · refine Dev.foldl_memWf (fun d x hd => ?_) _ h
    split
    · exact Dev.foldl_memWf (fun d g hd => Dev.beginErase_memWf hd ..) _ hd
    · exact hd
  · exact h

@[simp] theorem Dev.commitPoint_memWf {d : Dev} (h : memWf d.mem = true) (t : Txn) : memWf (d.commitPoint t).mem = true := by
  simp only [Dev.commitPoint, Dev.endIfApplied_mem, Dev.modTxn_mem]
  refine Dev.foldl_memWf (fun d b hd => by split <;> simp [hd]) _ ?_
  dsimp only
  rw [Dev.trainFor_mem]
  refine Dev.applyAll_memWf ?_ _
  exact Dev.foldl_memWf (fun d e hd => Dev.beginReturned_memWf hd ..) _ h

@[simp] theorem Dev.commitStep4_memWf {d : Dev} (h : memWf d.mem = true) (t : Txn) : memWf (d.commitStep4 t).mem = true := by
  unfold Dev.commitStep4
  split
  · simp [h]
  · split <;> simp [h]

@[simp] theorem Dev.commitStep2_memWf {d : Dev} (h : memWf d.mem = true) (t : Txn) : memWf (d.commitStep2 t).mem = true := by
  unfold Dev.commitStep2
  split
  · simp [h]
  · split
    · simp [h]
    · dsimp only
      split
      · exact Dev.commitStep4_memWf h t
      · refine Dev.foldl_memWf (fun d b hd => ?_) _ (by simp [h])
        split <;> simp [hd]

@[simp] theorem Dev.commitTry_memWf {d : Dev} (h : memWf d.mem = true) (handle : Nat) : memWf (d.commitTry handle).mem = true := by
  unfold Dev.commitTry
  split
  · exact Dev.ite_memWf (Dev.commitStep2_memWf h _) h
  · exact h

@[simp] theorem Dev.commitStart_memWf {d : Dev} (h : memWf d.mem = true) (handle : Nat) : memWf (d.commitStart handle).mem = true := by
  simp [Dev.commitStart, h]

@[simp] theorem Dev.dropE9_mem (d : Dev) (b : Nat) : (d.dropE9 b).mem = d.mem := by
  unfold Dev.dropE9
  dsimp only
  (repeat' split) <;> rfl

@[simp] theorem Dev.drainDone_memWf {d : Dev} (h : memWf d.mem = true) (b : Nat) : memWf (d.drainDone b).mem = true := by
  unfold Dev.drainDone
  dsimp only
  (repeat' split) <;> simp [h]

@[simp] theorem Dev.budgetExpired_mem (d : Dev) (h : Nat) : (d.budgetExpired h).mem = d.mem := by
  unfold Dev.budgetExpired
  (repeat' split) <;> simp

@[simp] theorem Dev.persist_mem (d : Dev) (ctrl : Option Nat) (inst : Nat) (staged : Tab Word) (ok : Bool) (fails : TallyFails) :
    (d.persist ctrl inst staged ok fails).1.mem = d.mem := by
  unfold Dev.persist
  dsimp only
  (repeat' split) <;> simp

@[simp] theorem Dev.abandonPersist_mem (d : Dev) (ctrl : Option Nat) (a len : Nat) : (d.abandonPersist ctrl a len).mem = d.mem := by
  unfold Dev.abandonPersist
  dsimp only
  split <;> simp

@[simp] theorem Dev.snapshotIfLow_mem (d : Dev) : d.snapshotIfLow.mem = d.mem := by
  unfold Dev.snapshotIfLow
  split <;> simp

@[simp] theorem Dev.recordDone_memWf {d : Dev} (h : memWf d.mem = true) (handle : Nat) (ok : Bool) (fails : TallyFails) :
    memWf (d.recordDone handle ok fails).mem = true := by
  unfold Dev.recordDone
  split
  · exact h
  · refine Dev.ite_memWf h ?_
    dsimp only
    split
    · simp [h]
    · split <;> simp [h]

@[simp] theorem Dev.attachDone_mem (d : Dev) (h : Nat) : (d.attachDone h).mem = d.mem := by
  unfold Dev.attachDone
  split <;> simp

@[simp] theorem Dev.safePoint_memWf {d : Dev} (h : memWf d.mem = true) (b : Nat) : memWf (d.safePoint b).mem = true := by
  unfold Dev.safePoint
  dsimp only
  (repeat' split) <;> simp +contextual [h]

@[simp] theorem Dev.abandonTxns_mem (d : Dev) (p : TxCtx → Bool) : (d.abandonTxns p).mem = d.mem := Dev.mem_abandonTxns d p

@[simp] theorem Dev.powerFailTxns_mem (d : Dev) : d.powerFailTxns.mem = d.mem := by
  unfold Dev.powerFailTxns
  refine Dev.foldl_mem (fun d t => ?_) _ _
  split <;> simp

@[simp] theorem Dev.ownCommitAs_memWf {d : Dev} (h : memWf d.mem = true) (handle : Nat) (ctrl : Option Nat) (fields : List (Nat × Nat))
    (fails : TallyFails) : memWf (d.ownCommitAs handle ctrl fields fails).1.mem = true := by
  unfold Dev.ownCommitAs
  dsimp only
  (repeat' split) <;> simp +contextual [h]

@[simp] theorem Dev.ownCommit_memWf {d : Dev} (h : memWf d.mem = true) (ctrl : Option Nat) (fields : List (Nat × Nat)) (fails : TallyFails) :
    memWf (d.ownCommit ctrl fields fails).1.mem = true := by simp [Dev.ownCommit, h]

@[simp] theorem Dev.crookLost_mem (d : Dev) (why : Nat) : (d.crookLost why).mem = d.mem := by
  unfold Dev.crookLost
  split <;> simp

@[simp] theorem Dev.crookOf_mem (d : Dev) (k why : Nat) : (d.crookOf k why).mem = d.mem := by
  unfold Dev.crookOf
  split <;> simp

@[simp] theorem Dev.crookCmd_mem (d : Dev) (action : Nat) (p : Nat) : (d.crookCmd action p).mem = d.mem := by
  unfold Dev.crookCmd
  dsimp only
  (repeat' split) <;> simp

/-! ### Frames of Machine/Ilu -/

@[simp] theorem Dev.setPort_mem (d : Dev) (p : Nat) (x : IluPort) : (d.setPort p x).mem = d.mem := (rfl)

@[simp] theorem Dev.iluEnd_mem (d : Dev) (p st : Nat) : (d.iluEnd p st).mem = d.mem := by
  unfold Dev.iluEnd
  (repeat' split) <;> rfl

@[simp] theorem Dev.iluBreak_mem (d : Dev) (p : Nat) : (d.iluBreak p).mem = d.mem := (rfl)

@[simp] theorem Dev.iluIgnored_mem (d : Dev) (p core off : Nat) : (d.iluIgnored p core off).mem = d.mem := by
  unfold Dev.iluIgnored
  split <;> rfl

@[simp] theorem Dev.iluKey_mem (d : Dev) (p core v : Nat) : (d.iluKey p core v).mem = d.mem := by
  unfold Dev.iluKey
  dsimp only
  (repeat' split) <;> simp

@[simp] theorem Dev.iluCmd_mem (d : Dev) (p core v : Nat) : (d.iluCmd p core v).mem = d.mem := by
  unfold Dev.iluCmd
  dsimp only
  (repeat' split) <;> simp

@[simp] theorem Dev.iluAddr_mem (d : Dev) (p core v : Nat) : (d.iluAddr p core v).mem = d.mem := by
  unfold Dev.iluAddr
  dsimp only
  (repeat' split) <;> simp

@[simp] theorem Dev.iluBegin_mem (d : Dev) (p : Nat) (c : IluCmd) : (d.iluBegin p c).mem = d.mem := by
  unfold Dev.iluBegin
  dsimp only
  (repeat' split) <;> simp

@[simp] theorem Dev.iluOnce_mem (d : Dev) : d.iluOnce.mem = d.mem := by
  unfold Dev.iluOnce
  dsimp only
  (repeat' split) <;> simp

@[simp] theorem Dev.iluSchedule_mem (d : Dev) : d.iluSchedule.mem = d.mem := by simp [Dev.iluSchedule]

@[simp] theorem Dev.iluData_mem (d : Dev) (p core v : Nat) : (d.iluData p core v).mem = d.mem := by
  unfold Dev.iluData
  dsimp only
  (repeat' split) <;> simp

@[simp] theorem Dev.iluCommand_mem (d : Dev) (p core code units addr data : Nat) : (d.iluCommand p core code units addr data).mem = d.mem := by
  simp [Dev.iluCommand]

@[simp] theorem Dev.iluProgramEffect_mem (d : Dev) (r : IluProg) (units : Nat) : (d.iluProgramEffect r units).mem = d.mem := by
  unfold Dev.iluProgramEffect
  (repeat' split) <;> simp

@[simp] theorem Dev.eraseFails_mem (d : Dev) (p : Nat) : (d.eraseFails p).mem = d.mem := by
  unfold Dev.eraseFails
  split <;> rfl

@[simp] theorem Dev.iluComplete_mem (d : Dev) (ok : Bool) : (d.iluComplete ok).mem = d.mem := by
  unfold Dev.iluComplete
  (repeat' split) <;> simp

@[simp] theorem Dev.iluAutoSuspend_mem (d : Dev) : d.iluAutoSuspend.mem = d.mem := by
  unfold Dev.iluAutoSuspend
  (repeat' split) <;> simp

@[simp] theorem Dev.wearMove_mem (d : Dev) : d.wearMove.mem = d.mem := by
  unfold Dev.wearMove
  dsimp only
  split <;> rfl

@[simp] theorem Dev.sectorReerase_mem (d : Dev) (ok : Bool) : (d.sectorReerase ok).mem = d.mem := by
  unfold Dev.sectorReerase
  (repeat' split) <;> simp

@[simp] theorem Dev.iluPowerFail_mem (d : Dev) (unitsDone : Nat) : (d.iluPowerFail unitsDone).mem = d.mem := by
  unfold Dev.iluPowerFail
  dsimp only
  (repeat' split) <;> simp

@[simp] theorem Dev.iluResetHold_mem (d : Dev) : d.iluResetHold.mem = d.mem := by
  unfold Dev.iluResetHold
  dsimp only
  (repeat' split) <;> simp

@[simp] theorem Dev.iluCut_mem (d : Dev) : d.iluCut.mem = d.mem := by
  unfold Dev.iluCut
  (repeat' split) <;> simp

@[simp] theorem Dev.iluReset_mem (d : Dev) : d.iluReset.mem = d.mem := (rfl)

/-! ### Frames of Machine/Lifecycle -/

@[simp] theorem Dev.changeOwner_mem (d : Dev) (r : LcReq) (cntlid : Nat) (o : Option OwnerRec) (ctr : Nat) (storeOk : Bool) (fails : TallyFails) :
    (d.changeOwner r cntlid o ctr storeOk fails).1.mem = d.mem := by
  unfold Dev.changeOwner
  dsimp only
  (repeat' split) <;> simp

@[simp] theorem Dev.eraseOwnerModules_mem (d : Dev) : d.eraseOwnerModules.mem = d.mem := by simp [Dev.eraseOwnerModules]

@[simp] theorem Dev.decommissionRest_mem (d : Dev) : d.decommissionRest.mem = d.mem := (rfl)

@[simp] theorem Dev.lcEffect_memWf {d : Dev} (h : memWf d.mem = true) {erase : Dev → Dev}
    (he : ∀ d, memWf d.mem = true → memWf (erase d).mem = true) (r : LcReq) (cntlid : Nat) (storeOk : Bool) (fails : TallyFails) :
    memWf (d.lcEffect erase r cntlid storeOk fails).1.mem = true := by
  have hd := he d h
  unfold Dev.lcEffect
  dsimp only
  split
  · simp [h]
  · split <;> split <;> simp [h, hd]
  · split <;> simp [hd]
  · split <;> simp [h]
  · split <;> simp [h]
  · split
    · simp [h]
    · split <;> simp [h]
  · simp [h]
  · split <;> simp [h]

@[simp] theorem Dev.lcRequest_memWf {d : Dev} (h : memWf d.mem = true) {erase : Dev → Dev}
    (he : ∀ d, memWf d.mem = true → memWf (erase d).mem = true) (b : Bytes) (total cntlid : Nat) (storeOk : Bool) (fails : TallyFails) :
    memWf (d.lcRequest erase b total cntlid storeOk fails).mem = true := by
  have h0 : ∀ (p : Prop) [Decidable p] (x : FoldSt), memWf (if p then { d with fold := x } else d : Dev).mem = true :=
    fun p _ x => by split <;> exact h
  simp only [Dev.lcRequest]
  split
  · rw [Dev.mem_withFold]
    exact Dev.lcEffect_memWf (h0 ..) he ..
  · rw [Dev.mem_withFold]
    exact h0 ..

@[simp] theorem Dev.decomReset_mem (d : Dev) (type : Nat) : (d.decomReset type).mem = d.mem := by
  unfold Dev.decomReset
  split <;> rfl

@[simp] theorem Dev.lcArrive_memWf {d : Dev} (h : memWf d.mem = true) {erase : Dev → Dev}
    (he : ∀ d, memWf d.mem = true → memWf (erase d).mem = true) (type : Nat) (src : LcSource) (b : Bytes) (storeOk : Bool)
    (fails : TallyFails) : memWf (d.lcArrive erase type src b storeOk fails).mem = true := by
  have hreq := fun n k => Dev.lcRequest_memWf h he b n k storeOk fails
  unfold Dev.lcArrive
  dsimp only
  (repeat' split) <;> simp [h, hreq]

@[simp] theorem Dev.lcNonce_mem (d : Dev) : d.lcNonce.1.mem = d.mem := (rfl)

@[simp] theorem Dev.lcChallenge_mem (d : Dev) (p : Nat) : (d.lcChallenge p).mem = d.mem := by
  unfold Dev.lcChallenge
  split <;> simp

@[simp] theorem Dev.lcReceive_mem (d : Dev) (p spsp : Nat) (b : Bytes) : (d.lcReceive p spsp b).mem = d.mem := by
  unfold Dev.lcReceive
  split <;> simp

@[simp] theorem Dev.nonceExpire_mem (d : Dev) : d.nonceExpire.mem = d.mem := by
  unfold Dev.nonceExpire
  split
  · rw [Dev.mem_withFold, Dev.mem_advanceTo]
  · rfl

@[simp] theorem Dev.provision_mem (d : Dev) (serial keys helper chain cert : Bytes) (image : List (Nat × Bytes)) :
    (d.provision serial keys helper chain cert image).mem = d.mem := by
  unfold Dev.provision
  split <;> simp

@[simp] theorem Dev.tamperSet_mem (d : Dev) (b : Nat) : (d.tamperSet b).mem = d.mem := (rfl)

@[simp] theorem Dev.tamperRecord_mem (d : Dev) (b : Nat) (fails : TallyFails) : (d.tamperRecord b fails).mem = d.mem := by simp [Dev.tamperRecord]

@[simp] theorem Dev.tapAccess_mem (d : Dev) (tap : Nat) (b : Bytes) (fails : TallyFails) : (d.tapAccess tap b fails).mem = d.mem := by
  unfold Dev.tapAccess
  split <;> simp

/-! ### Frames of Machine/Digest -/

@[simp] theorem Dev.setDslot_mem (d : Dev) (i : Nat) (x : DigSlot) : (d.setDslot i x).mem = d.mem := (rfl)

@[simp] theorem Dev.digAlloc_mem (d : Dev) (core : Nat) : (d.digAlloc core).1.mem = d.mem := by
  unfold Dev.digAlloc
  split <;> rfl

@[simp] theorem Dev.digForeign_mem (d : Dev) (core off : Nat) : (d.digForeign core off).mem = d.mem := (rfl)

@[simp] theorem Dev.digWrite_mem (d : Dev) (core i r : Nat) (f : DigSlot → DigSlot) : (d.digWrite core i r f).mem = d.mem := by
  unfold Dev.digWrite
  dsimp only
  split <;> rfl

@[simp] theorem Dev.digCompare_mem (d : Dev) (core i : Nat) (fails : TallyFails) : (d.digCompare core i fails).mem = d.mem := by
  unfold Dev.digCompare
  dsimp only
  (repeat' split) <;> simp

@[simp] theorem Dev.digRead_mem (d : Dev) (i n : Nat) : (d.digRead i n).1.mem = d.mem := (rfl)

@[simp] theorem Dev.pkaEnd_mem (d : Dev) (op res : Nat) : (d.pkaEnd op res).mem = d.mem := (rfl)

@[simp] theorem Dev.pkaStart_mem (d : Dev) (off : Nat) : (d.pkaStart off).mem = d.mem := by
  unfold Dev.pkaStart
  dsimp only
  (repeat' split) <;> rfl

@[simp] theorem Dev.foldPut_memWf {d : Dev} (h : memWf d.mem = true) (a : Nat) (b : Bytes) : memWf (d.foldPut a b).mem = true := by
  unfold Dev.foldPut
  split <;> simp [h]

@[simp] theorem Dev.pkaRun_memWf {d : Dev} (h : memWf d.mem = true) (o : PkaOp) : memWf (d.pkaRun o).1.mem = true := by
  unfold Dev.pkaRun
  dsimp only
  (repeat' split) <;> simp [h]

@[simp] theorem Dev.pkaComplete_memWf {d : Dev} (h : memWf d.mem = true) (ec : Bool) : memWf (d.pkaComplete ec).mem = true := by
  unfold Dev.pkaComplete
  split <;> simp [h]

@[simp] theorem Dev.pkaStartOp_mem (d : Dev) (op off : Nat) : (d.pkaStartOp op off).mem = d.mem := by
  unfold Dev.pkaStartOp
  split <;> simp

/-! ### Frames of Machine/Events -/

@[simp] theorem Dev.evtTake_mem (d : Dev) (core src : Nat) : (d.evtTake core src).mem = d.mem := by
  unfold Dev.evtTake
  dsimp only
  (repeat' split) <;> rfl

@[simp] theorem Dev.evtDone_mem (d : Dev) (core src : Nat) : (d.evtDone core src).mem = d.mem := by
  unfold Dev.evtDone
  dsimp only
  (repeat' split) <;> rfl

@[simp] theorem Dev.evtDeclare_mem (d : Dev) (core : Nat) : (d.evtDeclare core).mem = d.mem := by
  unfold Dev.evtDeclare
  split <;> simp

@[simp] theorem Dev.class3NotTaken_mem (d : Dev) (src : Nat) : (d.class3NotTaken src).mem = d.mem := by
  unfold Dev.class3NotTaken
  dsimp only
  split
  · rfl
  · split
    · rfl
    · rw [Dev.enterFatal_mem, Dev.setSrc_mem, Dev.mem_advanceTo]

@[simp] theorem Dev.pet_mem (d : Dev) (v : Nat) : (d.pet v).mem = d.mem := by
  unfold Dev.pet
  split <;> rfl

@[simp] theorem Dev.colliePreExpiry_mem (d : Dev) : d.colliePreExpiry.mem = d.mem := by
  unfold Dev.colliePreExpiry
  split <;> simp

/-! ### Frames of Machine/Member -/

@[simp] theorem Dev.declare_memWf {d : Dev} (h : memWf d.mem = true) (ch : Nat) (fails : TallyFails) : memWf (d.declare ch fails).mem = true := by
  unfold Dev.declare
  dsimp only
  split <;> simp [h]

@[simp] theorem Dev.declareDrove_memWf {d : Dev} (h : memWf d.mem = true) (serial : Nat) (lost : List Nat) :
    memWf (d.declareDrove serial lost).mem = true := by
  unfold Dev.declareDrove
  split
  · exact h
  · dsimp only
    have hd : ∀ (l : List Nat) (x : Drove), memWf (l.foldl (fun d i => d.replaceMember serial i) ((d.setDrove x).writeHeader serial)).mem = true :=
      fun l x => Dev.foldl_memWf (fun d i hd => Dev.replaceMember_memWf hd ..) _ (by simp [h])
    repeat' split
    all_goals simp [hd, h]

@[simp] theorem Dev.declApply_memWf {d : Dev} (h : memWf d.mem = true) (ch : Nat) : memWf (d.declApply ch).mem = true := by
  unfold Dev.declApply
  refine Dev.dropPasses_memWf ?_ _
  refine Dev.foldl_memWf (fun d e hd => ?_) _ h
  dsimp only
  split <;> simp [hd]

@[simp] theorem Dev.warnFrom_mem (d : Dev) (was : Bool) : (d.warnFrom was).mem = d.mem := by simp [Dev.warnFrom]

theorem Dev.mem_of_passRow {d : Dev} {bad : List Nat} {x : Drove} {p : RebuildPass} {e : Dev} (he : d.passRow bad x p = some e) :
    e.mem = d.mem := by
  unfold Dev.passRow at he
  dsimp only at he
  (repeat' split at he) <;> cases he <;> simp

@[simp] theorem Dev.setPass_mem (d : Dev) (p : RebuildPass) : (d.setPass p).mem = d.mem := (rfl)

@[simp] theorem Dev.passStep_memWf {d : Dev} (h : memWf d.mem = true) (x : Drove) (bad : List Nat) (fails : Nat) :
    memWf (d.passStep x bad fails).mem = true := by
  unfold Dev.passStep
  refine Dev.foldl_memWf (fun d p hd => ?_) _ h
  split
  · exact hd
  · split
    · split
      · next hp => simp [Dev.mem_of_passRow hp, hd]
      · exact Dev.dropPasses_memWf hd _
    · split <;> simp [hd]

@[simp] theorem Dev.rebuildPass_memWf {d : Dev} (h : memWf d.mem = true) (serial : Nat) (bad : List Nat) (fails : Nat) :
    memWf (d.rebuildPass serial bad fails).mem = true := by
  unfold Dev.rebuildPass
  dsimp only
  (repeat' split) <;> simp +contextual [h]

@[simp] theorem Dev.switchEntries_memWf {d : Dev} (h : memWf d.mem = true) (x : Drove) (i : Nat) (p : RebuildPass) :
    memWf (d.switchEntries x i p).mem = true := by
  unfold Dev.switchEntries
  dsimp only
  refine Dev.foldl_memWf (fun d e hd => ?_) _ h
  split
  · exact hd
  · split
    · exact Dev.addValid_memWf (Dev.subValid_memWf (Dev.mapUpdateIf_memWf hd ..) _) _
    · exact Dev.mapUpdateIf_memWf hd ..

@[simp] theorem Dev.memberSwitch_memWf {d : Dev} (h : memWf d.mem = true) (serial : Nat) : memWf (d.memberSwitch serial).mem = true := by
  unfold Dev.memberSwitch
  split
  · exact h
  · dsimp only
    split
    · exact h
    · refine Dev.foldl_memWf (fun d p hd => ?_) _ (Dev.foldl_memWf (fun d p hd => ?_) _ (by simp [h]))
      · split
        · exact Dev.switchEntries_memWf hd ..
        · exact hd
      · rw [Dev.postInfo_mem]
        have hs := Dev.setBlkState_memWf hd p.die p.grp 3
        split
        · exact Dev.blkPut_memWf (Dev.blkPut_memWf (Dev.blkPut_memWf hs ..) ..) ..
        · exact hs

@[simp] theorem Dev.evacuate_memWf {d : Dev} (h : memWf d.mem = true) (serial : Nat) (bad : List Nat) :
    memWf (d.evacuate serial bad).mem = true := by
  simp only [Dev.evacuate]
  split
  · exact h
  · refine Dev.ite_memWf h (Dev.ite_memWf ?_ ((congrArg memWf (Dev.post_mem ..)).trans ?_))
    all_goals
      refine Dev.foldl_fst_memWf (fun a e ha => ?_) _ (Dev.foldl_fst_memWf (fun a e ha => ?_) _ (Dev.dropPasses_memWf h _))
      · split
        · exact ha
        · exact Dev.foldl_fst_memWf (fun b l hb => by split <;> simp [hb]) _ ha
      · split <;> simp [ha]

@[simp] theorem Dev.quiesceCheck_mem (d : Dev) (v : Nat) : (d.quiesceCheck v).mem = d.mem := by
  unfold Dev.quiesceCheck
  dsimp only
  split <;> rfl

@[simp] theorem Dev.quiesceRequest_mem (d : Dev) (v : Nat) : (d.quiesceRequest v).mem = d.mem := by
  unfold Dev.quiesceRequest
  split <;> simp

@[simp] theorem Dev.quiesceTimeout_memWf {d : Dev} (h : memWf d.mem = true) (v : Nat) : memWf (d.quiesceTimeout v).mem = true := by
  unfold Dev.quiesceTimeout
  dsimp only
  (repeat' split) <;> simp +contextual [h]

/-! ### Frames of Machine/Hurdle -/

@[simp] theorem Dev.setNspace_mem (d : Dev) (n : Nat) (x : NsSt) : (d.setNspace n x).mem = d.mem := (rfl)

@[simp] theorem Dev.doorbell_mem (d : Dev) (k q : Nat) (cq : Bool) (v : Nat) : (d.doorbell k q cq v).mem = d.mem := by
  unfold Dev.doorbell
  dsimp only
  (repeat' split) <;> simp

@[simp] theorem Dev.placeHurdle_mem (d : Dev) (p : Nat) (x : PenSt) (h : Nat × Nat × Nat × Nat) : (d.placeHurdle p x h).mem = d.mem := (rfl)

@[simp] theorem Dev.freeHurdle_mem (d : Dev) (p : Nat) : (d.freeHurdle p).mem = d.mem := (rfl)

@[simp] theorem Dev.fetch_mem (d : Dev) (k q : Nat) (cdw : List Nat) (data : Bytes) : (d.fetch k q cdw data).mem = d.mem := by
  unfold Dev.fetch
  dsimp only
  (repeat' split) <;> simp

@[simp] theorem Dev.walkEnd_mem (d : Dev) (p : Nat) (w : WalkData) : (d.walkEnd p w).mem = d.mem := by
  unfold Dev.walkEnd
  dsimp only
  (repeat' split) <;> simp

@[simp] theorem Dev.hurdleHeld_mem (d : Dev) (p : Nat) : (d.hurdleHeld p).mem = d.mem := by
  unfold Dev.hurdleHeld
  dsimp only
  (repeat' split) <;> simp

@[simp] theorem Dev.longWait_mem (d : Dev) (p : Nat) : (d.longWait p).mem = d.mem := by
  unfold Dev.longWait
  (repeat' split) <;> simp

/-! ### Frames of Machine/IoCmd -/

@[simp] theorem Dev.iuLost_memWf {d : Dev} (h : memWf d.mem = true) (diu key : Nat) : memWf (d.iuLost diu key).mem = true := by simp [Dev.iuLost, h]

@[simp] theorem Dev.placeJob_memWf {d : Dev} (h : memWf d.mem = true) (x : PenSt) (p : Nat) (j : IuJob) : memWf (d.placeJob x p j).1.mem = true := by
  unfold Dev.placeJob
  dsimp only
  (repeat' split) <;> simp [h]

@[simp] theorem Dev.placePen_memWf {d : Dev} (h : memWf d.mem = true) (p : Nat) : memWf (d.placePen p).mem = true := by
  unfold Dev.placePen
  split
  · exact h
  · next x _ =>
    have hr := fun f hf => Dev.foldl_fst_memWf (f := f) hf x.ius (a := (d, ([] : List IuJob), 0)) h
    dsimp only
    split
    · simp +contextual [hr]
    · simp +contextual [hr]
    · split <;> simp +contextual [hr]

@[simp] theorem Dev.startPlace_memWf {d : Dev} (h : memWf d.mem = true) (p : Nat) (x : PenSt) (ius : List (Nat × Option (Bytes × Bytes)))
    (more : List IuJob) : memWf (d.startPlace p x ius more).mem = true := by
  unfold Dev.startPlace
  dsimp only
  (repeat' split) <;> simp +contextual [h]

@[simp] theorem Dev.startRead_memWf {d : Dev} (h : memWf d.mem = true) (p : Nat) (x : PenSt) : memWf (d.startRead p x).mem = true := by
  simp only [Dev.startRead]
  split
  · exact h
  · split
    · exact h
    · rw [Dev.setPen_mem]
      refine Dev.foldl_fst_memWf (fun b l hb => ?_) _ h
      split
      · simp [hb]
      · split <;> simp [hb]

@[simp] theorem Dev.modIu_mem (d : Dev) (p i : Nat) (f : IuJob → IuJob) : (d.modIu p i f).mem = d.mem := by simp [Dev.modIu]

@[simp] theorem Dev.deliver_mem (d : Dev) (x : PenSt) : (d.deliver x).mem = d.mem := by
  unfold Dev.deliver
  refine Dev.foldl_mem (fun d i => ?_) _ _
  repeat' split
  all_goals rfl

@[simp] theorem Dev.dropEpochs_mem (d : Dev) (x : PenSt) : (d.dropEpochs x).mem = d.mem := by simp [Dev.dropEpochs]

@[simp] theorem Dev.finishRead_mem (d : Dev) (p : Nat) : (d.finishRead p).mem = d.mem := by
  unfold Dev.finishRead
  (repeat' split) <;> simp

@[simp] theorem Dev.iuEnd_mem (d : Dev) (p i : Nat) (st : Nat) (data hm : Bytes) : (d.iuEnd p i st data hm).mem = d.mem := by
  unfold Dev.iuEnd
  (repeat' split) <;> simp

@[simp] theorem Dev.dispatch_memWf {d : Dev} (h : memWf d.mem = true) (p i : Nat) : memWf (d.dispatch p i).mem = true := by
  unfold Dev.dispatch
  dsimp only
  (repeat' split) <;> simp [h]

@[simp] theorem Dev.reconRequest_mem (d : Dev) (p i : Nat) : (d.reconRequest p i).mem = d.mem := by
  unfold Dev.reconRequest
  dsimp only
  (repeat' split) <;> rfl

@[simp] theorem Dev.reconComplete_memWf {d : Dev} (h : memWf d.mem = true) (bad : List Nat) : memWf (d.reconComplete bad).mem = true := by
  unfold Dev.reconComplete
  dsimp only
  (repeat' split) <;> simp [h]

@[simp] theorem Dev.readOutcome_mem (d : Dev) (key status steps : Nat) (soft : Bool) : (d.readOutcome key status steps soft).mem = d.mem := by
  unfold Dev.readOutcome
  dsimp only
  (repeat' split) <;> simp

@[simp] theorem Dev.hostReadResult_mem (d : Dev) (p i : Nat) (w : WorkItem) (status steps : Nat) (soft : Bool) :
    (d.hostReadResult p i w status steps soft).mem = d.mem := by
  unfold Dev.hostReadResult
  dsimp only
  (repeat' split) <;> simp

@[simp] theorem Dev.grazeResult_mem (d : Dev) (key status steps : Nat) (soft : Bool) : (d.grazeResult key status steps soft).mem = d.mem := by
  unfold Dev.grazeResult
  dsimp only
  (repeat' split) <;> simp

@[simp] theorem Dev.resultPost_memWf {d : Dev} (h : memWf d.mem = true) (ticket : Nat) : memWf (d.resultPost ticket).mem = true := by
  unfold Dev.resultPost
  dsimp only
  split
  · simp [h]
  · rw [Dev.quiesceCheck_mem]
    refine Dev.pumpJobs_memWf ?_
    repeat' split
    all_goals simp [h]

@[simp] theorem Dev.grazeNand_memWf {d : Dev} (h : memWf d.mem = true) (die slot : Nat) : memWf (d.grazeNand die slot).mem = true := by
  unfold Dev.grazeNand
  dsimp only
  (repeat' split) <;> simp [h]

@[simp] theorem Dev.grazeAt_mem (d : Dev) (a : Nat) : (d.grazeAt a).mem = d.mem := by
  unfold Dev.grazeAt
  split <;> rfl

@[simp] theorem Dev.dataArrival_memWf {d : Dev} (h : memWf d.mem = true) (p : Nat) (data md : Bytes) (bad : List Nat) :
    memWf (d.dataArrival p data md bad).mem = true := by
  unfold Dev.dataArrival
  dsimp only
  (repeat' split) <;> simp [h]

@[simp] theorem Dev.linkTimeout_mem (d : Dev) (k : Nat) : (d.linkTimeout k).mem = d.mem := by
  unfold Dev.linkTimeout
  dsimp only
  split <;> simp

@[simp] theorem Dev.hostReadFail_mem (d : Dev) (p : Nat) (timeout : Bool) : (d.hostReadFail p timeout).mem = d.mem := by
  unfold Dev.hostReadFail
  dsimp only
  (repeat' split) <;> simp

@[simp] theorem Dev.writeZeroes_memWf {d : Dev} (h : memWf d.mem = true) (p : Nat) (bad : List Nat) : memWf (d.writeZeroes p bad).mem = true := by
  unfold Dev.writeZeroes
  dsimp only
  (repeat' split) <;> simp [h]

@[simp] theorem Dev.dataset_memWf {d : Dev} (h : memWf d.mem = true) (p : Nat) : memWf (d.dataset p).mem = true := by
  unfold Dev.dataset
  (repeat' split) <;> simp [h]

/-! ### Frames of Machine/Resv -/

@[simp] theorem Dev.setResv_mem (d : Dev) (n : Nat) (r : ResvSt) : (d.setResv n r).mem = d.mem := (rfl)

@[simp] theorem Dev.resvNote_mem (d : Dev) (k n type : Nat) : (d.resvNote k n type).mem = d.mem := by
  unfold Dev.resvNote
  split <;> simp

@[simp] theorem Dev.resvRelease_mem (d : Dev) (n k : Nat) : (d.resvRelease n k).mem = d.mem := by
  unfold Dev.resvRelease
  dsimp only
  split <;> simp

@[simp] theorem Dev.resvRegister_mem (d : Dev) (p : Nat) (b : Bytes) : (d.resvRegister p b).mem = d.mem := by
  unfold Dev.resvRegister
  dsimp only
  (repeat' split) <;> simp

@[simp] theorem Dev.preemptAbort_mem (d : Dev) (n : Nat) (gone : List Registrant) : (d.preemptAbort n gone).mem = d.mem := by
  simp [Dev.preemptAbort]

@[simp] theorem Dev.resvAcquire_mem (d : Dev) (p : Nat) (b : Bytes) : (d.resvAcquire p b).mem = d.mem := by
  unfold Dev.resvAcquire
  (repeat' split) <;> simp

@[simp] theorem Dev.resvReleaseCmd_mem (d : Dev) (p : Nat) (b : Bytes) : (d.resvReleaseCmd p b).mem = d.mem := by
  unfold Dev.resvReleaseCmd
  dsimp only
  (repeat' split) <;> simp

@[simp] theorem Dev.resvReport_mem (d : Dev) (p : Nat) : (d.resvReport p).mem = d.mem := by
  unfold Dev.resvReport
  (repeat' split) <;> simp

/-! ### Frames of Machine/Power -/

@[simp] theorem Dev.finishPowerPens_mem (d : Dev) : d.finishPowerPens.mem = d.mem := by simp [Dev.finishPowerPens]

@[simp] theorem Dev.entryDone_mem (d : Dev) : d.entryDone.mem = d.mem := by
  unfold Dev.entryDone
  split <;> rfl

@[simp] theorem Dev.entryStep_memWf {d : Dev} (h : memWf d.mem = true) : memWf d.entryStep.mem = true := by
  unfold Dev.entryStep
  dsimp only
  (repeat' split) <;> simp +contextual [h]

@[simp] theorem Dev.powerEntry_memWf {d : Dev} (h : memWf d.mem = true) : memWf d.powerEntry.mem = true := by
  unfold Dev.powerEntry
  split <;> simp [h]

@[simp] theorem Dev.entrySuspend_memWf {d : Dev} (h : memWf d.mem = true) : memWf d.entrySuspend.mem = true := by
  unfold Dev.entrySuspend
  split <;> simp [h]

@[simp] theorem Dev.entryResume_mem (d : Dev) : d.entryResume.mem = d.mem := by
  unfold Dev.entryResume
  split <;> rfl

@[simp] theorem Dev.powerExit_memWf {d : Dev} (h : memWf d.mem = true) : memWf d.powerExit.mem = true := by
  unfold Dev.powerExit
  split <;> simp [h]

@[simp] theorem Dev.apst_mem (d : Dev) (k : Nat) : (d.apst k).mem = d.mem := by
  unfold Dev.apst
  dsimp only
  split
  · rfl
  · rw [Dev.retarget_mem, Dev.modCtrl_mem, Dev.mem_advanceTo]

@[simp] theorem Dev.noppmeWork_memWf {d : Dev} (h : memWf d.mem = true) (start : Bool) : memWf (d.noppmeWork start).mem = true := by
  unfold Dev.noppmeWork
  (repeat' split) <;> simp [h]

@[simp] theorem Dev.setLink_mem (d : Dev) (l : Nat) (x : LinkSt) : (d.setLink l x).mem = d.mem := (rfl)

@[simp] theorem Dev.l12Enter_memWf {d : Dev} (h : memWf d.mem = true) (l : Nat) : memWf (d.l12Enter l).mem = true := by
  unfold Dev.l12Enter
  dsimp only
  (repeat' split) <;> simp [h]

@[simp] theorem Dev.l12Exit_memWf {d : Dev} (h : memWf d.mem = true) (l : Nat) : memWf (d.l12Exit l).mem = true := by
  unfold Dev.l12Exit
  split <;> simp [h]

/-! ### Frames of Machine/Reset -/

@[simp] theorem Dev.cutAll_mem (d : Dev) : d.cutAll.mem = d.mem := by simp [Dev.cutAll]

@[simp] theorem Dev.resetAs_memWf {d : Dev} (h : memWf d.mem = true) (k : ResetKind) (reason : Nat) : memWf (d.resetAs k reason).mem = true := by
  simp only [Dev.resetAs, Dev.crookLost_mem]
  split
  · exact memWf_filter _ (by simp [h])
  · rfl

@[simp] theorem Dev.powerOnReset_memWf {d : Dev} (h : memWf d.mem = true) : memWf d.powerOnReset.mem = true := by simp [Dev.powerOnReset, h]

@[simp] theorem Dev.powerFailEnd_mem (d : Dev) : d.powerFailEnd.mem = d.mem := by simp [Dev.powerFailEnd]

@[simp] theorem Dev.powerFailStart_memWf {d : Dev} (h : memWf d.mem = true) (units : Nat) : memWf (d.powerFailStart units).mem = true := by
  have hcut : ∀ {e : Dev}, memWf e.mem = true → memWf (e.powerFailTxns.iluPowerFail units).mem = true := fun he => by
    rw [Dev.iluPowerFail_mem, Dev.powerFailTxns_mem]
    exact he
  simp only [Dev.powerFailStart]
  refine Dev.ite_memWf ?_ ?_
  · rw [Dev.powerFailEnd_mem, Dev.mem_withDrove]
    refine hcut ?_
    exact h
  · rw [Dev.clearGates_mem, Dev.mem_withPwr]
    refine Dev.foldl_memWf (fun d c hd => by simp [hd]) _ (Dev.fixJournal_memWf (Dev.ite_memWf (hcut ?_) ?_))
    · exact h
    · rw [Dev.noteWake_mem]
      refine Dev.setPads_memWf (hcut ?_) ..
      exact h

@[simp] theorem Dev.powerFail_memWf {d : Dev} (h : memWf d.mem = true) (units : Nat) : memWf (d.powerFail units).mem = true := by
  unfold Dev.powerFail
  split
  · simp [h]
  · split <;> simp [h]

@[simp] theorem Dev.pllLock_memWf {d : Dev} (h : memWf d.mem = true) (p : Nat) : memWf (d.pllLock p).mem = true := by
  unfold Dev.pllLock
  dsimp only
  (repeat' split) <;> simp [h]

@[simp] theorem Dev.collieExpiry_memWf {d : Dev} (h : memWf d.mem = true) : memWf d.collieExpiry.mem = true := by
  unfold Dev.collieExpiry
  split <;> simp [h]

@[simp] theorem Dev.holdEnd_mem (d : Dev) (since : Nat) : (d.holdEnd since).mem = d.mem := (rfl)

@[simp] theorem Dev.nssr_memWf {d : Dev} (h : memWf d.mem = true) (v : Nat) : memWf (d.nssr v).mem = true := by
  unfold Dev.nssr
  dsimp only
  (repeat' split) <;> simp [h]

@[simp] theorem Dev.foldReset_memWf {d : Dev} (h : memWf d.mem = true) (failA failB : Bool) : memWf (d.foldReset failA failB).mem = true := by
  unfold Dev.foldReset
  dsimp only
  (repeat' split) <;> simp [h]

@[simp] theorem Dev.tamperReset_mem (d : Dev) (b : Nat) : (d.tamperReset b).mem = d.mem := (rfl)

@[simp] theorem Dev.romHalt_mem (d : Dev) (code : Nat) : (d.romHalt code).mem = d.mem := (rfl)

@[simp] theorem Dev.tamperEvent_mem (d : Dev) (b : Nat) (fails : TallyFails) : (d.tamperEvent b fails).mem = d.mem := by
  unfold Dev.tamperEvent
  (repeat' split) <;> simp

@[simp] theorem Dev.wakePattern_memWf {d : Dev} (h : memWf d.mem = true) (port : Nat) (us : List Nat) :
    memWf (d.wakePattern port us).mem = true := by
  unfold Dev.wakePattern
  split
  · simp [h]
  · split <;> simp [h]

@[simp] theorem Dev.mgmtWake_memWf {d : Dev} (h : memWf d.mem = true) (i3c : Bool) : memWf (d.mgmtWake i3c).mem = true := by
  unfold Dev.mgmtWake
  (repeat' split) <;> simp [h]

@[simp] theorem Dev.mgmtDone_memWf {d : Dev} (h : memWf d.mem = true) : memWf d.mgmtDone.mem = true := by
  unfold Dev.mgmtDone
  dsimp only
  (repeat' split) <;> simp [h]

/-! ### Frames of Machine/Boot -/

@[simp] theorem Dev.addNote_mem (d : Dev) (n : BootNote) : (d.addNote n).mem = d.mem := (rfl)

@[simp] theorem Dev.chooseKind_mem (d : Dev) (kind : Nat) : (d.chooseKind kind).1.mem = d.mem := by
  unfold Dev.chooseKind
  dsimp only
  (repeat' split) <;> simp

@[simp] theorem Dev.bootModules_mem (d : Dev) : d.bootModules.mem = d.mem := by simp [Dev.bootModules]

@[simp] theorem Dev.loadModule_memWf {d : Dev} (h : memWf d.mem = true) (core off : Nat) (b args : Bytes) :
    memWf (d.loadModule core off b args).mem = true := by
  unfold Dev.loadModule
  dsimp only
  (repeat' split) <;> simp +contextual [h]

@[simp] theorem Dev.startCore_memWf {d : Dev} (h : memWf d.mem = true) (core : Nat) (b : Bytes) : memWf (d.startCore core b).mem = true := by
  simp [Dev.startCore, h]

@[simp] theorem Dev.voidUncommitted_mem (d : Dev) : d.voidUncommitted.mem = d.mem := by simp [Dev.voidUncommitted]

@[simp] theorem Dev.loadConfig_mem (d : Dev) : d.loadConfig.mem = d.mem := by simp [Dev.loadConfig]

@[simp] theorem Dev.settleLifecycle_mem (d : Dev) (fails : TallyFails) : (d.settleLifecycle fails).mem = d.mem := by
  unfold Dev.settleLifecycle
  dsimp only
  (repeat' split) <;> simp

@[simp] theorem Dev.settleNotes_mem (d : Dev) : d.settleNotes.mem = d.mem := by
  unfold Dev.settleNotes
  dsimp only
  (repeat' split) <;> rfl

@[simp] theorem Dev.bootHalt_mem (d : Dev) (stage : Nat) : (d.bootHalt stage).mem = d.mem := (rfl)

@[simp] theorem Dev.bootFirmware_mem (d : Dev) (fails : TallyFails) : (d.bootFirmware fails).mem = d.mem := by
  rw [Dev.bootFirmware]
  split
  · exact Dev.bootHalt_mem ..
  · extract_lets _ _ d2 a b d3 d4 halted _ d5 r extra _ d6 f d7
    have hr : r.1.mem = d.mem := by
      simp only [r, d5, d4, d3, b, a, d2, Dev.append_mem, Dev.tickFree_mem, Dev.settleNotes_mem, Dev.settleLifecycle_mem, Dev.loadConfig_mem,
       Dev.voidUncommitted_mem, Dev.bootModules_mem, Dev.chooseKind_mem]
    have h7 : d7.mem = r.1.mem := by
      rw [Dev.loadBlobs_mem, Dev.mem_withFold]
      exact Dev.foldl_mem (fun d b => Dev.appendEntry_mem ..) _ _
    split
    · exact (Dev.bootHalt_mem ..).trans hr
    · split
      · exact (Dev.bootHalt_mem ..).trans (h7.trans hr)
      · exact h7.trans hr

@[simp] theorem Dev.bootRom_memWf {d : Dev} (h : memWf d.mem = true) (fails : TallyFails) : memWf (d.bootRom fails).mem = true := by
  unfold Dev.bootRom
  dsimp only
  (repeat' split) <;> simp [h]

@[simp] theorem Dev.coreRelease_memWf {d : Dev} (h : memWf d.mem = true) : memWf d.coreRelease.mem = true := by
  rw [Dev.coreRelease]
  split
  · exact h
  · extract_lets go d1 _ d2
    have hgo : ∀ kind x, memWf x.mem = true → memWf (go kind x).mem = true := fun kind x hx =>
      Dev.foldl_memWf (fun y u hy => by split <;> simp [hy]) _ hx
    have h1 : memWf d1.mem = true := hgo 3 _ (hgo 2 _ h)
    have h2 : memWf d2.mem = true := (congrArg memWf (Dev.mem_withFold ..)).trans h1
    split
    · exact (congrArg memWf (Dev.writeSnapshot_mem d2)).trans h2
    · exact h2

@[simp] theorem Dev.raiseBoot_mem (d : Dev) (fails : TallyFails) : (d.raiseBoot fails).mem = d.mem := by simp [Dev.raiseBoot]

@[simp] theorem Dev.controllerReady_mem (d : Dev) (fails : TallyFails) : (d.controllerReady fails).mem = d.mem := by
  unfold Dev.controllerReady
  dsimp only
  have hd := fun (f : Nat → CtrlSt → CtrlSt) (l : List Nat) =>
    Dev.foldl_mem (f := fun (x : Dev) k => x.modCtrl k (f k)) (fun x k => Dev.modCtrl_mem ..) l d
  split
  · rfl
  · split <;> simp [hd]

/-! ### Frames of Machine/Mctp -/

@[simp] theorem Dev.modWalk_mem (d : Dev) (f : WalkSt → WalkSt) : (d.modWalk f).mem = d.mem := (rfl)

@[simp] theorem Dev.capture_memWf {d : Dev} (h : memWf d.mem = true) (f : RxFrame) : memWf (d.capture f).mem = true := by
  unfold Dev.capture
  split
  · simp [h]
  · split <;> simp [h]

@[simp] theorem Dev.walkReceive_memWf {d : Dev} (h : memWf d.mem = true) (cs : List (BitVec 10)) (broken : Bool) :
    memWf (d.walkReceive cs broken).mem = true := by
  unfold Dev.walkReceive
  (repeat' split) <;> simp [h]

@[simp] theorem Dev.probeBack_mem (d : Dev) : d.probeBack.mem = d.mem := by
  unfold Dev.probeBack
  split <;> rfl

@[simp] theorem Dev.walkRemove_mem (d : Dev) (cs : List (BitVec 10)) (broken : Bool) : (d.walkRemove cs broken).mem = d.mem := by
  unfold Dev.walkRemove
  dsimp only
  (repeat' split) <;> simp

@[simp] theorem Dev.walkTransmit_memWf {d : Dev} (h : memWf d.mem = true) (arriving : Nat) : memWf (d.walkTransmit arriving).mem = true := by
  unfold Dev.walkTransmit
  dsimp only
  (repeat' split) <;> simp [h]

@[simp] theorem Dev.sendProbe_mem (d : Dev) (n : Nat) : (d.sendProbe n).mem = d.mem := (rfl)

@[simp] theorem Dev.ringCheck_mem (d : Dev) : d.ringCheck.mem = d.mem := by
  unfold Dev.ringCheck
  split <;> simp

@[simp] theorem Dev.probeTimeout_mem (d : Dev) : d.probeTimeout.mem = d.mem := by
  unfold Dev.probeTimeout
  dsimp only
  (repeat' split) <;> simp

@[simp] theorem Dev.passSwitch_mem (d : Dev) (opens : Bool) : (d.passSwitch opens).mem = d.mem := by
  unfold Dev.passSwitch
  dsimp only
  (repeat' split) <;> rfl

@[simp] theorem Dev.mctpTake_mem (d : Dev) (path : MPath) (station : Nat) (b : Bytes) : (d.mctpTake path station b).mem = d.mem := by
  unfold Dev.mctpTake
  dsimp only
  (repeat' split) <;> rfl

@[simp] theorem Dev.mctpPacket_mem (d : Dev) (x : MctpIn) : (d.mctpPacket x).mem = d.mem := by
  unfold Dev.mctpPacket
  (repeat' split) <;> simp

@[simp] theorem Dev.mgmtReply_memWf {d : Dev} (h : memWf d.mem = true) (m : MgmtMsg) (b : Bytes) : memWf (d.mgmtReply m b).mem = true := by
  unfold Dev.mgmtReply
  dsimp only
  (repeat' split) <;> simp [h]

@[simp] theorem Dev.mgmtDrop_mem (d : Dev) (m : MgmtMsg) : (d.mgmtDrop m).mem = d.mem := (rfl)

@[simp] theorem Dev.sweepMsgs_memWf {d : Dev} (h : memWf d.mem = true) (n : Nat) : memWf (d.sweepMsgs n).mem = true := by
  induction n generalizing d with
  | zero => exact h
  | succ n ih =>
    unfold Dev.sweepMsgs
    split
    · exact h
    · split
      · exact h
      · refine ih ?_
        split <;> simp [h]

@[simp] theorem Dev.sweep_memWf {d : Dev} (h : memWf d.mem = true) : memWf d.sweep.mem = true := by simp [Dev.sweep, h]

@[simp] theorem Dev.mctpControl_memWf {d : Dev} (h : memWf d.mem = true) (code : Nat) {f : Dev → MgmtMsg → Dev × Nat × Bytes}
    (hf : ∀ d m, memWf d.mem = true → memWf (f d m).1.mem = true) : memWf (d.mctpControl code f).mem = true := by
  have hs := Dev.sweep_memWf h
  unfold Dev.mctpControl
  dsimp only
  split
  · exact hs
  · exact Dev.ite_memWf hs (by simp [hf _ _ hs])

@[simp] theorem Dev.setEid_mem (d : Dev) (p : MPath) (e : Nat) : (d.setEid p e).mem = d.mem := (rfl)

@[simp] theorem Dev.i3cMode_mem (d : Dev) (i3c : Bool) (a : Nat) : (d.i3cMode i3c a).mem = d.mem := (rfl)

/-! ### Frames of Machine/Tcg -/

@[simp] theorem Dev.setBind_mem (d : Dev) (n : Nat) (k : KeyBind) : (d.setBind n k).mem = d.mem := (rfl)

theorem Dev.memWf_of_nsRecord {d : Dev} (h : memWf d.mem = true) {n : Nat} {e : Dev} (he : d.nsRecord n = some e) : memWf e.mem = true := by
  unfold Dev.nsRecord at he
  dsimp only at he
  split at he
  · cases he
    exact Dev.ensurePlaced_memWf h _ (fun x hx => Dev.trimAll_memWf hx n) 3
  · cases he

@[simp] theorem Dev.retireCurrent_mem (d : Dev) (n : Nat) : (d.retireCurrent n).1.mem = d.mem := by
  unfold Dev.retireCurrent
  dsimp only
  split <;> rfl

@[simp] theorem Dev.makeCurrent_mem (d : Dev) (n j slot : Nat) : (d.makeCurrent n j slot).mem = d.mem := (rfl)

theorem Dev.mem_of_newGeneration {d : Dev} {n : Nat} {e : Dev} (he : d.newGeneration n = some e) : e.mem = d.mem := by
  unfold Dev.newGeneration at he
  split at he
  · cases he
  · obtain ⟨s, _, rfl⟩ := Option.map_eq_some_iff.mp he
    simp

theorem Dev.memWf_of_changeKey {d : Dev} (h : memWf d.mem = true) {n : Nat} {e : (Dev × List (Nat × Nat))} (he : d.changeKey n = some e) :
    memWf e.1.mem = true := by
  unfold Dev.changeKey at he
  split at he
  · cases he
  · next hr =>
    obtain ⟨x, hx, rfl⟩ := Option.map_eq_some_iff.mp he
    simp [Dev.mem_of_newGeneration hx, Dev.memWf_of_nsRecord h hr]

theorem Dev.memWf_of_changeKeys {ns : List Nat} {d : Dev} (h : memWf d.mem = true) {e : Dev × List (Nat × Nat)}
    (he : d.changeKeys ns = some e) : memWf e.1.mem = true := by
  induction ns generalizing d e with
  | nil =>
    cases he
    exact h
  | cons n t ih =>
    unfold Dev.changeKeys at he
    split at he
    · cases he
    · next hk =>
      obtain ⟨r, hr, rfl⟩ := Option.map_eq_some_iff.mp he
      exact ih (e := r) (Dev.memWf_of_changeKey h hk) hr

theorem Dev.memWf_of_nsRecords {ns : List Nat} {d : Dev} (h : memWf d.mem = true) {e : Dev} (he : d.nsRecords ns = some e) :
    memWf e.mem = true := by
  induction ns generalizing d with
  | nil =>
    cases he
    exact h
  | cons n t ih =>
    obtain ⟨x, hx, hr⟩ := Option.bind_eq_some_iff.mp he
    exact ih (Dev.memWf_of_nsRecord h hx) hr

@[simp] theorem Dev.awaitRelease_mem (d : Dev) (p : Nat) (gens : List (Nat × Nat)) : (d.awaitRelease p gens).mem = d.mem := by
  unfold Dev.awaitRelease
  split <;> simp

@[simp] theorem Dev.endKeyWaits_mem (d : Dev) : d.endKeyWaits.mem = d.mem := by simp [Dev.endKeyWaits]

@[simp] theorem Dev.generationRelease_mem (d : Dev) (n j : Nat) : (d.generationRelease n j).mem = d.mem := by
  unfold Dev.generationRelease
  dsimp only
  (repeat' split) <;> simp

@[simp] theorem Dev.setAuthority_mem (d : Dev) (a : Nat) (x : Authority) : (d.setAuthority a x).mem = d.mem := (rfl)

@[simp] theorem Dev.prove_mem (d : Dev) (a : Nat) (pin : Bytes) : (d.prove a pin).1.mem = d.mem := by
  unfold Dev.prove
  dsimp only
  (repeat' split) <;> rfl

@[simp] theorem Dev.setSession_mem (d : Dev) (x : Option (Nat × Nat × List Nat)) : (d.setSession x).mem = d.mem := (rfl)

@[simp] theorem Dev.modRange_mem (d : Dev) (n : Nat) (f : LockRange → LockRange) : (d.modRange n f).mem = d.mem := (rfl)

@[simp] theorem Dev.revertSps_mem (d : Dev) : d.revertSps.mem = d.mem := (rfl)

theorem Dev.memWf_of_inject {d : Dev} (h : memWf d.mem = true) {n i : Nat} {w : Bytes} {e : Dev × Nat} (he : d.inject n i w = some e) :
    memWf e.1.mem = true := by
  unfold Dev.inject at he
  dsimp only at he
  split at he
  · split at he
    · cases he
      exact h
    · split at he
      · cases he
      · next d1 hr =>
        have h1 : memWf d1.mem = true := by
          split at hr
          · obtain ⟨x, hx, rfl⟩ := Option.map_eq_some_iff.mp hr
            exact (congrArg memWf (Dev.retireCurrent_mem ..)).trans (Dev.memWf_of_nsRecord h hx)
          · cases hr
            exact h
        split at he
        · obtain rfl := Option.some.inj he
          exact (congrArg memWf ((Dev.makeCurrent_mem ..).trans ((Dev.storeBlob_mem ..).trans (Dev.loadSlot_mem ..)))).trans h1
        · cases he
  · cases he
    exact h

theorem Dev.memWf_of_tcgRun {d : Dev} (h : memWf d.mem = true) {k sp : Nat} {l : List Nat} {m : TcgMethod}
    {e : Dev × Nat × List (Nat × Nat)} (he : d.tcgRun k sp l m = some e) : memWf e.1.mem = true := by
  have hset : ∀ {d1 : Dev} {st : Nat} {l : List (Nat × Nat)}, memWf d1.mem = true → some (d1, st, l) = some e → memWf e.1.mem = true := by
    rintro _ _ _ h1 ⟨⟩
    exact h1
  have hkeys : ∀ {d1 : Dev} {ns : List Nat} {l : Dev × List (Nat × Nat) → List (Nat × Nat)} {e : Dev × Nat × List (Nat × Nat)},
      memWf d1.mem = true →
      (d1.changeKeys ns).map (fun r => (r.1, tcgSuccess, l r)) = some e → memWf e.1.mem = true := fun h1 hx => by
    obtain ⟨r, hr, rfl⟩ := Option.map_eq_some_iff.mp hx
    exact Dev.memWf_of_changeKeys h1 hr
  have hrec : ∀ {n : Nat} {f : Dev → Dev} {l : List (Nat × Nat)} {e : Dev × Nat × List (Nat × Nat)}, (∀ x, (f x).mem = x.mem) →
      (d.nsRecord n).map (fun x => (f x, tcgSuccess, l)) = some e → memWf e.1.mem = true := fun hf hx => by
    obtain ⟨x, hn, rfl⟩ := Option.map_eq_some_iff.mp hx
    exact (congrArg memWf (hf x)).trans (Dev.memWf_of_nsRecord h hn)
  cases m with
  | startSession => exact hset h he
  | endSession => exact hset (by simp [h]) he
  | authenticate => exact hset (by split <;> simp [h]) he
  | setPin =>
    simp only [Dev.tcgRun] at he
    split at he
    · exact hset h he
    · split at he
      · exact hset h he
      · split at he
        · cases he
        · exact hset (by simp [h]) he
  | enableAuthority | setRange | setLock =>
    simp only [Dev.tcgRun] at he
    split at he
    · exact hset h he
    · split at he
      · exact hset h he
      · exact hset (by simp [h]) he
  | activate =>
    simp only [Dev.tcgRun] at he
    split at he
    · cases he
      exact h
    · exact hset h he
  | genKey =>
    simp only [Dev.tcgRun] at he
    split at he
    · exact hset h he
    · split at he
      · exact hset h he
      · obtain ⟨r, hr, rfl⟩ := Option.map_eq_some_iff.mp he
        exact Dev.memWf_of_changeKey h hr
  | revert | revertSp =>
    simp only [Dev.tcgRun] at he
    split at he
    · exact hkeys (by simp [h]) he
    · exact hset h he
  | psidRevert =>
    simp only [Dev.tcgRun] at he
    split at he
    · exact hkeys (by simp [h]) he
    · exact hset (by simp [h]) he
  | keyPerIo =>
    simp only [Dev.tcgRun] at he
    split at he
    · exact hset h he
    · split at he
      · exact hset h he
      · split at he
        · exact hset (by simp [h]) he
        · exact hrec (f := fun x => ((x.retireCurrent _).1.setBind _ _)) (fun x => by simp) he
  | installKek =>
    simp only [Dev.tcgRun] at he
    split at he
    · exact hset h he
    · split at he
      · exact hset h he
      · exact hset (by rw [Dev.storeBlob_mem, Dev.loadSlot_mem]; exact h) he
  | injectKey =>
    simp only [Dev.tcgRun] at he
    split at he
    · exact hset h he
    · split at he
      · exact hset h he
      · obtain ⟨r, hr, rfl⟩ := Option.map_eq_some_iff.mp he
        exact Dev.memWf_of_inject h hr
  | clearKey =>
    simp only [Dev.tcgRun] at he
    split at he
    · exact hset h he
    · split at he
      · exact hset h he
      · split at he
        · exact hset h he
        · exact hrec (fun x => Dev.retireCurrent_mem ..) he

theorem Dev.memWf_of_tcgMethod {d : Dev} (h : memWf d.mem = true) {k : Nat} {m : TcgMethod} {e : (Dev × Nat × List (Nat × Nat))} (he :
    (d.tcgMethod k m) = some e) : memWf e.1.mem = true := by
  unfold Dev.tcgMethod at he
  split at he
  · dsimp only at he
    repeat' split at he
    all_goals cases he; simp [h]
  · cases he
    exact h
  · split at he
    · cases he
      exact h
    · exact Dev.memWf_of_tcgRun h he

@[simp] theorem Dev.tcgCommand_memWf {d : Dev} (h : memWf d.mem = true) (p : Nat) (m : TcgMethod) : memWf (d.tcgCommand p m).mem = true := by
  unfold Dev.tcgCommand
  dsimp only
  split
  · split
    · exact h
    · next he => simp [Dev.memWf_of_tcgMethod h he]
  · exact h

@[simp] theorem Dev.eraseAll_memWf {d : Dev} (h : memWf d.mem = true) : memWf d.eraseAll.mem = true := by
  unfold Dev.eraseAll
  split
  · next he => exact Dev.memWf_of_changeKeys h he
  · exact h

@[simp] theorem Dev.lcRow_memWf {d : Dev} (h : memWf d.mem = true) (type : Nat) (src : LcSource) (b : Bytes) (storeOk : Bool) (fails : TallyFails) :
    memWf (d.lcRow type src b storeOk fails).mem = true := Dev.ite_memWf h (Dev.lcArrive_memWf h (fun _ hd => Dev.eraseAll_memWf hd) ..)

/-! ### Frames of Machine/RegsHub -/

/-- An answered register read leaves the byte memories as they are. -/
def Dev.ReadKeepsMem (d : Dev) (r : RegAns) : Prop := ∀ e, r = some e → e.1.mem = d.mem

@[simp] theorem Dev.readKeepsMem_none (d : Dev) : d.ReadKeepsMem none := fun _ he => nomatch he

@[simp] theorem Dev.readKeepsMem_some (d : Dev) (e : Dev × Nat) : d.ReadKeepsMem (some e) ↔ e.1.mem = d.mem :=
  ⟨fun h => h e rfl, fun h _ he => Option.some.inj he ▸ h⟩

@[simp] theorem Dev.readKeepsMem_ro (d : Dev) (v : Nat) : d.ReadKeepsMem (d.ro v) := (d.readKeepsMem_some _).mpr rfl

@[simp] theorem Dev.readKeepsMem_ite {d : Dev} {p : Prop} [Decidable p] (a b : RegAns) :
    d.ReadKeepsMem (if p then a else b) ↔ (p → d.ReadKeepsMem a) ∧ (¬p → d.ReadKeepsMem b) := by
  split <;> simp [*]

@[simp] theorem Dev.hubRead_keepsMem (d : Dev) (o : Nat) : d.ReadKeepsMem (d.hubRead o) := by simp [Dev.hubRead]

@[simp] theorem Dev.hubWrite_mem (d : Dev) (o v : Nat) : (d.hubWrite o v).mem = d.mem := by
  unfold Dev.hubWrite
  split <;> rfl

@[simp] theorem Dev.txnRead_keepsMem (d : Dev) (o : Nat) : d.ReadKeepsMem (d.txnRead o) := by simp [Dev.txnRead]

@[simp] theorem Dev.crookRead_keepsMem (d : Dev) (core o : Nat) : d.ReadKeepsMem (d.crookRead core o) := by simp [Dev.crookRead]

@[simp] theorem Dev.pcieRead_keepsMem (d : Dev) (o : Nat) : d.ReadKeepsMem (d.pcieRead o) := by
  unfold Dev.pcieRead
  dsimp only
  (repeat' split) <;> simp

@[simp] theorem Dev.pcieWrite_mem (d : Dev) (o v : Nat) : (d.pcieWrite o v).mem = d.mem := by
  unfold Dev.pcieWrite
  (repeat' split) <;> rfl

@[simp] theorem Dev.penRead_keepsMem (d : Dev) (o : Nat) : d.ReadKeepsMem (d.penRead o) := by simp [Dev.penRead]

@[simp] theorem Dev.hrdRead_keepsMem (d : Dev) (o : Nat) : d.ReadKeepsMem (d.hrdRead o) := by simp [Dev.hrdRead]

/-! ### Frames of Machine/RegsMap -/

@[simp] theorem Dev.droveRead_keepsMem (d : Dev) (o : Nat) : d.ReadKeepsMem (d.droveRead o) := by simp [Dev.droveRead]

@[simp] theorem Dev.mapcRead_keepsMem (d : Dev) (o : Nat) : d.ReadKeepsMem (d.mapcRead o) := by simp [Dev.mapcRead]

@[simp] theorem Dev.mapcWrite_memWf {d : Dev} (h : memWf d.mem = true) (o v : Nat) : memWf (d.mapcWrite o v).mem = true := by
  unfold Dev.mapcWrite
  dsimp only
  (repeat' split) <;> simp [h]

@[simp] theorem Dev.dramRead_keepsMem (d : Dev) (o : Nat) : d.ReadKeepsMem (d.dramRead o) := by simp [Dev.dramRead]

@[simp] theorem Dev.dramWrite_mem (d : Dev) (o v : Nat) : (d.dramWrite o v).mem = d.mem := by simp [Dev.dramWrite]

/-! ### Frames of Machine/RegsFold -/

@[simp] theorem Dev.foldRead_keepsMem (d : Dev) (o : Nat) : d.ReadKeepsMem (d.foldRead o) := by simp [Dev.foldRead]

@[simp] theorem Dev.foldWrite_mem (d : Dev) (o v : Nat) : (d.foldWrite o v).mem = d.mem := by
  unfold Dev.foldWrite
  (repeat' split) <;> simp

@[simp] theorem Dev.keyRead_keepsMem (d : Dev) (o : Nat) : d.ReadKeepsMem (d.keyRead o) := by simp [Dev.keyRead]

@[simp] theorem Dev.keyWrite_mem (d : Dev) (o v : Nat) : (d.keyWrite o v).mem = d.mem := by
  unfold Dev.keyWrite
  (repeat' split) <;> simp

@[simp] theorem Dev.pkaRead_keepsMem (d : Dev) (o : Nat) : d.ReadKeepsMem (d.pkaRead o) := by simp [Dev.pkaRead]

@[simp] theorem Dev.pkaWrite_mem (d : Dev) (o v : Nat) : (d.pkaWrite o v).mem = d.mem := by
  unfold Dev.pkaWrite
  split <;> simp

@[simp] theorem Dev.digSlotRead_keepsMem (d : Dev) (i r : Nat) : d.ReadKeepsMem (d.digSlotRead i r) := by simp [Dev.digSlotRead]

@[simp] theorem Dev.digWinRead_keepsMem (d : Dev) (core o : Nat) : d.ReadKeepsMem (d.digWinRead core o) := by simp [Dev.digWinRead]

@[simp] theorem Dev.digWinWrite_mem (d : Dev) (core o v : Nat) : (d.digWinWrite core o v).mem = d.mem := by simp [Dev.digWinWrite]

/-! ### Frames of Machine/RegsSys -/

@[simp] theorem Dev.clkRead_keepsMem (d : Dev) (o : Nat) : d.ReadKeepsMem (d.clkRead o) := by simp [Dev.clkRead]

@[simp] theorem Dev.clkWrite_mem (d : Dev) (o v : Nat) : (d.clkWrite o v).mem = d.mem := by
  unfold Dev.clkWrite
  (repeat' split) <;> simp

@[simp] theorem Dev.pwrRead_keepsMem (d : Dev) (o : Nat) : d.ReadKeepsMem (d.pwrRead o) := by simp [Dev.pwrRead]

@[simp] theorem Dev.thmRead_keepsMem (d : Dev) (o : Nat) : d.ReadKeepsMem (d.thmRead o) := by simp [Dev.thmRead]

@[simp] theorem Dev.thmWrite_mem (d : Dev) (o v : Nat) : (d.thmWrite o v).mem = d.mem := by
  unfold Dev.thmWrite
  (repeat' split) <;> rfl

@[simp] theorem Dev.walkRead_keepsMem (d : Dev) (o : Nat) : d.ReadKeepsMem (d.walkRead o) := by simp [Dev.walkRead]

@[simp] theorem Dev.srcRead_keepsMem (d : Dev) (s r : Nat) : d.ReadKeepsMem (d.srcRead s r) := by simp [Dev.srcRead]

@[simp] theorem Dev.evtRead_keepsMem (d : Dev) (o : Nat) : d.ReadKeepsMem (d.evtRead o) := by simp [Dev.evtRead]

@[simp] theorem Dev.evtWrite_mem (d : Dev) (core o v : Nat) : (d.evtWrite core o v).mem = d.mem := by
  unfold Dev.evtWrite
  (repeat' split) <;> simp

@[simp] theorem Dev.iluRead_keepsMem (d : Dev) (lv : Level) (o : Nat) : d.ReadKeepsMem (d.iluRead lv o) := by simp [Dev.iluRead]

@[simp] theorem Dev.iluWrite_mem (d : Dev) (core o v : Nat) : (d.iluWrite core o v).mem = d.mem := by
  unfold Dev.iluWrite
  dsimp only
  (repeat' split) <;> simp

/-! ### Frames of Machine/Regs -/

@[simp] theorem Dev.chnRead_keepsMem (d : Dev) (ch o : Nat) : d.ReadKeepsMem (d.chnRead ch o) := by simp [Dev.chnRead]

@[simp] theorem Dev.chnWrite_mem (d : Dev) (ch o v : Nat) : (d.chnWrite ch o v).mem = d.mem := by
  unfold Dev.chnWrite
  (repeat' split) <;> rfl

@[simp] theorem Dev.aesRead_keepsMem (d : Dev) (ch o : Nat) : d.ReadKeepsMem (d.aesRead ch o) := by simp [Dev.aesRead]

@[simp] theorem Dev.drvRead_keepsMem (d : Dev) (v o : Nat) : d.ReadKeepsMem (d.drvRead v o) := by simp [Dev.drvRead]

@[simp] theorem Dev.drvWrite_mem (d : Dev) (v o w : Nat) : (d.drvWrite v o w).mem = d.mem := by
  unfold Dev.drvWrite
  (repeat' split) <;> rfl

@[simp] theorem Dev.regGet_keepsMem (d : Dev) (core : Nat) (lv : Level) (a : Nat) : d.ReadKeepsMem (d.regGet core lv a) := by
  unfold Dev.regGet
  dsimp only
  (repeat' split) <;> simp

@[simp] theorem Dev.regPut_memWf {d : Dev} (h : memWf d.mem = true) (core a v : Nat) : memWf (d.regPut core a v).mem = true := by
  unfold Dev.regPut
  dsimp only
  (repeat' split) <;> simp [h]

theorem Dev.mem_of_regLoad {d : Dev} {core : Nat} {lv : Level} {a n : Nat} {e : Dev × Nat} (he : d.regLoad core lv a n = some e) :
    e.1.mem = d.mem := by
  unfold Dev.regLoad at he
  split at he
  · split at he
    · cases he
    · next h1 =>
      split at he
      · cases he
      · next h2 =>
        cases he
        exact (Dev.regGet_keepsMem _ _ _ _ _ h2).trans (Dev.regGet_keepsMem _ _ _ _ _ h1)
  · split at he
    · cases he
    · next h1 =>
      have hk := Dev.regGet_keepsMem _ _ _ _ _ h1
      cases he
      exact hk

theorem Dev.memWf_of_regStore {d : Dev} (h : memWf d.mem = true) {core : Nat} {lv : Level} {a n v : Nat} {e : Dev} (he :
    (d.regStore core lv a n v) = some e) : memWf e.mem = true := by
  unfold Dev.regStore at he
  repeat' split at he
  all_goals cases he
  all_goals simp [h]

/-! ### Frames of Machine/Operands -/

theorem Dev.mem_of_load {d : Dev} {c : Nat} {lv : Level} {a n : Nat} {e : Dev × Nat} (he : d.load c lv a n = .ok e) : e.1.mem = d.mem := by
  unfold Dev.load at he
  split at he
  · cases he
  · split at he
    · cases he
    · split at he
      · cases he
      · cases he
        rfl
    · cases he
      rfl
    · split at he
      · next hr =>
        cases he
        exact Dev.mem_of_regLoad hr
      · cases he

theorem Dev.memWf_of_store {d : Dev} (h : memWf d.mem = true) {c : Nat} {lv : Level} {a n v : Nat} {e : Dev} (he : d.store c lv a n v = .ok e) :
    memWf e.mem = true := by
  unfold Dev.store at he
  split at he
  · cases he
  · split at he
    · cases he
    · split at he
      · cases he
      · cases he
        simp [h]
    · split at he
      · next hr =>
        cases he
        exact Dev.memWf_of_regStore h hr
      · cases he

theorem Dev.memWf_of_atomic {d : Dev} (h : memWf d.mem = true) {c : Nat} {lv : Level} {a : Nat} {k : Amo} {y rdIn : Word} {e : Dev × Word} (he :
    (d.atomic c lv a k y rdIn) = .ok e) : memWf e.1.mem = true := by
  unfold Dev.atomic at he
  dsimp only at he
  (repeat' split at he) <;> cases he <;> simp [h]

/-! ### Frames of Machine/Bexob -/

@[simp] theorem Dev.endModule_mem (d : Dev) (c ending ecause : Nat) (status : Word) : (d.endModule c ending ecause status).mem = d.mem := by
  unfold Dev.endModule
  (repeat' split) <;> simp

@[simp] theorem Dev.trap_mem (d : Dev) (c : Nat) (t : Trap) (epc : Word) : (d.trap c t epc).mem = d.mem := by
  unfold Dev.trap
  dsimp only
  (repeat' split) <;> simp

@[simp] theorem Dev.takeEvent_mem (d : Dev) (c n : Nat) : (d.takeEvent c n).mem = d.mem := by simp [Dev.takeEvent]

/-- Where the body of an instruction does not trap, the byte memories it leaves are in canonical form. -/
def BodyWf (r : Except Trap (Dev × After)) : Prop := ∀ e, r = .ok e → memWf e.1.mem = true

@[simp] theorem bodyWf_error (t : Trap) : BodyWf (.error t) := fun _ he => nomatch he

@[simp] theorem bodyWf_ok (e : Dev × After) : BodyWf (.ok e) ↔ memWf e.1.mem = true :=
  ⟨fun h => h e rfl, fun h _ he => Except.ok.inj he ▸ h⟩

@[simp] theorem bodyWf_ite {p : Prop} [Decidable p] (a b : Except Trap (Dev × After)) :
    BodyWf (if p then a else b) ↔ (p → BodyWf a) ∧ (¬p → BodyWf b) := by
  split <;> simp [*]

theorem Dev.finish_memWf {d : Dev} (h : memWf d.mem = true) (c : Nat) {r : Except Trap (Dev × After)} (hr : BodyWf r) :
    memWf (d.finish c r).mem = true := by
  unfold Dev.finish
  cases r with
  | error t =>
    dsimp only
    split
    · simp [h]
    · split <;> simp [h]
  | ok e =>
    have he := hr e rfl
    dsimp only
    split
    · simp [h]
    · split <;> simp [he]

/-- The frame of every instruction of a core: it traps, takes an event, or leaves what its body does. -/
theorem Dev.runInstr_memWf {d : Dev} (h : memWf d.mem = true) (c : Nat) (f : Fields) (i : OpInfo) {body : Except Trap (Dev × After)}
    (hb : BodyWf body) : memWf (d.runInstr c f i body).mem = true := by
  unfold Dev.runInstr
  dsimp only
  refine Dev.ite_memWf h (Dev.ite_memWf (by simp [h]) (Dev.ite_memWf (by simp [h]) ?_))
  split
  · simp [h]
  · split
    · simp [h]
    · exact Dev.finish_memWf h c hb

@[simp] theorem bodyWf_writes (d : Dev) (c : Nat) (f : Fields) (v : Word) : BodyWf (d.writes c f v) ↔ memWf d.mem = true :=
  (bodyWf_ok _).trans (by rw [Dev.setRd_mem])

/-! ### Frames of Machine/BexobSys -/

@[simp] theorem Dev.msgSend_mem (d : Dev) (c : Nat) (x : Nat) (payload : W32) : (d.msgSend c x payload).1.mem = d.mem := by
  unfold Dev.msgSend
  (repeat' split) <;> rfl

@[simp] theorem Dev.fenceDone_mem (d : Dev) (c : Nat) : (d.fenceDone c).mem = d.mem := by
  unfold Dev.fenceDone
  dsimp only
  split <;> rfl

@[simp] theorem Dev.serviceReturn_mem (d : Dev) (c : Nat) (v : Word) : (d.serviceReturn c v).mem = d.mem := (rfl)

@[simp] theorem Dev.otherService_mem (d : Dev) (c : Nat) : (d.otherService c).mem = d.mem := by
  unfold Dev.otherService
  (repeat' split) <;> rfl

@[simp] theorem Dev.restSet_mem (d : Dev) (c set : Nat) : (d.restSet c set).mem = d.mem := by
  unfold Dev.restSet
  (repeat' split) <;> rfl

@[simp] theorem Dev.restSelf_memWf {d : Dev} (h : memWf d.mem = true) (c : Nat) : memWf (d.restSelf c).mem = true := by
  unfold Dev.restSelf
  dsimp only
  split <;> simp [h]

/-! ### Frames of Machine/BexobDesc -/

@[simp] theorem Dev.runFop_memWf {d : Dev} (h : memWf d.mem = true) (c : Nat) (f : Fields) (op : Nat) : memWf (d.runFop c f op).mem = true := by
  unfold Dev.runFop
  refine Dev.ite_memWf h (Dev.runInstr_memWf h _ _ _ ?_)
  split <;> simp [h]

@[simp] theorem Dev.fopCollect_mem (d : Dev) (c : Nat) : (d.fopCollect c).1.mem = d.mem := by
  unfold Dev.fopCollect
  (repeat' split) <;> rfl

@[simp] theorem Dev.moveIssue_mem (d : Dev) (c : Nat) (x : MoveDesc) : (d.moveIssue c x).1.mem = d.mem := by
  unfold Dev.moveIssue
  dsimp only
  (repeat' split) <;> rfl

theorem Dev.mem_of_moveRead {d : Dev} {c : Nat} {lv : Level} {a n : Nat} {e : Dev × Bytes × Bool} (he : d.moveRead c lv a n = some e) :
    e.1.mem = d.mem := by
  unfold Dev.moveRead at he
  split at he
  · cases he
  · cases he
    rfl
  · cases he
    rfl
  · obtain ⟨r, hr, rfl⟩ := Option.map_eq_some_iff.mp he
    exact Dev.mem_of_regLoad hr

theorem Dev.memWf_of_moveWrite {d : Dev} (h : memWf d.mem = true) {c : Nat} {lv : Level} {a : Nat} {b : Bytes} {e : Dev} (he :
    (d.moveWrite c lv a b) = some e) : memWf e.mem = true := by
  unfold Dev.moveWrite at he
  split at he
  · cases he
  · cases he
    simp [h]
  · exact Dev.memWf_of_regStore h he

theorem Dev.moveCopy_memWf {c src dst total : Nat} {lv : Level} {carry : Bool} {d : Dev} (n : Nat) {r : MoveRun} (h : memWf r.dev.mem = true) :
    memWf (d.moveCopy c lv src dst carry total n r).dev.mem = true := by
  induction n generalizing r with
  | zero => exact h
  | succ n ih =>
    unfold Dev.moveCopy
    dsimp only
    split
    · exact h
    · split
      · exact ih h
      · next d1 b hit hr =>
        have h1 : memWf d1.mem = true := (congrArg memWf (Dev.mem_of_moveRead hr)).trans h
        split
        · exact ih h
        · split
          · exact ih h1
          · next hw => exact ih (Dev.memWf_of_moveWrite h1 hw)

theorem Dev.moveOut_mem {c src total : Nat} {lv : Level} {carry : Bool} {d : Dev} (n : Nat) (r : Dev × Bytes × Option Nat) :
    (d.moveOut c lv src carry total n r).1.mem = r.1.mem := by
  induction n generalizing r with
  | zero => rfl
  | succ n ih =>
    unfold Dev.moveOut
    dsimp only
    split
    · rfl
    · split
      · rfl
      · next hr =>
        split
        · exact Dev.mem_of_moveRead hr
        · exact (ih _).trans (Dev.mem_of_moveRead hr)

theorem Dev.moveIn_memWf {c dst : Nat} {lv : Level} {d : Dev} (bs : Bytes) {r : Dev × Nat} (h : memWf r.1.mem = true) :
    memWf (d.moveIn c lv dst bs r).1.mem = true := by
  induction bs generalizing r with
  | nil => exact h
  | cons b bs ih =>
    unfold Dev.moveIn
    split
    · exact h
    · next hw => exact ih (Dev.memWf_of_moveWrite h hw)

@[simp] theorem Dev.endMarks_mem (d : Dev) (c : Nat) (lv : Level) (a n : Nat) : (d.endMarks c lv a n).mem = d.mem := by
  unfold Dev.endMarks
  refine Dev.foldl_mem (fun d i => ?_) _ _
  split <;> rfl

@[simp] theorem Dev.carryMarks_mem (d : Dev) (c : Nat) (lv : Level) (l : List (Nat × Nat)) : (d.carryMarks c lv l).mem = d.mem := by
  unfold Dev.carryMarks
  refine Dev.foldl_mem (fun d e => ?_) _ _
  split <;> rfl

@[simp] theorem Dev.moveRunOf_memWf {d : Dev} (h : memWf d.mem = true) (c : Nat) (m : MoveOp) (he : HostEnd) (data : Bytes) :
    memWf (d.moveRunOf c m he data).1.mem = true := by
  unfold Dev.moveRunOf
  dsimp only
  split
  · rw [Dev.endMarks_mem]
    exact Dev.moveIn_memWf _ h
  · split
    · rw [Dev.emit_mem, Dev.moveOut_mem]
      exact h
    · rw [Dev.carryMarks_mem, Dev.endMarks_mem]
      exact Dev.moveCopy_memWf _ h

@[simp] theorem Dev.moveEnd_mem (d : Dev) (c i status : Nat) : (d.moveEnd c i status).mem = d.mem := by
  unfold Dev.moveEnd
  split <;> simp

@[simp] theorem Dev.hostFailures_mem (d : Dev) (k : Nat) (he : HostEnd) : (d.hostFailures k he).mem = d.mem := by
  unfold Dev.hostFailures
  (repeat' split) <;> simp

@[simp] theorem Dev.moveComplete_memWf {d : Dev} (h : memWf d.mem = true) (c i : Nat) (he : HostEnd) (data : Bytes) :
    memWf (d.moveComplete c i he data).mem = true := by
  unfold Dev.moveComplete
  dsimp only
  (repeat' split) <;> simp [h]

@[simp] theorem Dev.moveAbandon_mem (d : Dev) (k : Nat) : (d.moveAbandon k).mem = d.mem := by simp [Dev.moveAbandon]

@[simp] theorem Dev.parIssue_mem (d : Dev) (c : Nat) (op : ParOp) (x : ParDesc) : (d.parIssue c op x).1.mem = d.mem := by
  unfold Dev.parIssue
  dsimp only
  (repeat' split) <;> rfl

@[simp] theorem Dev.runPar_memWf {d : Dev} (h : memWf d.mem = true) (c : Nat) (f : Fields) (code : Nat) (op : ParOp) :
    memWf (d.runPar c f code op).mem = true := by
  refine Dev.runInstr_memWf h _ _ _ ?_
  split
  · simp
  · simp [h]

@[simp] theorem Dev.markAt_mem (d : Dev) (dst : Nat) (ks : List Nat) : (d.markAt dst ks).mem = d.mem := by
  unfold Dev.markAt
  exact Dev.foldl_mem (fun d k => Dev.mark_mem ..) _ _

@[simp] theorem Dev.accumulate_memWf {d : Dev} (h : memWf d.mem = true) (dst : Nat) (coef : Nat) (b : Bytes) :
    memWf (d.accumulate dst coef b).mem = true := by simp [Dev.accumulate, h]

@[simp] theorem Dev.paccRun_memWf {d : Dev} (h : memWf d.mem = true) (x : ParDesc) : memWf (d.paccRun x).1.mem = true := by
  unfold Dev.paccRun
  dsimp only
  (repeat' split) <;> simp [h]

@[simp] theorem Dev.pzeroRun_memWf {d : Dev} (h : memWf d.mem = true) (x : ParDesc) : memWf (d.pzeroRun x).1.mem = true := by simp [Dev.pzeroRun, h]

@[simp] theorem Dev.precRun_memWf {d : Dev} (h : memWf d.mem = true) (x : ParDesc) (bad : List Nat) : memWf (d.precRun x bad).1.mem = true := by
  unfold Dev.precRun
  (repeat' split) <;> simp [h]

@[simp] theorem Dev.pverRun_mem (d : Dev) (x : ParDesc) (bad : List Nat) : (d.pverRun x bad).1.mem = d.mem := by
  unfold Dev.pverRun
  split <;> rfl

@[simp] theorem Dev.parComplete_memWf {d : Dev} (h : memWf d.mem = true) (c i : Nat) (bad : List Nat) :
    memWf (d.parComplete c i bad).mem = true := by
  unfold Dev.parComplete
  split
  · simp [h]
  · split <;> simp [h]

@[simp] theorem Dev.measPost_mem (d : Dev) (c : Nat) (x : MeasDesc) : (d.measPost c x).1.mem = d.mem := by
  unfold Dev.measPost
  split <;> rfl

theorem Dev.memWf_of_measDirect {d : Dev} (h : memWf d.mem = true) {c : Nat} {x : MeasDesc} {e : Dev × Word} (he : d.measDirect c x = .ok e) :
    memWf e.1.mem = true := by
  unfold Dev.measDirect at he
  dsimp only at he
  repeat' split at he
  all_goals cases he
  · exact h
  · exact h
  · rw [Dev.endMarks_mem]
    exact Dev.moveIn_memWf _ h

@[simp] theorem Dev.measAnswer_mem (d : Dev) (fails : TallyFails) : (d.measAnswer fails).mem = d.mem := by
  unfold Dev.measAnswer
  dsimp only
  (repeat' split) <;> simp

/-! ### Frames of Machine/Module -/

@[simp] theorem Dev.runModule_mem (d : Dev) (p : Nat) (data : Bytes) (fails : TallyFails) : (d.runModule p data fails).mem = d.mem := by
  unfold Dev.runModule
  dsimp only
  (repeat' split) <;> simp

@[simp] theorem Dev.moduleStart_memWf {d : Dev} (h : memWf d.mem = true) (c : Nat) (failsLoad failsCounter : TallyFails) :
    memWf (d.moduleStart c failsLoad failsCounter).mem = true := by
  unfold Dev.moduleStart
  dsimp only
  (repeat' split) <;> simp [h]

@[simp] theorem Dev.serviceAppend_mem (d : Dev) (c : Nat) : (d.serviceAppend c).mem = d.mem := by
  unfold Dev.serviceAppend
  dsimp only
  (repeat' split) <;> rfl

/-! ### Frames of Machine/Ctrl -/

@[simp] theorem Dev.dropPen_mem (d : Dev) (p : Nat) : (d.dropPen p).mem = d.mem := by
  unfold Dev.dropPen
  (repeat' split) <;> simp

@[simp] theorem Dev.dropCommands_mem (d : Dev) (k : Nat) : (d.dropCommands k).mem = d.mem := by simp [Dev.dropCommands]

@[simp] theorem Dev.creditPool_mem (d : Dev) (k : Nat) : (d.creditPool k).mem = d.mem := by
  unfold Dev.creditPool
  split <;> rfl

@[simp] theorem Dev.endSession_mem (d : Dev) (k : Nat) : (d.endSession k).mem = d.mem := (rfl)

@[simp] theorem Dev.resetCtrl_mem (d : Dev) (k why : Nat) : (d.resetCtrl k why).mem = d.mem := by simp [Dev.resetCtrl]

@[simp] theorem Dev.resetFunction_mem (d : Dev) (k why : Nat) : (d.resetFunction k why).mem = d.mem := by simp [Dev.resetFunction]

@[simp] theorem Dev.enableCtrl_mem (d : Dev) (k cc aqa asq acq : Nat) : (d.enableCtrl k cc aqa asq acq).mem = d.mem := by
  unfold Dev.enableCtrl
  dsimp only
  split <;> simp

@[simp] theorem Dev.shutdown_mem (d : Dev) (k shn : Nat) : (d.shutdown k shn).mem = d.mem := by
  unfold Dev.shutdown
  dsimp only
  split <;> rfl

@[simp] theorem Dev.resumeMovers_mem (d : Dev) (k : Nat) : (d.resumeMovers k).mem = d.mem := by
  unfold Dev.resumeMovers
  split <;> simp

@[simp] theorem Dev.perstChange_mem (d : Dev) (l : Nat) (asserted : Bool) : (d.perstChange l asserted).mem = d.mem := by
  unfold Dev.perstChange
  (repeat' split) <;> simp

@[simp] theorem Dev.linkGoesDown_mem (d : Dev) (l : Nat) : (d.linkGoesDown l).mem = d.mem := by
  unfold Dev.linkGoesDown
  split <;> simp

@[simp] theorem Dev.linkTrains_mem (d : Dev) (l rate width : Nat) : (d.linkTrains l rate width).mem = d.mem := by
  unfold Dev.linkTrains
  dsimp only
  (repeat' split) <;> rfl

@[simp] theorem Dev.setUcie_mem (d : Dev) (m : Nat) (x : UcieMod) : (d.setUcie m x).mem = d.mem := (rfl)

@[simp] theorem Dev.setDegraded_mem (d : Dev) (m : Nat) : (d.setDegraded m).mem = d.mem := by
  unfold Dev.setDegraded
  dsimp only
  split <;> rfl

@[simp] theorem Dev.linkAllDown_mem (d : Dev) (x : Nat) : (d.linkAllDown x).mem = d.mem := by
  unfold Dev.linkAllDown
  (repeat' split) <;> simp

@[simp] theorem Dev.ucieTrain_mem (d : Dev) (m : Nat) (ok : Bool) : (d.ucieTrain m ok).mem = d.mem := by
  unfold Dev.ucieTrain
  dsimp only
  (repeat' split) <;> simp

/-! ### Frames of Machine/Spdm -/

@[simp] theorem Dev.spdmServe_mem (d : Dev) (peer : Nat) (m : Bytes) : (d.spdmServe peer m).1.mem = d.mem := by
  unfold Dev.spdmServe
  dsimp only
  (repeat' split) <;> rfl

@[simp] theorem Dev.spdmRequest_memWf {d0 : Dev} (h : memWf d0.mem = true) (code : Nat) (v : Via) (m : Bytes) :
    memWf (d0.spdmRequest code v m).mem = true := by
  unfold Dev.spdmRequest
  dsimp only
  (repeat' split) <;> simp [h]

/-! ### Frames of Machine/Update -/

@[simp] theorem Dev.pointAll_mem (d : Dev) (kind slot : Nat) : (d.pointAll kind slot).mem = d.mem := by simp [Dev.pointAll]

@[simp] theorem Dev.nowRuns_mem (d : Dev) (kind unit slot : Nat) : (d.nowRuns kind unit slot).mem = d.mem := (rfl)

@[simp] theorem Dev.fwDownload_memWf {d : Dev} (h : memWf d.mem = true) (p : Nat) (data : Bytes) : memWf (d.fwDownload p data).mem = true := by
  simp [Dev.fwDownload, h]

@[simp] theorem Dev.writeSlot_mem (d : Dev) (kind slot : Nat) (b : Bytes) (cntlid : Nat) (how : StoreEnd) (fails : TallyFails) :
    (d.writeSlot kind slot b cntlid how fails).1.mem = d.mem := by
  unfold Dev.writeSlot
  split <;> simp

@[simp] theorem Dev.fwReplace_mem (d : Dev) (p : Nat) (act : Bool) (how : StoreEnd) (fails : TallyFails) :
    (d.fwReplace p act how fails).mem = d.mem := by
  have hwrite : ∀ (ts : List (Nat × Nat × Bytes)) (k : Nat),
      (ts.foldl (fun (acc : Dev × Bool) t => if acc.2 then acc.1.writeSlot t.1 t.2.1 t.2.2 (k + 1) how fails else acc) (d, true)).1.mem = d.mem :=
    fun ts k => Dev.foldl_fst_mem (fun a t => by simp) ts (d, true)
  simp only [Dev.fwReplace]
  refine Dev.ite_mem_eq (by simp) (Dev.ite_mem_eq (by simp) (Dev.ite_mem_eq (by simp) ?_))
  generalize Dev.packageFail _ _ = fail
  cases fail with
  | some e => simp
  | none =>
    dsimp only
    generalize Dev.targets _ _ _ = ts
    cases ts with
    | none => simp
    | some ts => exact Dev.ite_mem_eq (by simp) (Dev.ite_mem_eq (by simp [hwrite]) (Dev.ite_mem_eq (by simp [hwrite]) (by simp [hwrite])))

@[simp] theorem Dev.freeDigests_mem (d : Dev) (core : Nat) : (d.freeDigests core).mem = d.mem := (rfl)

@[simp] theorem Dev.raiseLive_mem (d : Dev) (cntlid : Nat) (fails : TallyFails) : (d.raiseLive cntlid fails).mem = d.mem := by simp [Dev.raiseLive]

@[simp] theorem Dev.actEnd_mem (d : Dev) (a : ActSt) (st dw : Nat) : (d.actEnd a st dw).mem = d.mem := by simp [Dev.actEnd]

@[simp] theorem Dev.actNext_mem (d : Dev) (a : ActSt) (fails : TallyFails) : (d.actNext a fails).mem = d.mem := by
  unfold Dev.actNext
  split <;> simp

@[simp] theorem Dev.actCore_memWf {d : Dev} (h : memWf d.mem = true) (a : ActSt) (core : Nat) (fails : TallyFails) :
    memWf (d.actCore a core fails).mem = true := by
  unfold Dev.actCore
  dsimp only
  (repeat' split) <;> simp [h]

@[simp] theorem Dev.actFoldReset_memWf {d : Dev} (h : memWf d.mem = true) (a : ActSt) : memWf (d.actFoldReset a).mem = true := by
  simp [Dev.actFoldReset, h]

@[simp] theorem Dev.actFoldBoot_memWf {d : Dev} (h : memWf d.mem = true) (a : ActSt) (fails : TallyFails) :
    memWf (d.actFoldBoot a fails).mem = true := by
  simp only [Dev.actFoldBoot]
  cases udsOf d.fold.otp with
  | none => simp [h]
  | some uds =>
    dsimp only
    generalize Dev.runSlot _ 1 0 = slot
    cases slot with
    | none => simp [h]
    | some s => exact Dev.ite_memWf (Dev.ite_memWf (by simp [h]) (by simp [h])) (by simp [h])

@[simp] theorem Dev.coreActivate_memWf {d : Dev} (h : memWf d.mem = true) (fails : TallyFails) : memWf (d.coreActivate fails).mem = true := by
  unfold Dev.coreActivate
  dsimp only
  (repeat' split) <;> simp [h]

/-! ### Frames of Machine/Smart -/

@[simp] theorem Dev.getLog_mem (d : Dev) (p : Nat) (which : Nat → Bool) : (d.getLog p which).mem = d.mem := by
  unfold Dev.getLog
  dsimp only
  (repeat' split) <;> simp

/-! ### Frames of Machine/Admin -/

@[simp] theorem Dev.admin_mem {d : Dev} {f : PenSt → Dev} (hf : ∀ x, (f x).mem = d.mem) (p op : Nat) : (d.admin p op f).mem = d.mem := by
  unfold Dev.admin
  split
  · rfl
  · split
    · exact hf _
    · rfl

@[simp] theorem Dev.admin_memWf {d : Dev} (h : memWf d.mem = true) {f : PenSt → Dev} (hf : ∀ x, memWf (f x).mem = true) (p op : Nat) :
    memWf (d.admin p op f).mem = true := by
  unfold Dev.admin
  split
  · exact h
  · exact Dev.ite_memWf (hf _) h

@[simp] theorem Dev.createCq_mem (d : Dev) (p : Nat) : (d.createCq p).mem = d.mem := by simp [Dev.createCq]

@[simp] theorem Dev.createSq_mem (d : Dev) (p : Nat) : (d.createSq p).mem = d.mem := by simp [Dev.createSq]

@[simp] theorem Dev.deleteCq_mem (d : Dev) (p : Nat) : (d.deleteCq p).mem = d.mem := by simp [Dev.deleteCq]

@[simp] theorem Dev.endWaiting_mem (d : Dev) (q st : Nat) : (d.endWaiting q st).mem = d.mem := by simp [Dev.endWaiting]

@[simp] theorem Dev.deleteSq_mem (d : Dev) (p : Nat) : (d.deleteSq p).mem = d.mem := by
  unfold Dev.deleteSq
  refine Dev.admin_mem (fun x => ?_) _ _
  dsimp only
  split
  · simp
  · split
    · simp
    · rw [Dev.finishSqDelete_mem]
      exact Dev.foldl_mem (fun d w => Dev.endWaiting_mem ..) _ _

@[simp] theorem Dev.abort_mem (d : Dev) (p : Nat) : (d.abort p).mem = d.mem := by
  unfold Dev.abort
  refine Dev.admin_mem (fun x => ?_) _ _
  split <;> simp

@[simp] theorem Dev.aer_mem (d : Dev) (p : Nat) : (d.aer p).mem = d.mem := by
  unfold Dev.aer
  refine Dev.admin_mem (fun x => ?_) _ _
  dsimp only
  repeat' split
  all_goals simp

@[simp] theorem Dev.coalesceEnd_mem (d : Dev) (k q : Nat) : (d.coalesceEnd k q).mem = d.mem := by
  unfold Dev.coalesceEnd
  (repeat' split) <;> simp

@[simp] theorem Dev.setFeature_mem (d : Dev) (k key v : Nat) : (d.setFeature k key v).mem = d.mem := (rfl)

@[simp] theorem Dev.setFeatureData_mem (d : Dev) (k key : Nat) (b : Bytes) : (d.setFeatureData k key b).mem = d.mem := (rfl)

@[simp] theorem Dev.setGroupFeature_mem (d : Dev) (key v : Nat) : (d.setGroupFeature key v).mem = d.mem := (rfl)

theorem Dev.mem_of_featureSet {d : Dev} {x : PenSt} {data : Bytes} {e : Dev} (he : d.featureSet x data = .ok e) : e.mem = d.mem := by
  unfold Dev.featureSet at he
  dsimp only at he
  (repeat' split at he) <;> cases he <;> simp

@[simp] theorem Dev.setFeatures_mem (d : Dev) (p : Nat) (data : Bytes) : (d.setFeatures p data).mem = d.mem := by
  unfold Dev.setFeatures
  refine Dev.admin_mem (fun x => ?_) _ _
  dsimp only
  split
  · rfl
  · split
    · simp
    · next hf => simp [Dev.mem_of_featureSet hf]

@[simp] theorem Dev.setPower_mem (d : Dev) (p : Nat) : (d.setPower p).mem = d.mem := by simp [Dev.setPower]

@[simp] theorem Dev.setQueues_mem (d : Dev) (p : Nat) : (d.setQueues p).mem = d.mem := by simp [Dev.setQueues]

@[simp] theorem Dev.getFeatures_mem (d : Dev) (p : Nat) : (d.getFeatures p).mem = d.mem := by
  unfold Dev.getFeatures
  refine Dev.admin_mem (fun x => ?_) _ _
  repeat' split
  all_goals simp

@[simp] theorem Dev.identifyCmd_mem (d : Dev) (p : Nat) : (d.identifyCmd p).mem = d.mem := by
  unfold Dev.identifyCmd
  refine Dev.admin_mem (fun x => ?_) _ _
  repeat' split
  all_goals simp

/-! ### Frames of Machine/AdminNs -/

@[simp] theorem Dev.setSpan_mem (d : Dev) (n base count : Nat) : (d.setSpan n base count).mem = d.mem := (rfl)

@[simp] theorem Dev.noteSpare_mem (d : Dev) : d.noteSpare.mem = d.mem := (rfl)

@[simp] theorem Dev.noteChanged_mem (d : Dev) (n : Nat) (ks : List Nat) : (d.noteChanged n ks).mem = d.mem := by simp [Dev.noteChanged]

@[simp] theorem Dev.nsCreate_memWf {d : Dev} (h : memWf d.mem = true) (p : Nat) (x : PenSt) (data : Bytes) (fails : TallyFails) :
    memWf (d.nsCreate p x data fails).mem = true := by
  unfold Dev.nsCreate
  dsimp only
  have hc := fun fields => Dev.ownCommit_memWf h (some x.ctrl) fields fails
  split
  · simp [h]
  · split
    · simp [h]
    · split
      · simp [h]
      · split
        · simp [h]
        · split
          · exact h
          · split
            · exact h
            · split
              · simp [hc]
              · split
                · next hg => simp [Dev.mem_of_newGeneration hg, hc]
                · exact hc _

theorem Dev.memWf_of_nsDelete {d : Dev} (h : memWf d.mem = true) {n : Nat} {e : Dev} (he : d.nsDelete n = some e) : memWf e.mem = true := by
  obtain ⟨d1, h1, rfl⟩ := Option.map_eq_some_iff.mp he
  simp [Dev.memWf_of_nsRecord h h1]

theorem Dev.memWf_of_nsDeletes {ns : List Nat} {d : Dev} (h : memWf d.mem = true) {e : Dev} (he : d.nsDeletes ns = some e) :
    memWf e.mem = true := by
  induction ns generalizing d with
  | nil =>
    cases he
    exact h
  | cons n t ih =>
    obtain ⟨x, hx, hr⟩ := Option.bind_eq_some_iff.mp he
    exact ih (Dev.memWf_of_nsDelete h hx) hr

@[simp] theorem Dev.nsRemove_memWf {d : Dev} (h : memWf d.mem = true) (p : Nat) (x : PenSt) (fails : TallyFails) :
    memWf (d.nsRemove p x fails).mem = true := by
  unfold Dev.nsRemove
  dsimp only
  have hc := fun fields => Dev.ownCommit_memWf h (some x.ctrl) fields fails
  refine Dev.ite_memWf (by simp [h]) (Dev.ite_memWf (by simp [h]) (Dev.ite_memWf ?_ ?_))
  · refine Dev.ite_memWf h (Dev.ite_memWf (by simp [hc]) ?_)
    exact Dev.foldl_memWf (fun d n hd => by simp [hd]) _ (hc _)
  · refine Dev.ite_memWf h ?_
    split
    · exact h
    · next hns => simp [Dev.memWf_of_nsDeletes h hns]

@[simp] theorem Dev.nsManage_memWf {d : Dev} (h : memWf d.mem = true) (p : Nat) (data : Bytes) (fails : TallyFails) :
    memWf (d.nsManage p data fails).mem = true := by
  unfold Dev.nsManage
  refine Dev.admin_memWf h (fun x => ?_) _ _
  repeat' split
  all_goals simp [h]

@[simp] theorem Dev.nsAttach_memWf {d : Dev} (h : memWf d.mem = true) (p : Nat) (data : Bytes) (fails : TallyFails) :
    memWf (d.nsAttach p data fails).mem = true := by
  unfold Dev.nsAttach
  split <;> simp [h]

@[simp] theorem Dev.virtualize_mem (d : Dev) (p : Nat) : (d.virtualize p).mem = d.mem := by simp [Dev.virtualize]

@[simp] theorem Dev.integrityClear_mem (d : Dev) (ns : List Nat) : (d.integrityClear ns).mem = d.mem := by
  unfold Dev.integrityClear
  split <;> rfl

@[simp] theorem Dev.adoptNext_mem (d : Dev) : d.adoptNext.mem = d.mem := (rfl)

@[simp] theorem Dev.reformatAll_mem (d : Dev) (ns : List Nat) (dw : Nat) (all : Bool) : (d.reformatAll ns dw all).mem = d.mem := by
  simp +contextual [Dev.reformatAll]

@[simp] theorem Dev.firstCensus_mem (d : Dev) (bad : List (Nat × Nat)) : (d.firstCensus bad).mem = d.mem := by simp [Dev.firstCensus]

@[simp] theorem Dev.format_memWf {d : Dev} (h : memWf d.mem = true) (p : Nat) (bad : List (Nat × Nat)) : memWf (d.format p bad).mem = true := by
  unfold Dev.format
  split
  · exact h
  · next x _ =>
    dsimp only
    refine Dev.ite_memWf (by simp [h]) (Dev.ite_memWf (by simp [h]) (Dev.ite_memWf (by simp [h]) (Dev.ite_memWf (by simp [h])
      (Dev.ite_memWf (by simp [h]) ?_))))
    split
    · exact h
    · next d1 h1 =>
      have hd1 : memWf d1.mem = true := by
        split at h1
        · exact Dev.memWf_of_nsRecords h h1
        · obtain ⟨r, hr, rfl⟩ := Option.map_eq_some_iff.mp h1
          exact Dev.memWf_of_changeKeys h hr
      split <;> simp [hd1]

@[simp] theorem Dev.sanitize_memWf {d : Dev} (h : memWf d.mem = true) (p : Nat) : memWf (d.sanitize p).mem = true := by
  unfold Dev.sanitize
  split
  · exact h
  · dsimp only
    split
    · simp [h]
    · split
      · simp [h]
      · split
        · exact h
        · next he => simp [Dev.memWf_of_changeKeys h he]

@[simp] theorem Dev.secSend_memWf {d : Dev} (h : memWf d.mem = true) (p : Nat) (data : Bytes) (fails : TallyFails) :
    memWf (d.secSend p data fails).mem = true := by
  have hreq := fun n k => Dev.lcRequest_memWf h (fun _ hd => Dev.eraseAll_memWf hd) data n k true fails
  simp [Dev.secSend, h, hreq]

@[simp] theorem Dev.secReceive_mem (d : Dev) (p : Nat) : (d.secReceive p).mem = d.mem := by
  unfold Dev.secReceive
  refine Dev.admin_mem (fun x => ?_) _ _
  dsimp only
  repeat' split
  all_goals simp

/-! ### Frames of Machine/BexobAlu -/

@[simp] theorem Dev.runAlu_memWf {d : Dev} (h : memWf d.mem = true) (c : Nat) (f : Fields) (op : Nat) (g : Word → Word → Word) :
    memWf (d.runAlu c f op g).mem = true := Dev.runInstr_memWf h _ _ _ (by simp [h])

@[simp] theorem Dev.runAlu1_memWf {d : Dev} (h : memWf d.mem = true) (c : Nat) (f : Fields) (op : Nat) (g : Word → Word) :
    memWf (d.runAlu1 c f op g).mem = true := Dev.runInstr_memWf h _ _ _ (by simp [h])

@[simp] theorem Dev.runImm_memWf {d : Dev} (h : memWf d.mem = true) (c : Nat) (f : Fields) (op : Nat) (g : Word → Word → Word) :
    memWf (d.runImm c f op g).mem = true := Dev.runInstr_memWf h _ _ _ (by simp [h])

@[simp] theorem Dev.runImmZ_memWf {d : Dev} (h : memWf d.mem = true) (c : Nat) (f : Fields) (op : Nat) (g : Word → Word → Word) :
    memWf (d.runImmZ c f op g).mem = true := Dev.runInstr_memWf h _ _ _ (by simp [h])

@[simp] theorem Dev.runShift_memWf {d : Dev} (h : memWf d.mem = true) (c : Nat) (f : Fields) (op : Nat) (g : Word → Word → Word) :
    memWf (d.runShift c f op g).mem = true := Dev.runInstr_memWf h _ _ _ (by simp [h])

@[simp] theorem Dev.runBranch_memWf {d : Dev} (h : memWf d.mem = true) (c : Nat) (f : Fields) (op : Nat) (g : Word → Word → Bool) :
    memWf (d.runBranch c f op g).mem = true := Dev.runInstr_memWf h _ _ _ (by simp [h])

/-! ### Frames of Machine/BexobCfg -/

@[simp] theorem Dev.noteRead_mem (d : Dev) (c id : Nat) (i : FieldInfo) : (d.noteRead c id i).mem = d.mem := by
  unfold Dev.noteRead
  (repeat' split) <;> rfl

theorem Dev.mem_of_csetField {d : Dev} {c : Nat} {f : Fields} {id : Nat} {i : FieldInfo} {e : Dev × After} (he : d.csetField c f id i = .ok e) :
    e.1.mem = d.mem := by
  unfold Dev.csetField at he
  dsimp only at he
  (repeat' split at he) <;> cases he <;> simp

/-! ### Frames of Machine/BexobMem -/

@[simp] theorem Dev.runLoad_memWf {d : Dev} (h : memWf d.mem = true) (c : Nat) (f : Fields) (op n : Nat) (signed : Bool) :
    memWf (d.runLoad c f op n signed).mem = true := by
  refine Dev.runInstr_memWf h _ _ _ ?_
  split
  · simp
  · next hl => exact (bodyWf_writes ..).mpr ((congrArg memWf (Dev.mem_of_load hl)).trans h)

@[simp] theorem Dev.runStore_memWf {d : Dev} (h : memWf d.mem = true) (c : Nat) (f : Fields) (op n : Nat) :
    memWf (d.runStore c f op n).mem = true := by
  refine Dev.runInstr_memWf h _ _ _ ?_
  split
  · simp
  · next hs => simp [Dev.memWf_of_store h hs]

@[simp] theorem Dev.runAmo_memWf {d : Dev} (h : memWf d.mem = true) (c : Nat) (f : Fields) (op : Nat) (k : Amo) :
    memWf (d.runAmo c f op k).mem = true := by
  refine Dev.runInstr_memWf h _ _ _ ?_
  split
  · simp
  · next ha => simp [Dev.memWf_of_atomic h ha]

/-! ### Frames of Machine/Mgmt -/

@[simp] theorem Dev.miConfigSet_mem (d : Dev) (nmd0 nmd1 : Nat) : (d.miConfigSet nmd0 nmd1).1.mem = d.mem := by
  unfold Dev.miConfigSet
  dsimp only
  (repeat' split) <;> rfl

@[simp] theorem Dev.miStandby_mem (d : Dev) : d.miStandby.1.mem = d.mem := by
  unfold Dev.miStandby
  (repeat' split) <;> rfl

@[simp] theorem Dev.miServe_memWf {d : Dev} (h : memWf d.mem = true) (ops : List Nat) (early : Bool) {f : Dev → MgmtMsg → Dev × MiAns}
    (hf : ∀ d m, memWf d.mem = true → memWf (f d m).1.mem = true) : memWf (d.miServe ops early f).mem = true := by
  have hs := Dev.sweep_memWf h
  unfold Dev.miServe
  dsimp only
  split
  · exact hs
  · refine Dev.ite_memWf hs ?_
    split <;> simp [hf _ _ hs, hs]

@[simp] theorem Dev.challenge_memWf {d : Dev} (h : memWf d.mem = true) (src : LcSource) : memWf (d.challenge src).mem = true := by
  unfold Dev.challenge
  (repeat' split) <;> simp [h]

@[simp] theorem Dev.lcResultRow_memWf {d : Dev} (h : memWf d.mem = true) (src : LcSource) : memWf (d.lcResultRow src).mem = true := by
  unfold Dev.lcResultRow
  (repeat' split) <;> simp [h]

@[simp] theorem Dev.decommission_memWf {d : Dev} (h : memWf d.mem = true) (src : LcSource) (b : Bytes) (storeOk : Bool) (fails : TallyFails) :
    memWf (d.decommission src b storeOk fails).mem = true := by
  unfold Dev.decommission
  (repeat' split) <;> simp [h]

@[simp] theorem Dev.tunnelled_memWf {d0 : Dev} (h : memWf d0.mem = true) : memWf d0.tunnelled.mem = true := by
  unfold Dev.tunnelled
  dsimp only
  (repeat' split) <;> simp [h]

@[simp] theorem Dev.miReceive_mem (d : Dev) (p : Nat) : (d.miReceive p).mem = d.mem := by simp [Dev.miReceive]

@[simp] theorem Dev.basicMgmt_memWf {d : Dev} (h : memWf d.mem = true) (code : Nat) : memWf (d.basicMgmt code).mem = true := by
  unfold Dev.basicMgmt
  dsimp only
  (repeat' split) <;> simp [h]

/-! ### The commands -/

/-- Whatever next state the outcome answers, its byte memories are in canonical form. -/
def LeavesCanonical (o : Out) : Prop := ∀ t, o = .next t → memoryCanonical t

theorem leavesCanonical_apply {s : State} {f : Dev → Dev} {d : Dev} (hd : f s.dev = d) (hf : memWf d.mem = true) :
    LeavesCanonical (s.apply f) := by
  subst hd
  rintro _ ⟨⟩
  exact hf

/-- Each of the 409 commands applies a function to the device. The instructions whose body the command spells out come first; every
other command applies one function of the device, under its conditions, and the frame of that function is a simp lemma. -/
theorem exec_leavesCanonical {s : State} (h : memWf s.dev.mem = true) (i : Instr) : LeavesCanonical (exec i s) := by
  unfold exec
  cases i <;> refine leavesCanonical_apply rfl ?_
  case lui | auipc | jal | jalr | waitev | msgsend | msgrecv | yield | fence | rest | fopc | fopq | movec | pcol | txb =>
    exact Dev.runInstr_memWf h _ _ _ (by simp [h])
  case eret | spget | spset | move | cget | cver | txc | txa => exact Dev.runInstr_memWf h _ _ _ (by split <;> simp [h])
  case trap =>
    have hr := fun k f i t => Dev.runInstr_memWf h k f i (bodyWf_error t)
    exact Dev.ite_memWf (by simp [hr]) (hr ..)
  case cset =>
    refine Dev.runInstr_memWf h _ _ _ ?_
    split
    · simp
    · exact fun e he => (congrArg memWf (Dev.mem_of_csetField he)).trans h
  case meas =>
    refine Dev.runInstr_memWf h _ _ _ ?_
    split
    · simp
    · dsimp only
      split
      · split
        · simp
        · next hm => simp [Dev.memWf_of_measDirect h hm]
      · simp [h]
  case eventTrap | write | read | compare | verify | entropyRecoveryTimeout | thermalTripCooldown | resetHoldTimeout | warmReset =>
    split <;> simp [h]
  case waitevWake | yieldResume | firmwareCommitActivateReset | firmwareCommitActivateLive | grazeRead | iluBoundaryReport =>
    (repeat' split) <;> simp [h]
  case readClearCounter =>
    dsimp only
    split
    · split
      · next hr =>
        have hk := Dev.regGet_keepsMem _ _ _ _ _ hr
        dsimp only at hk
        simp [hk, h]
      · exact h
    · exact h
  case declareRetry => exact Dev.foldl_memWf (fun d ch hd => by simp [hd]) _ h
  all_goals simp [h]

/-- Settles O59: each command by the frame of its function, the idle tick by the frame of `Dev.advanceTo`. -/
theorem memoryStaysCanonical : Obligations.MemoryStaysCanonical := by
  intro s t h hs
  unfold step at hs
  split at hs
  · cases hs
    exact (congrArg memWf (Dev.mem_advanceTo ..)).trans h
  · next c rest _ => exact exec_leavesCanonical (s := { s with pending := rest }) h c t hs

end Sys2Proof.Machine
end
